-- ==== Sys2Proof/Word.lean ====
section
/-! DEFINITION. Word types of the N16 and their plainest helpers (R2, R3, R4, R5). -/

namespace Sys2Proof

/-- A register, 32 bits (R6). -/
abbrev Word := BitVec 32
/-- One byte. -/
abbrev Byte := BitVec 8
/-- A host line, 64 B; byte i is bits [8i+7:8i] (glossary). -/
abbrev HostLine := BitVec 512
/-- The 256 B of a media line; byte i is bits [8i+7:8i] (glossary). -/
abbrev LineData := BitVec 2048
/-- A stored media line, 304 B: 256 B of data then 48 B of spare (R192, R193). -/
abbrev Stored := BitVec 2432
/-- A device physical address (R3). -/
abbrev Dpa := BitVec 44
/-- A line number DPA[43:8] (R78). -/
abbrev LineNo := BitVec 36
/-- A region ID (R5). -/
abbrev RegionId := BitVec 18
/-- A key ID (R5). -/
abbrev KeyId := BitVec 14
/-- An engine register or datum (R224). -/
abbrev Xlen := BitVec 64
/-- An engine address (R215). -/
abbrev EngAddr := BitVec 48
/-- A moon number (R5). -/
abbrev Moon := BitVec 9

end Sys2Proof
end

