-- ==== Sys2Proof/Syntax.lean ====
section
/-! DEFINITION. The commands of the N16: one constructor for each row of spec/opcode_table.json, in its order.
The table gives no bits, so the operands are the model's (log 9). -/

namespace Sys2Proof

/-- A requester path of the management space (R424). -/
inductive Path where
  | mgmt
  | host (n : Fin 8)
  | cluster (k : Fin 4)
  | cc
deriving DecidableEq, Repr

/-- A clock domain that gates (R30). -/
inductive Domain where
  | fabric
  | cluster (k : Fin 4)
  | media (n : Fin 32)
  | ddr (n : Fin 8)
  | core (n : Fin 4)
  | stream
deriving DecidableEq, Repr

/-- What BCH decoding of one media line gave (R37 step 8): the decoded line may still differ from the line
written, by the bits of `err`; `corrected` counts the bits BCH corrected. -/
inductive MediaResult where
  | decoded (corrected : Nat) (err : Stored)
  | undecodable
deriving DecidableEq, Repr

/-- What the 15 reads of a reconstruction gave (R38, R110): the bits that BCH corrected in each die's line, and the bits by which the
line formed from them still differs from the line written; or another line of the group that does not decode. -/
inductive ReconRead where
  | decoded (corrected : List (Fin 16 × Nat)) (err : Stored)
  | undecodable
deriving DecidableEq, Repr

/-- What a die's array operation ended with (R200, R202). `dev` holds 14 bits for each cell that a read or a SOFT-READ sampled:
how far its sample lies above that of a cell at rest, modulo 2^14. -/
inductive ArrayResult where
  | read (dev : BitVec 34048)
  | samples (dev : BitVec 8512)
  | verify (ok : Bool)
deriving DecidableEq, Repr

/-- What the lines of an image gave when a start read them (R159): every line decodes and every section's CMAC matches, a line is
undecodable after deep recovery, or the CMAC of the section fails. -/
inductive ImageRead where
  | good
  | undecodable
  | badCmac (sec : Fin 5)
deriving DecidableEq, Repr

/-- The end of a configuration load (R410): whether the flash could be read, and what a start's replay read of its image. -/
structure LoadEnd where
  readOk : Bool
  image : ImageRead
deriving DecidableEq, Repr

/-- An access whose turn at admission comes (R113), and the 64 B that its data lane delivers with it (R90 CP2). -/
structure Admission where
  id : Nat
  lane : HostLine
deriving DecidableEq, Repr

/-- The end of an open group of a plane: whether its parity programmed (R143, R180). -/
structure CloseEnd where
  plane : Fin 4
  ok : Bool := true
deriving DecidableEq, Repr

/-- A mailbox request that has no row of its own: its opcode and its input payload (R65). -/
structure MboxReq where
  opcode : BitVec 16
  input : List Byte := []
deriving DecidableEq, Repr

/-- The completion of an engine's memory operation: its place in program order, and what the way back to the cluster changed of the
host line that an atomic returns (R218, R240). -/
structure StoreReturn where
  tag : Nat
  err : HostLine := 0
deriving DecidableEq, Repr

/-- What a fold read (R146): its undecodable lines, the bit errors of lines that it decoded, and of lines that it reconstructed the
bit errors of the reads by die. -/
structure FoldReads where
  lost : List (Fin 256)
  reads : List (Fin 256 × Nat)
  recon : List (Fin 256 × List (Fin 16 × Nat)) := []
deriving DecidableEq, Repr

/-- What the SEC-DED codes of a cluster cache or scratchpad find at an access, or the parity of a tag (R261). -/
inductive CellErr where
  | none
  | corrected
  | uncorrectable
  | tagParity
deriving DecidableEq, Repr

/-- One thermal conversion (R314, R315): a temperature in 0.25 °C, or a fault of the sensor. -/
inductive ThermalReading where
  | temp (t : BitVec 12)
  | openDiode
  | shortDiode
  | outOfRange
deriving DecidableEq, Repr

/-- A received Orbit header, field by field (R284), with the port it came on, the GCM tag that came with the frame (R287), and the
DIRGEN in bytes 8 to 15 of a DIR payload that gives it as held (R286). -/
structure OrbHdr where
  port : Fin 2
  src : Moon
  dst : Moon
  constId : BitVec 16
  seq : BitVec 48
  ack : BitVec 48
  nctr : BitVec 48
  credit : BitVec 16
  term : Word
  version : Byte
  typ : Byte
  chan : BitVec 3
  len : BitVec 16
  tag : BitVec 128
  held : BitVec 64 := 0
deriving DecidableEq, Repr

/-- A directory entry of 32 B (R294). -/
structure DirEntry where
  grn : Word
  homeMoon : Moon
  homeRegion : RegionId
  peerMoon : Moon
  peerRegion : RegionId
  role : BitVec 3
  valid : Bool
  moving : Bool
  size : Word
  gen : BitVec 64
deriving DecidableEq, Repr

/-- One view item of a UNIT frame (R286). -/
structure UnitItem where
  unit : BitVec 10
  gen : BitVec 16
  state : BitVec 4
  kind : BitVec 3
deriving DecidableEq, Repr

/-- One line of an MDATA payload (R286): plaintext, CC0 to CC3 and POISON. -/
structure MLine where
  data : LineData
  cc : BitVec 64
  poison : BitVec 4
deriving DecidableEq, Repr

/-- How a queue command reaches a stream queue: by STQ_Q_CMD on a path, or by the control line of its page (R272). -/
inductive QVia where
  | reg (p : Path)
  | line (q : Fin 4096)
deriving DecidableEq, Repr

/-- How a unit command arrives: by ORB_UNIT_CMD on a path, or in a UNIT frame from the planet (R309). -/
inductive UnitVia where
  | reg (p : Path)
  | frame (src : Moon)
deriving DecidableEq, Repr

/-- What a debugger names (R393). -/
inductive DebugTarget where
  | engine (e : Fin 32)
  | core (n : Fin 4)
deriving DecidableEq, Repr

/-- The two SPDM requests whose effect the spec gives: measurements and anything else (R233, R42). -/
inductive SpdmReq where
  | measurements
  | other (code : Byte)
deriving DecidableEq, Repr

/-- One CXL event log (R64). -/
inductive EvLog where
  | info | warn | failure | fatal
deriving DecidableEq, Repr

/-- A unit that evacuates (R182): a plane of a die, or a whole die. -/
inductive EvacUnit where
  | plane (ch : Fin 32) (die : Fin 16) (p : Fin 4)
  | die (ch : Fin 32) (d : Fin 16)
deriving DecidableEq, Repr

/-- The commands. -/
inductive Instr where
  /-- MISALIGNED_ACCESS (R6). -/
  | misalignedAccess (p : Path) (write : Bool) (off : BitVec 26) (size : Nat)
  /-- COUNTER_LO_READ (R7). -/
  | counterLoRead (p : Path) (off : BitVec 26)
  /-- COUNTER_HI_READ (R7). -/
  | counterHiRead (p : Path) (off : BitVec 26)
  /-- REGISTER_WRITE (R9). -/
  | registerWrite (p : Path) (off : BitVec 26) (v : Word)
  /-- UNMAPPED_ACCESS (R425). -/
  | unmappedAccess (p : Path) (write : Bool) (off : BitVec 26)
  /-- MGMT_READ (R430). -/
  | mgmtRead (count : Byte) (off : Word) (extra : Nat)
  /-- MGMT_WRITE (R430). -/
  | mgmtWrite (count : Byte) (off : Word) (data : List Word)
  /-- RC_READ (R19). -/
  | rcRead (p : Path) (v : Word)
  /-- RC_COMMIT (R16). -/
  | rcCommit (p : Path) (v : Word)
  /-- COMMIT_DONE (R19). -/
  | commitDone
  /-- CXL_MEM_READ (R46). -/
  | cxlMemRead (n : Fin 8) (hpa : BitVec 52)
  /-- CXL_MEM_WRITE (R34). -/
  | cxlMemWrite (n : Fin 8) (hpa : BitVec 52) (data : HostLine) (be : BitVec 64) (lane : HostLine)
  /-- ACCESS_ADMIT (R113). -/
  | accessAdmit (step : Admission)
  /-- LOOKUP_RETURN (R37). -/
  | lookupReturn (id : Nat) (err : LineData) (egress : HostLine)
  /-- MEDIA_LINE_RECEIVED (R37). -/
  | mediaLineReceived (id : Nat) (r : MediaResult) (egress : HostLine)
  /-- RECONSTRUCTION_READY (R111). -/
  | reconstructionReady (id : Nat) (r : ReconRead) (egress : HostLine)
  /-- DEEP_RECOVERY_DONE (R111). -/
  | deepRecoveryDone (line : LineNo) (r : MediaResult)
  /-- READ_BOUND_EXPIRY (R106). -/
  | readBoundExpiry (id : Nat)
  /-- VAULT_WRITE_DONE (R35). -/
  | vaultWriteDone (id : Nat)
  /-- DMR_RESOLVE (R86). -/
  | dmrResolve (r : MediaResult)
  /-- DOMAIN_IDLE_GATE (R30). -/
  | domainIdleGate (d : Domain)
  /-- DOMAIN_WAKE_DONE (R31). -/
  | domainWakeDone (d : Domain)
  /-- HOST_LINK_UP (R40). -/
  | hostLinkUp (n : Fin 8) (rate : BitVec 3) (width : BitVec 5) (loflit : Bool)
  /-- CONVENTIONAL_RESET (R67). -/
  | conventionalReset (n : Fin 8)
  /-- FUNCTION_LEVEL_RESET (R67). -/
  | functionLevelReset (n : Fin 8)
  /-- PORT_LEAVE_DETECT_QUIET (R66). -/
  | portLeaveDetectQuiet (n : Fin 8)
  /-- HDM_DECODER_COMMIT (R45). -/
  | hdmDecoderCommit (n : Fin 8) (k : Fin 16) (base : BitVec 52) (size : BitVec 52) (ways : Nat) (gran : Nat) (dpaBase : Dpa)
  /-- HDM_DECODER_UNCOMMIT (R32). -/
  | hdmDecoderUncommit (n : Fin 8) (k : Fin 16)
  /-- VIRAL_RECEIVED (R62). -/
  | viralReceived (n : Fin 8)
  /-- IDE_INTEGRITY_FAILURE (R63). -/
  | ideIntegrityFailure (n : Fin 8)
  /-- IDE_KM (R42). -/
  | ideKm (n : Fin 8) (keySet : Bool)
  /-- SPDM_REQUEST (R233). -/
  | spdmRequest (n : Fin 8) (req : SpdmReq)
  /-- CDAT_READ (R44). -/
  | cdatRead (n : Fin 8)
  /-- GPF_PHASE_1 (R58). -/
  | gpfPhase1 (n : Fin 8)
  /-- GPF_PHASE_2 (R58). -/
  | gpfPhase2 (n : Fin 8)
  /-- ADD_DYNAMIC_CAPACITY_RESPONSE (R55). -/
  | addDynamicCapacityResponse (n : Fin 8) (exts : List (Nat × Nat))
  /-- RELEASE_DYNAMIC_CAPACITY (R55). -/
  | releaseDynamicCapacity (n : Fin 8) (base : Nat) (len : Nat)
  /-- DC_RELEASE_COMPLETE (R55). -/
  | dcReleaseComplete (n : Fin 8)
  /-- GET_DC_EXTENT_LIST (R55). -/
  | getDcExtentList (n : Fin 8)
  /-- SET_PARTITION_INFO (R56). -/
  | setPartitionInfo (n : Fin 8) (volatile : Nat)
  /-- SET_LSA (R57). -/
  | setLsa (n : Fin 8) (off : Nat) (data : List Byte)
  /-- GET_LSA (R57). -/
  | getLsa (n : Fin 8) (off : Nat) (len : Nat)
  /-- GET_POISON_LIST (R60). -/
  | getPoisonList (n : Fin 8)
  /-- INJECT_POISON (R60). -/
  | injectPoison (n : Fin 8) (dpa : Dpa)
  /-- CLEAR_POISON (R60). -/
  | clearPoison (n : Fin 8) (dpa : Dpa) (data : HostLine)
  /-- GET_HEALTH_INFO (R185). -/
  | getHealthInfo (n : Fin 8)
  /-- UNSUPPORTED_MAILBOX_COMMAND (R65). -/
  | unsupportedMailboxCommand (n : Fin 8) (opcode : MboxReq)
  /-- HP_CNT_CLR (R68). -/
  | hpCntClr (p : Path) (n : Fin 8) (v : Word)
  /-- PORT_EN_WRITE (R66). -/
  | portEnWrite (p : Path) (n : Fin 8) (v : Word)
  /-- RST_STAT_READ (R68). -/
  | rstStatRead (p : Path) (n : Fin 8)
  /-- DC_REGION_ENABLE (R54). -/
  | dcRegionEnable (p : Path) (n : Fin 8) (j : Fin 8) (v : Word)
  /-- KEK_LOAD (R74). -/
  | kekLoad (p : Path) (v : Word)
  /-- KEK_ERASE (R74). -/
  | kekErase (p : Path) (v : Word)
  /-- KEY_IMPORT (R76). -/
  | keyImport (p : Path) (v : Word) (blob : BitVec 1024)
  /-- KEY_IMPORT_DONE (R76). -/
  | keyImportDone (readable : Bool)
  /-- KEY_UNLOAD (R77). -/
  | keyUnload (p : Path) (v : Word)
  /-- HALTED_SEQUENCE (R91). -/
  | haltedSequence
  /-- TRM_ARM (R103). -/
  | trmArm (p : Path) (k : Fin 4) (v : Word)
  /-- TRM_START (R103). -/
  | trmStart (p : Path) (k : Fin 4) (v : Word)
  /-- TRM_PAUSE (R103). -/
  | trmPause (p : Path) (k : Fin 4) (v : Word)
  /-- TRM_LINE_REWRITE (R99). -/
  | trmLineRewrite (k : Fin 4) (r : MediaResult)
  /-- TRM_STATUS_READ (R104). -/
  | trmStatusRead (p : Path)
  /-- PMC_OVERFLOW (R117). -/
  | pmcOverflow (i : Fin 512)
  /-- PMC_EVT_WRITE (R117). -/
  | pmcEvtWrite (p : Path) (v : Word)
  /-- PMC_CLEAR (R126). -/
  | pmcClear (p : Path) (v : Word)
  /-- PMC_LO_READ (R120). -/
  | pmcLoRead (p : Path) (i : Fin 512)
  /-- QOS_RATE_WRITE (R445). -/
  | qosRateWrite (p : Path) (c : Fin 8) (v : Word)
  /-- QOS_MRATE_WRITE (R445). -/
  | qosMrateWrite (p : Path) (c : Fin 8) (v : Word)
  /-- QOS_WAITMAX_READ (R126). -/
  | qosWaitmaxRead (p : Path) (c : Fin 8)
  /-- EPOCH_BOUNDARY (R122). -/
  | epochBoundary
  /-- METERING_SWEEP_DONE (R122). -/
  | meteringSweepDone
  /-- OCCUPANCY_TICK (R121). -/
  | occupancyTick
  /-- DRAIN_LINE (R134). -/
  | drainLine (line : LineNo) (err : LineData)
  /-- DRAIN_PROGRAM_DONE (R135). -/
  | drainProgramDone (slot : Nat) (ok : Bool)
  /-- FOLD_START (R145). -/
  | foldStart (tile : BitVec 28)
  /-- FOLD_COMMIT (R146). -/
  | foldCommit (tile : BitVec 28) (ok : Bool) (src : FoldReads)
  /-- FOLD_TIMEOUT (R147). -/
  | foldTimeout (tile : BitVec 28)
  /-- GROUP_CLOSE (R143). -/
  | groupClose (ch : Fin 32) (plane : CloseEnd)
  /-- GROUP_RESET (R149). -/
  | groupReset (g : Nat)
  /-- GROUP_RESET_DONE (R149). -/
  | groupResetDone (g : Nat) (failed : BitVec 16)
  /-- CHECKPOINT_START (R152). -/
  | checkpointStart
  /-- CHECKPOINT_DONE (R152). -/
  | checkpointDone
  /-- IMAGE_COMPLETE (R155). -/
  | imageComplete (trailerOk : Bool)
  /-- BAND_ARMED (R158). -/
  | bandArmed
  /-- MEDIA_FORMAT (R160). -/
  | mediaFormat (p : Path) (v : Word)
  /-- MEDIA_FORMAT_DONE (R160). -/
  | mediaFormatDone
  /-- DRIFT_CLOCK_TICK (R162). -/
  | driftClockTick
  /-- DRIFT_RECORD_STORE (R162). -/
  | driftRecordStore
  /-- EPOCH_SWEEP (R164). -/
  | epochSweep
  /-- RECALIBRATION (R169). -/
  | recalibration (ch : Fin 32) (die : Fin 16) (samples : List (List (List (List (BitVec 14))))) (samples1 : List (List (List (BitVec 14))))
  /-- DIE_TEMP_POLL (R170). -/
  | dieTempPoll (ch : Fin 32) (die : Fin 16) (reading : Option (BitVec 12))
  /-- SCRUB_PASS_START (R171). -/
  | scrubPassStart (ch : Fin 32)
  /-- SCRUB_DEADLINE (R171). -/
  | scrubDeadline (ch : Fin 32)
  /-- REFRESH_FOLD (R173). -/
  | refreshFold (tile : BitVec 28)
  /-- EVACUATION_DONE (R182). -/
  | evacuationDone (u : EvacUnit)
  /-- READ_1 (R198). -/
  | read1 (ch : Fin 32) (f : BitVec 128)
  /-- READ_4 (R198). -/
  | read4 (ch : Fin 32) (f : BitVec 128) (thr : BitVec 256)
  /-- SOFT_READ (R198). -/
  | softRead (ch : Fin 32) (f : BitVec 128)
  /-- DATA_OUT (R198). -/
  | dataOut (ch : Fin 32) (f : BitVec 128)
  /-- DATA_IN (R198). -/
  | dataIn (ch : Fin 32) (f : BitVec 128) (lines : List Stored)
  /-- PROGRAM_1 (R198). -/
  | program1 (ch : Fin 32) (f : BitVec 128) (line : Stored)
  /-- PROGRAM_4 (R204). -/
  | program4 (ch : Fin 32) (f : BitVec 128)
  /-- RESET_TILE (R198). -/
  | resetTile (ch : Fin 32) (f : BitVec 128)
  /-- SUSPEND (R205). -/
  | suspend (ch : Fin 32) (f : BitVec 128)
  /-- RESUME (R206). -/
  | resume (ch : Fin 32) (f : BitVec 128)
  /-- STATUS (R200). -/
  | dieStatus (ch : Fin 32) (f : BitVec 128)
  /-- TEMP (R201). -/
  | temp (ch : Fin 32) (f : BitVec 128)
  /-- READ_ID (R201). -/
  | readId (ch : Fin 32) (f : BitVec 128)
  /-- CALIBRATE (R198). -/
  | calibrate (ch : Fin 32) (f : BitVec 128)
  /-- TRAIN (R198). -/
  | train (ch : Fin 32) (f : BitVec 128) (data : BitVec 512)
  /-- RESET_DIE (R198). -/
  | resetDie (ch : Fin 32) (f : BitVec 128)
  /-- MEDIA_RESET_PIN (R195). -/
  | mediaResetPin (ch : Fin 32)
  /-- DIE_ARRAY_DONE (R202). -/
  | dieArrayDone (ch : Fin 32) (die : Fin 16) (plane : Fin 4) (r : ArrayResult)
  /-- DIE_TEMP_CONVERSION (R201). -/
  | dieTempConversion (ch : Fin 32) (die : Fin 16) (t : Option (BitVec 12))
  /-- ATTENTION (R203). -/
  | attention (ch : Fin 32) (die : Fin 16)
  /-- DIE_OVERDUE (R208). -/
  | dieOverdue (ch : Fin 32) (die : Fin 16) (resendOk : Bool) (restored : Bool)
  /-- PERIODIC_RETRAIN (R211). -/
  | periodicRetrain (ch : Fin 32) (die : Fin 16) (eye : BitVec 6) (sweepEye : BitVec 6)
  /-- DIE_STANDBY (R212). -/
  | dieStandby (ch : Fin 32) (die : Fin 16)
  /-- MED_RETRAIN (R213). -/
  | medRetrain (p : Path) (ch : Fin 32) (v : Word)
  /-- MED_DIE_RST (R213). -/
  | medDieRst (p : Path) (ch : Fin 32) (v : Word)
  /-- MED_CNT_CLR (R213). -/
  | medCntClr (p : Path) (ch : Fin 32) (v : Word)
  /-- ENG_BIND (R219). -/
  | engBind (p : Path) (e : Fin 32) (v : Word)
  /-- ENG_UNBIND (R220). -/
  | engUnbind (p : Path) (e : Fin 32) (v : Word)
  /-- ENG_ABORT (R220). -/
  | engAbort (p : Path) (e : Fin 32) (v : Word)
  /-- DESCRIPTOR_TAKE (R223). -/
  | descriptorTake (e : Fin 32) (cp8 : Bool)
  /-- DESCRIPTOR_COMPLETE (R223). -/
  | descriptorComplete (e : Fin 32)
  /-- ENGINE_KEY_RECHECK (R229). -/
  | engineKeyRecheck (e : Fin 32)
  /-- CYCLE_LIMIT (R229). -/
  | cycleLimit (e : Fin 32)
  /-- ADD (R227). -/
  | add (e : Fin 32) (f : BitVec 26)
  /-- SUB (R227). -/
  | sub (e : Fin 32) (f : BitVec 26)
  /-- AND (R227). -/
  | and (e : Fin 32) (f : BitVec 26)
  /-- OR (R227). -/
  | or (e : Fin 32) (f : BitVec 26)
  /-- XOR (R227). -/
  | xor (e : Fin 32) (f : BitVec 26)
  /-- SLL (R227). -/
  | sll (e : Fin 32) (f : BitVec 26)
  /-- SRL (R227). -/
  | srl (e : Fin 32) (f : BitVec 26)
  /-- SRA (R227). -/
  | sra (e : Fin 32) (f : BitVec 26)
  /-- ADDI (R227). -/
  | addi (e : Fin 32) (f : BitVec 26)
  /-- ANDI (R227). -/
  | andi (e : Fin 32) (f : BitVec 26)
  /-- ORI (R227). -/
  | ori (e : Fin 32) (f : BitVec 26)
  /-- XORI (R227). -/
  | xori (e : Fin 32) (f : BitVec 26)
  /-- SLLI (R227). -/
  | slli (e : Fin 32) (f : BitVec 26)
  /-- SRLI (R227). -/
  | srli (e : Fin 32) (f : BitVec 26)
  /-- SRAI (R227). -/
  | srai (e : Fin 32) (f : BitVec 26)
  /-- LUI (R227). -/
  | lui (e : Fin 32) (f : BitVec 26)
  /-- MUL (R227). -/
  | mul (e : Fin 32) (f : BitVec 26)
  /-- MULHU (R227). -/
  | mulhu (e : Fin 32) (f : BitVec 26)
  /-- DIVU (R227). -/
  | divu (e : Fin 32) (f : BitVec 26)
  /-- REMU (R227). -/
  | remu (e : Fin 32) (f : BitVec 26)
  /-- SLT (R227). -/
  | slt (e : Fin 32) (f : BitVec 26)
  /-- SLTU (R227). -/
  | sltu (e : Fin 32) (f : BitVec 26)
  /-- MINU (R227). -/
  | minu (e : Fin 32) (f : BitVec 26)
  /-- MAXU (R227). -/
  | maxu (e : Fin 32) (f : BitVec 26)
  /-- LD8 (R244). -/
  | ld8 (e : Fin 32) (f : BitVec 26) (ecc : CellErr)
  /-- LD16 (R244). -/
  | ld16 (e : Fin 32) (f : BitVec 26) (ecc : CellErr)
  /-- LD32 (R244). -/
  | ld32 (e : Fin 32) (f : BitVec 26) (ecc : CellErr)
  /-- LD64 (R244). -/
  | ld64 (e : Fin 32) (f : BitVec 26) (ecc : CellErr)
  /-- LDU8 (R244). -/
  | ldu8 (e : Fin 32) (f : BitVec 26) (ecc : CellErr)
  /-- LDU16 (R244). -/
  | ldu16 (e : Fin 32) (f : BitVec 26) (ecc : CellErr)
  /-- LDU32 (R244). -/
  | ldu32 (e : Fin 32) (f : BitVec 26) (ecc : CellErr)
  /-- LD_ACQ (R246). -/
  | ldAcq (e : Fin 32) (f : BitVec 26) (ecc : CellErr)
  /-- ST8 (R242). -/
  | st8 (e : Fin 32) (f : BitVec 26)
  /-- ST16 (R242). -/
  | st16 (e : Fin 32) (f : BitVec 26)
  /-- ST32 (R242). -/
  | st32 (e : Fin 32) (f : BitVec 26)
  /-- ST64 (R242). -/
  | st64 (e : Fin 32) (f : BitVec 26)
  /-- ST_REL (R247). -/
  | stRel (e : Fin 32) (f : BitVec 26)
  /-- LDV (R227). -/
  | ldv (e : Fin 32) (f : BitVec 26) (ecc : CellErr)
  /-- STV (R227). -/
  | stv (e : Fin 32) (f : BitVec 26)
  /-- ZERO (R227). -/
  | zero (e : Fin 32) (f : BitVec 26)
  /-- AMO_ADD (R227). -/
  | amoAdd (e : Fin 32) (f : BitVec 26)
  /-- AMO_SWAP (R227). -/
  | amoSwap (e : Fin 32) (f : BitVec 26)
  /-- AMO_CAS (R227). -/
  | amoCas (e : Fin 32) (f : BitVec 26)
  /-- AMO_AND (R227). -/
  | amoAnd (e : Fin 32) (f : BitVec 26)
  /-- AMO_OR (R227). -/
  | amoOr (e : Fin 32) (f : BitVec 26)
  /-- AMO_XOR (R227). -/
  | amoXor (e : Fin 32) (f : BitVec 26)
  /-- AMO_MINU (R227). -/
  | amoMinu (e : Fin 32) (f : BitVec 26)
  /-- AMO_MAXU (R227). -/
  | amoMaxu (e : Fin 32) (f : BitVec 26)
  /-- BEQ (R227). -/
  | beq (e : Fin 32) (f : BitVec 26)
  /-- BNE (R227). -/
  | bne (e : Fin 32) (f : BitVec 26)
  /-- BLT (R227). -/
  | blt (e : Fin 32) (f : BitVec 26)
  /-- BGE (R227). -/
  | bge (e : Fin 32) (f : BitVec 26)
  /-- BLTU (R227). -/
  | bltu (e : Fin 32) (f : BitVec 26)
  /-- BGEU (R227). -/
  | bgeu (e : Fin 32) (f : BitVec 26)
  /-- JAL (R227). -/
  | jal (e : Fin 32) (f : BitVec 26)
  /-- JALR (R227). -/
  | jalr (e : Fin 32) (f : BitVec 26)
  /-- CRC32C (R227). -/
  | crc32c (e : Fin 32) (f : BitVec 26)
  /-- POPC (R227). -/
  | popc (e : Fin 32) (f : BitVec 26)
  /-- CLZ (R227). -/
  | clz (e : Fin 32) (f : BitVec 26)
  /-- CSRR (R228). -/
  | csrr (e : Fin 32) (f : BitVec 26)
  /-- FENCE_LOAD (R250). -/
  | fenceLoad (e : Fin 32) (f : BitVec 26)
  /-- FENCE_STORE (R250). -/
  | fenceStore (e : Fin 32) (f : BitVec 26)
  /-- FENCE_FULL (R250). -/
  | fenceFull (e : Fin 32) (f : BitVec 26)
  /-- FENCE_DEVICE (R250). -/
  | fenceDevice (e : Fin 32) (f : BitVec 26)
  /-- FENCE_SC (R250). -/
  | fenceSc (e : Fin 32) (f : BitVec 26)
  /-- DONE (R227). -/
  | done (e : Fin 32) (f : BitVec 26)
  /-- BRK (R236). -/
  | brk (e : Fin 32) (f : BitVec 26)
  /-- FILL_RETURN (R259). -/
  | fillReturn (e : Fin 32) (tag : Nat) (err : HostLine)
  /-- STORE_COMPLETE (R240). -/
  | storeComplete (e : Fin 32) (tag : StoreReturn)
  /-- DEVICE_STORE_TIMEOUT (R252). -/
  | deviceStoreTimeout (e : Fin 32) (tag : Nat)
  /-- DEVICE_LOAD_TIMEOUT (R252). -/
  | deviceLoadTimeout (e : Fin 32) (tag : Nat)
  /-- ENG_LOAD (R231). -/
  | engLoad (p : Path) (v : Word)
  /-- ENG_UNLOAD (R232). -/
  | engUnload (p : Path) (v : Word)
  /-- ENG_LOAD_DONE (R231). -/
  | engLoadDone (image : List Word)
  /-- CLUSTER_RESET (R237). -/
  | clusterReset (p : Path) (k : Fin 4) (v : Word)
  /-- CLUSTER_STOP (R238). -/
  | clusterStop (p : Path) (k : Fin 4) (v : Word)
  /-- CLUSTER_WAKE (R239). -/
  | clusterWake (p : Path) (k : Fin 4) (v : Word)
  /-- RELEASE_WALK (R234). -/
  | releaseWalk
  /-- INV_ALL (R265). -/
  | invAll (p : Path) (v : Word)
  /-- INV_RANGE (R265). -/
  | invRange (p : Path) (v : Word)
  /-- LOCK_FILL (R265). -/
  | lockFill (p : Path) (v : Word)
  /-- MAINT_DONE (R265): `lost` is what the crossing to the cluster changed of a fill's host line (R218). -/
  | maintDone (lost : HostLine)
  /-- CC_LOCK_WRITE (R262). -/
  | ccLockWrite (p : Path) (k : Fin 4) (v : Word)
  /-- CC_CFG_WRITE (R264). -/
  | ccCfgWrite (p : Path) (k : Fin 4) (v : Word)
  /-- STQ_ENABLE (R279). -/
  | stqEnable (p : Path)
  /-- STQ_DISABLE (R279). -/
  | stqDisable (p : Path)
  /-- FLUSH (R277). -/
  | flush (via : QVia)
  /-- DROP_REM (R278). -/
  | dropRem (via : QVia)
  /-- DROP_REM_RESUME (R278). -/
  | dropRemResume (q : Fin 4096)
  /-- STQ_ENQUEUE (R273). -/
  | stqEnqueue (q : Fin 4096) (e : Fin 32) (tag : Nat) (item : HostLine)
  /-- ENQUEUE_UNBLOCK (R273). -/
  | enqueueUnblock (q : Fin 4096)
  /-- STQ_DEQUEUE (R274). -/
  | stqDequeue (q : Fin 4096) (e : Fin 32) (off : Fin 64) (width : Nat)
  /-- ITEM_SEND (R275). -/
  | itemSend (q : Fin 4096)
  /-- CREDIT_RETURN_SEND (R275). -/
  | creditReturnSend (q : Fin 4096)
  /-- STQ_CNT_CLR (R281). -/
  | stqCntClr (p : Path) (v : Word)
  /-- STREAM_LINK_UP (R282). -/
  | streamLinkUp (sp : Fin 2)
  /-- STREAM_LINK_DOWN (R282). -/
  | streamLinkDown (sp : Fin 2)
  /-- FOREIGN_FRAME (R282). -/
  | foreignFrame (sp : Fin 2)
  /-- PFC_FRAME (R282). -/
  | pfcFrame (sp : Fin 2) (pause : Bool)
  /-- HELLO (R293). -/
  | hello (h : OrbHdr) (role : BitVec 3) (planetEn : Bool) (planet : Option Moon) (dirgen : BitVec 64)
  /-- CANDIDATE (R293). -/
  | candidate (h : OrbHdr) (dirgen : BitVec 64)
  /-- VOTE (R293). -/
  | vote (h : OrbHdr) (term : Word) (granted : Bool)
  /-- PLANET (R293). -/
  | planet (h : OrbHdr) (dirgen : BitVec 64) (standby : Option Moon)
  /-- DIR_NOTE (R295). -/
  | dirNote (h : OrbHdr) (dirgen : BitVec 64) (grns : List Word)
  /-- DIR_QUERY (R295). -/
  | dirQuery (h : OrbHdr) (grns : List Word)
  /-- DIR_ENTRIES (R295). -/
  | dirEntries (h : OrbHdr) (entries : List DirEntry)
  /-- DIR_CHANGE_REQUEST (R295). -/
  | dirChangeRequest (h : OrbHdr) (entries : List DirEntry)
  /-- DIR_COPY (R295). -/
  | dirCopy (h : OrbHdr) (dirgen : BitVec 64) (entries : List DirEntry)
  /-- DIR_ACK (R295). -/
  | dirAck (h : OrbHdr) (grns : List Word)
  /-- UNIT_VIEWS (R310). -/
  | unitViews (h : OrbHdr) (items : List UnitItem)
  /-- UNIT_COMMAND (R309). -/
  | unitCommand (h : OrbHdr) (unit : BitVec 10) (gen : BitVec 16) (op : Byte)
  /-- UNIT_RESULT (R309). -/
  | unitResult (h : OrbHdr) (unit : BitVec 10) (code : BitVec 4)
  /-- RWRITE (R299). -/
  | rwrite (h : OrbHdr) (rseq : Word) (region : RegionId) (off : BitVec 40) (l : MLine)
  /-- RACK (R298). -/
  | rack (h : OrbHdr) (rseq : Word) (region : RegionId) (code : Byte) (ns : BitVec 24)
  /-- MDATA (R302). -/
  | mdata (h : OrbHdr) (region : RegionId) (tile : BitVec 28) (unmapped : Bool) (first : Byte) (lines : List MLine)
  /-- MACK (R302). -/
  | mack (h : OrbHdr) (region : RegionId) (tile : BitVec 28) (code : Byte)
  /-- ITEMS (R275). -/
  | items (h : OrbHdr) (dstQ : BitVec 12) (srcQ : BitVec 12) (epoch : Byte) (items : List HostLine)
  /-- GRANT (R275). -/
  | grant (h : OrbHdr) (txQ : BitVec 12) (rxQ : BitVec 12) (epoch : Byte) (value : BitVec 17)
  /-- RETURN (R275). -/
  | returnFrame (h : OrbHdr) (txQ : BitVec 12) (rxQ : BitVec 12) (epoch : Byte) (value : BitVec 17)
  /-- RREAD (R305). -/
  | rread (h : OrbHdr) (tag : Word) (region : RegionId) (off : BitVec 44) (be : BitVec 64) (devRegion : RegionId)
  /-- RDATA (R305). -/
  | rdata (h : OrbHdr) (tag : Word) (code : Byte) (data : HostLine)
  /-- RSTORE (R305). -/
  | rstore (h : OrbHdr) (tag : Word) (region : RegionId) (off : BitVec 44) (be : BitVec 64) (data : HostLine) (devRegion : RegionId)
  /-- RSTACK (R305). -/
  | rstack (h : OrbHdr) (tag : Word) (code : Byte)
  /-- NAK (R289). -/
  | nak (h : OrbHdr) (chan : Fin 5) (expected : BitVec 48)
  /-- ACK_ONLY (R289). -/
  | ackOnly (h : OrbHdr) (chan : Fin 5)
  /-- ACK_ONLY_TIMER (R289). -/
  | ackOnlyTimer (peer : Moon) (chan : Fin 5)
  /-- RETRANSMIT_TIMEOUT (R289). -/
  | retransmitTimeout (peer : Moon) (chan : Fin 5)
  /-- HELLO_PERIOD (R292). -/
  | helloPeriod
  /-- PEER_UNREACHABLE (R292). -/
  | peerUnreachable (peer : Moon)
  /-- PLANET_SILENCE (R293). -/
  | planetSilence
  /-- ELECTION_TIMEOUT (R293). -/
  | electionTimeout
  /-- PLANET_STEP_DOWN (R293). -/
  | planetStepDown
  /-- REFLECTION_TIMEOUT (R300). -/
  | reflectionTimeout (region : RegionId) (rseq : Word)
  /-- NCTR_WARN (R288). -/
  | nctrWarn (peer : Moon)
  /-- MIG_START (R302). -/
  | migStart (p : Path) (m : Fin 2) (v : Word)
  /-- MIG_PAUSE (R302). -/
  | migPause (p : Path) (m : Fin 2) (v : Word)
  /-- MIGRATION_TILE (R302). -/
  | migrationTile (m : Fin 2) (lost : List (Fin 256))
  /-- ORB_CNT_CLR (R311). -/
  | orbCntClr (p : Path) (v : Word)
  /-- RACK_NS_MAX_READ (R311). -/
  | rackNsMaxRead (p : Path)
  /-- UNIT_HOLD (R309). -/
  | unitHold (via : UnitVia) (unit : BitVec 10) (gen : BitVec 16)
  /-- UNIT_RELEASE (R309). -/
  | unitRelease (via : UnitVia) (unit : BitVec 10) (gen : BitVec 16)
  /-- UNIT_RESET (R309). -/
  | unitReset (via : UnitVia) (unit : BitVec 10) (gen : BitVec 16)
  /-- UNIT_RETIRE (R309). -/
  | unitRetire (via : UnitVia) (unit : BitVec 10) (gen : BitVec 16)
  /-- UNIT_AUDIT (R310). -/
  | unitAudit
  /-- LOCKSTEP_DISAGREE (R313). -/
  | lockstepDisagree
  /-- THERMAL_SAMPLE (R314). -/
  | thermalSample (raw : BitVec 16) (r : ThermalReading)
  /-- SENSOR_STUCK (R315). -/
  | sensorStuck
  /-- DIM_STEP_FALL (R317). -/
  | dimStepFall
  /-- RISE_HOLD_END (R318). -/
  | riseHoldEnd
  /-- NV_PAGE_WRITE (R327). -/
  | nvPageWrite (bad : Option (Fin 32))
  /-- NV_STORE_READY (R328). -/
  | nvStoreReady
  /-- NVS_CNT_INC (R332). -/
  | nvsCntInc (p : Path) (v : Word)
  /-- TORN_REPORT (R325). -/
  | tornReport
  /-- EVENT_APPEND (R342). -/
  | eventAppend
  /-- CUR_SEQ_WRITE (R346). -/
  | curSeqWrite (p : Path) (v : Word)
  /-- CUR_NEXT (R345). -/
  | curNext (p : Path)
  /-- CUR_OLDEST (R345). -/
  | curOldest (p : Path)
  /-- CUR_NEWEST (R345). -/
  | curNewest (p : Path)
  /-- CURSOR_LOAD_DONE (R346). -/
  | cursorLoadDone (p : Path)
  /-- EVR_CLEAR (R347). -/
  | evrClear (p : Path) (v : Word)
  /-- EVR_CLEAR_DONE (R347). -/
  | evrClearDone
  /-- NEW_CHALLENGE (R351). -/
  | newChallenge (p : Path)
  /-- PRESENT_TOKEN (R352). -/
  | presentToken (p : Path) (purpose : Byte)
  /-- CLOSE_AUTHORISATION (R353). -/
  | closeAuthorisation (p : Path)
  /-- TOKEN_CHECK_DONE (R352). -/
  | tokenCheckDone
  /-- CHALLENGE_EXPIRY (R351). -/
  | challengeExpiry
  /-- AUTHORISATION_EXPIRY (R353). -/
  | authorisationExpiry
  /-- KVC_LOCK_WRITE (R357). -/
  | kvcLockWrite (safety : Bool) (p : Path) (v : Word)
  /-- KVC_LOCK_BREAK (R357). -/
  | kvcLockBreak
  /-- GCM_SEAL (R356). -/
  | gcmSeal (p : Path) (v : Word)
  /-- GCM_OPEN (R356). -/
  | gcmOpen (p : Path) (v : Word)
  /-- KW_WRAP (R356). -/
  | kwWrap (p : Path) (v : Word)
  /-- KW_UNWRAP (R356). -/
  | kwUnwrap (p : Path) (v : Word)
  /-- CMAC_GEN (R356). -/
  | cmacGen (p : Path) (v : Word)
  /-- CMAC_VERIFY (R356). -/
  | cmacVerify (p : Path) (v : Word)
  /-- SLOT_IMPORT (R356). -/
  | slotImport (p : Path) (v : Word)
  /-- SLOT_ERASE (R356). -/
  | slotErase (p : Path) (v : Word)
  /-- KVC_OP_DONE (R358). -/
  | kvcOpDone (sealing : Nat)
  /-- SUPPLY_GLITCH (R360). -/
  | supplyGlitch
  /-- CLOCK_MONITOR_ALARM (R360). -/
  | clockMonitorAlarm
  /-- XTAL32K_FAIL (R444). -/
  | xtal32kFail
  /-- POR_ASSERT (R438). -/
  | porAssert
  /-- POR_RELEASE (R438). -/
  | porRelease (fusesOk : Bool)
  /-- SEQ_ENABLE (R364). -/
  | seqEnable
  /-- SEQ_DISABLE (R364). -/
  | seqDisable
  /-- SEQ_WAIT (R364). -/
  | seqWait
  /-- SEQ_CHECK (R364). -/
  | seqCheck
  /-- SEQ_JUMP (R364). -/
  | seqJump
  /-- SEQ_SYNC (R366). -/
  | seqSync
  /-- SEQ_MARK (R373). -/
  | seqMark
  /-- SEQ_END (R364). -/
  | seqEnd
  /-- SEQ_WAIT_EXPIRY (R364). -/
  | seqWaitExpiry
  /-- SEQ_CHECK_TIMEOUT (R374). -/
  | seqCheckTimeout
  /-- SEQ_DISCHARGE_TIMEOUT (R374). -/
  | seqDischargeTimeout
  /-- SEQ_SYNC_TIMEOUT (R368). -/
  | seqSyncTimeout
  /-- RUN_STEP_LIMIT (R365). -/
  | runStepLimit
  /-- PGOOD_CHANGE (R374). -/
  | pgoodChange (rail : Fin 24) (level : Bool)
  /-- PHASE_FALL (R366). -/
  | phaseFall
  /-- PHASE_BARRIER (R366). -/
  | phaseBarrier
  /-- PWRBTN_RELEASE (R370). -/
  | pwrbtnRelease (ms : Nat)
  /-- PWRBTN_HOLD_8S (R370). -/
  | pwrbtnHold8s
  /-- PWRBTN_HOLD_12S (R370). -/
  | pwrbtnHold12s
  /-- MRST_N_ASSERT (R371). -/
  | mrstNAssert
  /-- MRST_N_RELEASE (R371). -/
  | mrstNRelease
  /-- REQ_ON (R369). -/
  | reqOn (p : Path) (v : Word)
  /-- REQ_OFF (R372). -/
  | reqOff (p : Path) (v : Word)
  /-- FAULT_CLR (R374). -/
  | faultClr (p : Path) (v : Word)
  /-- HOLDOFF_END (R369). -/
  | holdoffEnd
  /-- HOST_WAIT_EXPIRY (R373). -/
  | hostWaitExpiry
  /-- VIN_WARN_CROSS (R378). -/
  | vinWarnCross (mv : BitVec 16)
  /-- VIN_RESET_CROSS (R378). -/
  | vinResetCross (mv : BitVec 16)
  /-- PENUMBRA_EXIT (R379). -/
  | penumbraExit (mv : BitVec 16)
  /-- HOLDUP_OK_CHANGE (R378). -/
  | holdupOkChange (level : Bool)
  /-- ECLIPSE_DEADLINE (R380). -/
  | eclipseDeadline
  /-- MODE_COLD (R397). -/
  | modeCold (p : Path) (v : Word)
  /-- MODE_WARM (R398). -/
  | modeWarm (p : Path) (v : Word)
  /-- MODE_DIM (R386). -/
  | modeDim (p : Path) (v : Word)
  /-- MODE_RELEASE (R390). -/
  | modeRelease (p : Path) (v : Word)
  /-- MODE_SEAL (R392). -/
  | modeSeal (p : Path) (v : Word)
  /-- USE_B (R413). -/
  | useB (p : Path) (v : Word)
  /-- RETRY (R413). -/
  | retry (p : Path) (v : Word)
  /-- BOOT_VALIDATION_DONE (R409). -/
  | bootValidationDone (readOk : Bool)
  /-- BOOT_LOAD_DONE (R410). -/
  | bootLoadDone (load : LoadEnd)
  /-- FLASH_READ (R415). -/
  | flashRead (p : Path) (v : Word)
  /-- FLASH_PROGRAM (R415). -/
  | flashProgram (p : Path) (v : Word)
  /-- FLASH_ERASE_4K (R415). -/
  | flashErase4k (p : Path) (v : Word)
  /-- FLASH_ERASE_64K (R415). -/
  | flashErase64k (p : Path) (v : Word)
  /-- FLASH_OP_DONE (R415). -/
  | flashOpDone (ok : Bool)
  /-- BOOT_SEAL (R416). -/
  | bootSeal (p : Path) (v : Word)
  /-- MODE_STORE_LOAD (R419). -/
  | modeStoreLoad (p : Path) (v : Word)
  /-- MODE_STORE (R419). -/
  | modeStore (p : Path) (v : Word)
  /-- MODE_STORE_DONE (R419). -/
  | modeStoreDone
  /-- SCRUB_READ (R171). -/
  | scrubRead (ch : Fin 32) (pos : Nat) (r : MediaResult)
  /-- DEBUGGER_ATTACH (R236). -/
  | debuggerAttach (attach : Bool)
  /-- DEBUG_HALT (R393). -/
  | debugHalt (t : DebugTarget)
  /-- DEBUG_STEP (R236). -/
  | debugStep (t : DebugTarget)
  /-- DEBUG_RESUME (R236). -/
  | debugResume (t : DebugTarget)
  /-- DEBUG_REGISTER_ACCESS (R236). -/
  | debugRegisterAccess (t : DebugTarget) (reg : Fin 32) (write : Bool) (v : Xlen)
  /-- DEBUG_MEMORY_ACCESS (R393). -/
  | debugMemoryAccess (e : Fin 32) (ea : EngAddr) (write : Bool) (v : Xlen)
  /-- BOUNDARY_SCAN_INSTRUCTION (R393). -/
  | boundaryScanInstruction (drives : Bool)
  /-- CLEAR_EVENT_RECORDS (R64). -/
  | clearEventRecords (n : Fin 8) (log : EvLog) (count : Nat)
deriving DecidableEq, Repr

end Sys2Proof
end

