-- ==== Sys2Proof/Decode.lean ====
section
/-! DEFINITION. The command that a word of the table spells: the table gives none of its rows any bits, so no word spells one
(log 9). After it, the words of the engine instructions (R225, R226), which program slots hold: an encoder, and a decoder that
refuses the words R225 calls illegal. -/

namespace Sys2Proof

/-- The command whose bits are `w`: no row of the table has bits. -/
def decodeTableWord (_nbits _w : Nat) : Option Instr := none

/-! ### Engine instruction words (R225, R226) -/

/-- The engine, opcode and fields of an engine instruction. -/
def engFields (i : Instr) : Option (Fin 32 × BitVec 6 × BitVec 26) :=
  match i with
  | .add e f => some (e, 0x00#6, f)
  | .sub e f => some (e, 0x01#6, f)
  | .and e f => some (e, 0x02#6, f)
  | .or e f => some (e, 0x03#6, f)
  | .xor e f => some (e, 0x04#6, f)
  | .sll e f => some (e, 0x05#6, f)
  | .srl e f => some (e, 0x06#6, f)
  | .sra e f => some (e, 0x07#6, f)
  | .addi e f => some (e, 0x08#6, f)
  | .andi e f => some (e, 0x09#6, f)
  | .ori e f => some (e, 0x0A#6, f)
  | .xori e f => some (e, 0x0B#6, f)
  | .slli e f => some (e, 0x0C#6, f)
  | .srli e f => some (e, 0x0D#6, f)
  | .srai e f => some (e, 0x0E#6, f)
  | .lui e f => some (e, 0x0F#6, f)
  | .mul e f => some (e, 0x10#6, f)
  | .mulhu e f => some (e, 0x11#6, f)
  | .divu e f => some (e, 0x12#6, f)
  | .remu e f => some (e, 0x13#6, f)
  | .slt e f => some (e, 0x14#6, f)
  | .sltu e f => some (e, 0x15#6, f)
  | .minu e f => some (e, 0x16#6, f)
  | .maxu e f => some (e, 0x17#6, f)
  | .ld8 e f _ => some (e, 0x18#6, f)
  | .ld16 e f _ => some (e, 0x19#6, f)
  | .ld32 e f _ => some (e, 0x1A#6, f)
  | .ld64 e f _ => some (e, 0x1B#6, f)
  | .ldu8 e f _ => some (e, 0x1C#6, f)
  | .ldu16 e f _ => some (e, 0x1D#6, f)
  | .ldu32 e f _ => some (e, 0x1E#6, f)
  | .ldAcq e f _ => some (e, 0x1F#6, f)
  | .st8 e f => some (e, 0x20#6, f)
  | .st16 e f => some (e, 0x21#6, f)
  | .st32 e f => some (e, 0x22#6, f)
  | .st64 e f => some (e, 0x23#6, f)
  | .stRel e f => some (e, 0x24#6, f)
  | .ldv e f _ => some (e, 0x25#6, f)
  | .stv e f => some (e, 0x26#6, f)
  | .zero e f => some (e, 0x27#6, f)
  | .amoAdd e f => some (e, 0x28#6, f)
  | .amoSwap e f => some (e, 0x29#6, f)
  | .amoCas e f => some (e, 0x2A#6, f)
  | .amoAnd e f => some (e, 0x2B#6, f)
  | .amoOr e f => some (e, 0x2C#6, f)
  | .amoXor e f => some (e, 0x2D#6, f)
  | .amoMinu e f => some (e, 0x2E#6, f)
  | .amoMaxu e f => some (e, 0x2F#6, f)
  | .beq e f => some (e, 0x30#6, f)
  | .bne e f => some (e, 0x31#6, f)
  | .blt e f => some (e, 0x32#6, f)
  | .bge e f => some (e, 0x33#6, f)
  | .bltu e f => some (e, 0x34#6, f)
  | .bgeu e f => some (e, 0x35#6, f)
  | .jal e f => some (e, 0x36#6, f)
  | .jalr e f => some (e, 0x37#6, f)
  | .crc32c e f => some (e, 0x38#6, f)
  | .popc e f => some (e, 0x39#6, f)
  | .clz e f => some (e, 0x3A#6, f)
  | .csrr e f => some (e, 0x3B#6, f)
  | .fenceDevice e f => some (e, 0x3C#6, f)
  | .fenceFull e f => some (e, 0x3C#6, f)
  | .fenceLoad e f => some (e, 0x3C#6, f)
  | .fenceStore e f => some (e, 0x3C#6, f)
  | .fenceSc e f => some (e, 0x3D#6, f)
  | .done e f => some (e, 0x3E#6, f)
  | .brk e f => some (e, 0x3F#6, f)
  | _ => none

/-- The word of an engine instruction: the opcode in bits [31:26], the fields below it. -/
def engWord (i : Instr) : Option (BitVec 32) := (engFields i).map (fun x => x.2.1 ++ x.2.2)

/-- Bits [25:21], [20:16], [15:11], [10:0] and [15:0] of a word. -/
def wordA (f : BitVec 26) : BitVec 5 := f.extractLsb' 21 5
def wordB (f : BitVec 26) : BitVec 5 := f.extractLsb' 16 5
def wordC (f : BitVec 26) : BitVec 5 := f.extractLsb' 11 5
def wordLow (f : BitVec 26) : BitVec 11 := f.extractLsb' 0 11
def wordImm (f : BitVec 26) : BitVec 16 := f.extractLsb' 0 16

/-- The fields that a word must hold at 0 or within limits, by opcode (R225, R227, R228, R250). -/
def engLegal (op : BitVec 6) (f : BitVec 26) : Bool :=
  let n := op.toNat
  if n < 0x08 ∨ (0x10 ≤ n ∧ n < 0x18) ∨ (0x28 ≤ n ∧ n < 0x30) ∨ n = 0x38 then wordLow f == 0
  else if n = 0x0C ∨ n = 0x0D ∨ n = 0x0E then decide ((wordImm f).toNat < 64)
  else if n = 0x0F then wordB f == 0
  else if n = 0x25 ∨ n = 0x26 then (wordA f).toNat % 8 == 0
  else if n = 0x27 then wordA f == 0
  else if n = 0x39 ∨ n = 0x3A then wordLow f == 0 && wordC f == 0
  else if n = 0x3B then wordB f == 0 && decide ((wordImm f).toNat < 8)
  else if n = 0x3C then wordA f == 0 && wordB f == 0 && decide (1 ≤ (wordImm f).toNat) && decide ((wordImm f).toNat ≤ 4)
  else if n = 0x3D then wordA f == 0 && wordB f == 0 && wordImm f == 0
  else if n = 0x3E then wordA f == 0 && wordImm f == 0
  else if n = 0x3F then wordA f == 0 && wordB f == 0
  else true

/-- The fence of a kind (R250). -/
def engFence (e : Fin 32) (f : BitVec 26) : Instr :=
  match (wordImm f).toNat with
  | 2 => .fenceStore e f
  | 3 => .fenceFull e f
  | 4 => .fenceDevice e f
  | _ => .fenceLoad e f

/-- The instruction of an opcode (R226). -/
def engByOpcode (e : Fin 32) (op : BitVec 6) (f : BitVec 26) : Instr :=
  match op.toNat with
  | 0x00 => .add e f
  | 0x01 => .sub e f
  | 0x02 => .and e f
  | 0x03 => .or e f
  | 0x04 => .xor e f
  | 0x05 => .sll e f
  | 0x06 => .srl e f
  | 0x07 => .sra e f
  | 0x08 => .addi e f
  | 0x09 => .andi e f
  | 0x0A => .ori e f
  | 0x0B => .xori e f
  | 0x0C => .slli e f
  | 0x0D => .srli e f
  | 0x0E => .srai e f
  | 0x0F => .lui e f
  | 0x10 => .mul e f
  | 0x11 => .mulhu e f
  | 0x12 => .divu e f
  | 0x13 => .remu e f
  | 0x14 => .slt e f
  | 0x15 => .sltu e f
  | 0x16 => .minu e f
  | 0x17 => .maxu e f
  | 0x18 => .ld8 e f .none
  | 0x19 => .ld16 e f .none
  | 0x1A => .ld32 e f .none
  | 0x1B => .ld64 e f .none
  | 0x1C => .ldu8 e f .none
  | 0x1D => .ldu16 e f .none
  | 0x1E => .ldu32 e f .none
  | 0x1F => .ldAcq e f .none
  | 0x20 => .st8 e f
  | 0x21 => .st16 e f
  | 0x22 => .st32 e f
  | 0x23 => .st64 e f
  | 0x24 => .stRel e f
  | 0x25 => .ldv e f .none
  | 0x26 => .stv e f
  | 0x27 => .zero e f
  | 0x28 => .amoAdd e f
  | 0x29 => .amoSwap e f
  | 0x2A => .amoCas e f
  | 0x2B => .amoAnd e f
  | 0x2C => .amoOr e f
  | 0x2D => .amoXor e f
  | 0x2E => .amoMinu e f
  | 0x2F => .amoMaxu e f
  | 0x30 => .beq e f
  | 0x31 => .bne e f
  | 0x32 => .blt e f
  | 0x33 => .bge e f
  | 0x34 => .bltu e f
  | 0x35 => .bgeu e f
  | 0x36 => .jal e f
  | 0x37 => .jalr e f
  | 0x38 => .crc32c e f
  | 0x39 => .popc e f
  | 0x3A => .clz e f
  | 0x3B => .csrr e f
  | 0x3C => engFence e f
  | 0x3D => .fenceSc e f
  | 0x3E => .done e f
  | _ => .brk e f

/-- The instruction that engine e reads in a word; an illegal word is refused (R225). -/
def engDecode (e : Fin 32) (w : BitVec 32) : Option Instr :=
  let op := w.extractLsb' 26 6
  let f := w.extractLsb' 0 26
  if engLegal op f then some (engByOpcode e op f) else none

/-- The instruction with no ECC error noted at its load: the words do not hold that operand. -/
def engClean (i : Instr) : Instr :=
  match i with
  | .ld8 e f _ => .ld8 e f .none
  | .ld16 e f _ => .ld16 e f .none
  | .ld32 e f _ => .ld32 e f .none
  | .ld64 e f _ => .ld64 e f .none
  | .ldu8 e f _ => .ldu8 e f .none
  | .ldu16 e f _ => .ldu16 e f .none
  | .ldu32 e f _ => .ldu32 e f .none
  | .ldAcq e f _ => .ldAcq e f .none
  | .ldv e f _ => .ldv e f .none
  | i => i

/-- The immediate of a fence names its kind (R250). -/
def engKindOk (i : Instr) : Bool :=
  match i with
  | .fenceLoad _ f => (wordImm f).toNat == 1
  | .fenceStore _ f => (wordImm f).toNat == 2
  | .fenceFull _ f => (wordImm f).toNat == 3
  | .fenceDevice _ f => (wordImm f).toNat == 4
  | _ => true

end Sys2Proof
end

