-- ==== Sys2Proof/Machine/Crypto.lean ====
section
/-! DEFINITION. The checks and ciphers the manual names by their standards, computed over lists of bytes (log 5):
CRC-16 (R89), CRC-32 (R403), CRC-32C (R227), AES-256 (FIPS 197), XTS with ciphertext stealing (IEEE 1619, R78), CMAC
(SP 800-38B, R81), the counter-mode KDF (SP 800-108, R72), AES key wrap (RFC 3394, R75) and GCM (SP 800-38D, R356). -/

namespace Sys2Proof.Machine

/-! ### Bytes -/

/-- Byte i of a vector, bits [8i+7:8i]. -/
def byteAt {w : Nat} (x : BitVec w) (i : Nat) : Byte := x.extractLsb' (8 * i) 8

/-- The first `n` bytes of a vector, byte 0 first. -/
def toBytes {w : Nat} (n : Nat) (x : BitVec w) : List Byte := (List.range n).map (byteAt x)

/-- The number whose least significant byte is the first of the list. -/
def leNat : List Byte → Nat
  | [] => 0
  | b :: bs => b.toNat + 256 * leNat bs

/-- The number whose most significant byte is the first of the list. -/
def beNat (bs : List Byte) : Nat := leNat bs.reverse

def ofBytes (w : Nat) (bs : List Byte) : BitVec w := BitVec.ofNat w (leNat bs)

/-- `n` bytes of a number, least significant first. -/
def leBytes (n x : Nat) : List Byte := (List.range n).map (fun i => BitVec.ofNat 8 (x / 256 ^ i))

/-- `n` bytes of a number, most significant first. -/
def beBytes (n x : Nat) : List Byte := (leBytes n x).reverse

def xorBytes (a b : List Byte) : List Byte := List.zipWith (· ^^^ ·) a b

/-- Pads or cuts a list to `n` bytes. -/
def fitBytes (n : Nat) (bs : List Byte) : List Byte := (bs ++ List.replicate n 0).take n

/-- Cuts a list into pieces of `n` bytes, the last one shorter if need be. -/
def chunks (n : Nat) : Nat → List Byte → List (List Byte)
  | 0, _ => []
  | fuel + 1, bs => if bs.isEmpty then [] else bs.take n :: chunks n fuel (bs.drop n)

/-! ### CRCs -/

/-- One byte into CRC-16 with polynomial 0x1021, most significant bit first. -/
def crc16Step (c : BitVec 16) (b : Byte) : BitVec 16 :=
  (List.range 8).foldl (fun c _ => if c.msb then (c <<< 1) ^^^ 0x1021#16 else c <<< 1)
    (c ^^^ (b.zeroExtend 16 <<< 8))

/-- The carry check (R89). -/
def crc16 (bs : List Byte) : BitVec 16 := bs.foldl crc16Step 0xFFFF#16

/-- One byte into a reflected 32-bit CRC. -/
def crc32Step (poly : BitVec 32) (c : BitVec 32) (b : Byte) : BitVec 32 :=
  (List.range 8).foldl (fun c _ => if c.getLsbD 0 then (c >>> 1) ^^^ poly else c >>> 1) (c ^^^ b.zeroExtend 32)

/-- CRC-32 as IEEE 802.3 defines it. -/
def crc32 (bs : List Byte) : BitVec 32 := (bs.foldl (crc32Step 0xEDB88320#32) 0xFFFFFFFF#32) ^^^ 0xFFFFFFFF#32

/-- Bytes into a running CRC-32C, without initial or final inversion. -/
def crc32cUpd (c : BitVec 32) (bs : List Byte) : BitVec 32 := bs.foldl (crc32Step 0x82F63B78#32) c

/-- The carry check of a host line (R89). -/
def carryCheck (h : HostLine) : BitVec 16 := crc16 (toBytes 64 h)

/-! ### AES-256 -/

/-- Multiplication by x in GF(2^8). -/
def xtime (a : Byte) : Byte := if a.msb then (a <<< 1) ^^^ 0x1B#8 else a <<< 1

def gfMul (a b : Byte) : Byte :=
  ((List.range 8).foldl (fun (acc : Byte × Byte) i =>
    (if b.getLsbD i then acc.1 ^^^ acc.2 else acc.1, xtime acc.2)) (0#8, a)).1

/-- The inverse in GF(2^8), x^254; 0 goes to 0. -/
def gfInv (a : Byte) : Byte :=
  let a2 := gfMul a a
  let a4 := gfMul a2 a2
  let a8 := gfMul a4 a4
  let a16 := gfMul a8 a8
  let a32 := gfMul a16 a16
  let a64 := gfMul a32 a32
  let a128 := gfMul a64 a64
  gfMul a2 (gfMul a4 (gfMul a8 (gfMul a16 (gfMul a32 (gfMul a64 a128)))))

/-- SubBytes as FIPS 197 defines it: the affine map of the inverse. -/
def aesSubField (a : Byte) : Byte :=
  let b := gfInv a
  b ^^^ b.rotateLeft 1 ^^^ b.rotateLeft 2 ^^^ b.rotateLeft 3 ^^^ b.rotateLeft 4 ^^^ 0x63#8

/-- The S-box as FIPS 197 tabulates it: row r holds the entries of 32r to 32r + 31, the first lowest. -/
def aesSubTable : List Nat := [
  0xC072A49CAFA2D4ADF04759FA7DC982CA76ABD7FE2B670130C56F6BF27B777C63,
  0x75B227EBE28012079A059618C323C7041531D871F1E5A534CCF73F362693FDB7,
  0xCF584C4A39BECB6A5BB1FC20ED00D153842FE329B3D63B52A05A6E1B1A2C8309,
  0xD2F3FF1021DAB6BCF5389D928F40A351A89F3C507F02F94585334D43FBAAEFD0,
  0xDB0B5EDE14B8EE4688902A22DC4F816073195D643D7EA7C41744975FEC130CCD,
  0x08AE7A65EAF4566CA94ED58D6D37C8E779E4959162ACD3C25C2406490A3A32E0,
  0x9E1DC186B95735610EF6034866B53E708A8BBD4B1F74DDE8C6B4A61C2E2578BA,
  0x16BB54B00F2D99416842E6BF0D89A18CDF2855CEE9871E9B948ED9691198F8E1]

/-- The inverse S-box, in the same form. -/
def aesInvTable : List Nat := [
  0xCBE9DEC444438E3487FF2F9B8239E37CFBD7F3819EA340BF38A53630D56A0952,
  0x25D18B6D49A25B76B224D92866A12E084EC3FA420B954CEE3D23C2A632947B54,
  0x849D8DA75746155EDAB9EDFD5048706C92B6655DCC5CA4D41698688664F6F872,
  0x6B8A130103BDAFC1020F3FCA8F1E2CD00645B3B80558E4F70AD3BC8C00ABD890,
  0x6EDF751CE837F9E28535ADE72274AC9673E6B4F0CECFF297EADC674F4111913A,
  0xF45ACD78FEC0DB9A2079D2C64B3E56FC1BBE18AA0E62B76F89C5291D711AF147,
  0xEF9CC9939F7AE52D0D4AB519A97F51605FEC8027591012B131C7078833A8DD1F,
  0x7D0C2155631469E126D677BA7E042B17619953833CBBEBC8B0F52AAE4D3BE0A0]

/-- Entry a of a table of bytes. -/
def tableByte (t : List Nat) (a : Byte) : Byte := BitVec.ofNat 8 (t.getD (a.toNat / 32) 0 / 256 ^ (a.toNat % 32))

def aesSub (a : Byte) : Byte := tableByte aesSubTable a

def aesInvSub (a : Byte) : Byte := tableByte aesInvTable a

/-- The next word of the AES-256 key schedule, from the words so far in reverse order. -/
def aesNextWord (i : Nat) (rcon : Byte) (prev old : List Byte) : List Byte :=
  let t := if i % 8 = 0 then
      match (prev.drop 1 ++ prev.take 1).map aesSub with
      | a :: r => (a ^^^ rcon) :: r
      | [] => []
    else if i % 8 = 4 then prev.map aesSub
    else prev
  xorBytes old t

/-- Round keys of AES-256: 60 words of 4 bytes. -/
def aesExpand (key : List Byte) : List (List Byte) :=
  ((List.range 52).foldl (fun (ws : List (List Byte)) j =>
    let i := j + 8
    let rcon := (List.range (i / 8 - 1)).foldl (fun r _ => xtime r) 1#8
    ws ++ [aesNextWord i rcon (ws.getD (i - 1) []) (ws.getD (i - 8) [])])
    (chunks 4 8 key))

def aesRoundKey (ws : List (List Byte)) (r : Nat) : List Byte := (ws.drop (4 * r)).take 4 |>.flatten

/-- The state's bytes after ShiftRows: byte r + 4c comes from column c + r. -/
def aesShift (s : List Byte) : List Byte :=
  (List.range 16).map (fun i => s.getD ((i % 4) + 4 * ((i / 4 + i % 4) % 4)) 0)

def aesUnshift (s : List Byte) : List Byte :=
  (List.range 16).map (fun i => s.getD ((i % 4) + 4 * ((i / 4 + 4 - i % 4) % 4)) 0)

/-- A byte times a coefficient below 16 of MixColumns. -/
def gfTimes (m : Nat) (a : Byte) : Byte :=
  (if m % 2 = 1 then a else 0) ^^^ (if m / 2 % 2 = 1 then xtime a else 0) ^^^ (if m / 4 % 2 = 1 then xtime (xtime a) else 0) ^^^
    (if m / 8 % 2 = 1 then xtime (xtime (xtime a)) else 0)

def aesMixWith (m : List Nat) (s : List Byte) : List Byte :=
  (List.range 16).map (fun i =>
    (List.range 4).foldl (fun acc j => acc ^^^ gfTimes (m.getD ((j + 4 - i % 4) % 4) 0) (s.getD (4 * (i / 4) + j) 0)) 0)

/-- AES-256 encryption of one 16-byte block. -/
def aesEnc (key blk : List Byte) : List Byte :=
  let ws := aesExpand key
  let s := (List.range 13).foldl (fun s r =>
      xorBytes (aesMixWith [2, 3, 1, 1] (aesShift (s.map aesSub))) (aesRoundKey ws (r + 1)))
    (xorBytes blk (aesRoundKey ws 0))
  xorBytes (aesShift (s.map aesSub)) (aesRoundKey ws 14)

/-- AES-256 decryption of one 16-byte block. -/
def aesDec (key blk : List Byte) : List Byte :=
  let ws := aesExpand key
  let s := (List.range 13).foldl (fun s r =>
      aesMixWith [14, 11, 13, 9] (xorBytes ((aesUnshift s).map aesInvSub) (aesRoundKey ws (13 - r))))
    (xorBytes blk (aesRoundKey ws 14))
  xorBytes ((aesUnshift s).map aesInvSub) (aesRoundKey ws 0)

/-! ### CMAC and the key derivation -/

/-- Doubling in GF(2^128), most significant bit first. -/
def cmacDouble (x : List Byte) : List Byte :=
  let n := beNat x
  beBytes 16 ((2 * n % 2 ^ 128) ^^^ (if n ≥ 2 ^ 127 then 0x87 else 0))

/-- AES-256-CMAC, 16 bytes. -/
def cmac (key msg : List Byte) : List Byte :=
  let l := aesEnc key (List.replicate 16 0)
  let k1 := cmacDouble l
  let blocks := chunks 16 (msg.length / 16 + 1) msg
  let last := blocks.getLastD []
  let fin := if last.length = 16 then xorBytes last k1
    else xorBytes (fitBytes 16 (last ++ [0x80])) (cmacDouble k1)
  aesEnc key (xorBytes fin (blocks.dropLast.foldl (fun c b => aesEnc key (xorBytes c b)) (List.replicate 16 0)))

/-- SP 800-108 in counter mode as R72 lays it out; `bits` is L. -/
def kdf (key label context : List Byte) (bits : Nat) : List Byte :=
  ((List.range ((bits + 127) / 128)).map (fun i =>
    cmac key (beBytes 4 (i + 1) ++ label ++ [0] ++ context ++ beBytes 4 bits))).flatten.take (bits / 8)

/-- The bytes of an ASCII string. -/
def asciiBytes (s : String) : List Byte := s.toList.map (fun c => BitVec.ofNat 8 c.toNat)

/-! ### XTS -/

/-- Multiplication of the tweak by the primitive element, least significant byte first. -/
def xtsDouble (t : List Byte) : List Byte :=
  let n := leNat t
  leBytes 16 ((2 * n % 2 ^ 128) ^^^ (if n ≥ 2 ^ 127 then 0x87 else 0))

def xtsBlk (f : List Byte → List Byte) (t b : List Byte) : List Byte := xorBytes (f (xorBytes b t)) t

/-- The whole blocks of a data unit, with the tweak that follows them. -/
def xtsRun (f : List Byte → List Byte) : List Byte → List (List Byte) → List (List Byte) × List Byte
  | t, [] => ([], t)
  | t, b :: bs =>
    let r := xtsRun f (xtsDouble t) bs
    (xtsBlk f t b :: r.1, r.2)

/-- XTS-AES-256 encryption of a data unit of at least 16 bytes, with stealing when the last block is short. -/
def xtsEnc (k1 k2 tweak msg : List Byte) : List Byte :=
  let t0 := aesEnc k2 tweak
  let n := msg.length
  if n % 16 = 0 then (xtsRun (aesEnc k1) t0 (chunks 16 (n / 16) msg)).1.flatten
  else
    let r := xtsRun (aesEnc k1) t0 (chunks 16 (n / 16) (msg.take (n / 16 * 16)))
    let c := r.1.getLastD []
    let tail := msg.drop (n / 16 * 16)
    r.1.dropLast.flatten ++ xtsBlk (aesEnc k1) r.2 (tail ++ c.drop tail.length) ++ c.take tail.length

/-- XTS-AES-256 decryption, the inverse of `xtsEnc`. -/
def xtsDec (k1 k2 tweak msg : List Byte) : List Byte :=
  let t0 := aesEnc k2 tweak
  let n := msg.length
  if n % 16 = 0 then (xtsRun (aesDec k1) t0 (chunks 16 (n / 16) msg)).1.flatten
  else
    let m := n / 16 - 1
    let r := xtsRun (aesDec k1) t0 (chunks 16 m (msg.take (m * 16)))
    let tl := xtsDouble r.2
    let c := (msg.drop (m * 16)).take 16
    let tail := msg.drop ((m + 1) * 16)
    let p := xtsBlk (aesDec k1) tl c
    r.1.flatten ++ xtsBlk (aesDec k1) r.2 (tail ++ p.drop tail.length) ++ p.take tail.length

/-! ### Key wrap -/

def kwIv : List Byte := List.replicate 8 0xA6

/-- RFC 3394 wrap of whole 8-byte blocks, at least two. -/
def kwWrapBytes (kek p : List Byte) : List Byte :=
  let n := p.length / 8
  let r := (List.range (6 * n)).foldl (fun (st : List Byte × List (List Byte)) j =>
      let i := j % n
      let b := aesEnc kek (st.1 ++ st.2.getD i [])
      (xorBytes (b.take 8) (beBytes 8 (j + 1)), st.2.set i (b.drop 8)))
    (kwIv, chunks 8 n p)
  r.1 ++ r.2.flatten

/-- RFC 3394 unwrap: none when the integrity value is wrong. -/
def kwUnwrapBytes (kek c : List Byte) : Option (List Byte) :=
  let n := c.length / 8 - 1
  let r := (List.range (6 * n)).foldl (fun (st : List Byte × List (List Byte)) jj =>
      let j := 6 * n - 1 - jj
      let i := j % n
      let b := aesDec kek (xorBytes st.1 (beBytes 8 (j + 1)) ++ st.2.getD i [])
      (b.take 8, st.2.set i (b.drop 8)))
    (c.take 8, chunks 8 n (c.drop 8))
  if r.1 = kwIv then some r.2.flatten else none

/-! ### GCM -/

/-- Multiplication in the GHASH field. -/
def ghashMul (x y : Nat) : Nat :=
  ((List.range 128).foldl (fun (st : Nat × Nat) i =>
    (if x.testBit (127 - i) then st.1 ^^^ st.2 else st.1,
     if st.2 % 2 = 1 then (st.2 / 2) ^^^ (0xE1 * 2 ^ 120) else st.2 / 2)) (0, y)).1

def pad16 (bs : List Byte) : List Byte := fitBytes ((bs.length + 15) / 16 * 16) bs

def ghash (h : Nat) (bs : List Byte) : Nat :=
  (chunks 16 (bs.length / 16 + 1) bs).foldl (fun y b => ghashMul (y ^^^ beNat b) h) 0

/-- AES-GCM in counter mode with a 12-byte IV: the other text. -/
def gcmCrypt (key iv msg : List Byte) : List Byte :=
  let bs := chunks 16 (msg.length / 16 + 1) msg
  ((List.range bs.length).map (fun i => xorBytes (bs.getD i []) (aesEnc key (iv ++ beBytes 4 (i + 2))))).flatten

/-- The 16-byte GCM tag over the additional data and the ciphertext. -/
def gcmTag (key iv aad ct : List Byte) : List Byte :=
  let h := beNat (aesEnc key (List.replicate 16 0))
  let s := ghash h (pad16 aad ++ pad16 ct ++ beBytes 8 (8 * aad.length) ++ beBytes 8 (8 * ct.length))
  xorBytes (beBytes 16 s) (aesEnc key (iv ++ beBytes 4 1))

/-! ### SHA-384 (FIPS 180-4) -/

def shaK0 : List (BitVec 64) := [
  0x428A2F98D728AE22, 0x7137449123EF65CD, 0xB5C0FBCFEC4D3B2F, 0xE9B5DBA58189DBBC, 0x3956C25BF348B538,
  0x59F111F1B605D019, 0x923F82A4AF194F9B, 0xAB1C5ED5DA6D8118, 0xD807AA98A3030242, 0x12835B0145706FBE,
  0x243185BE4EE4B28C, 0x550C7DC3D5FFB4E2, 0x72BE5D74F27B896F, 0x80DEB1FE3B1696B1, 0x9BDC06A725C71235,
  0xC19BF174CF692694, 0xE49B69C19EF14AD2, 0xEFBE4786384F25E3, 0x0FC19DC68B8CD5B5, 0x240CA1CC77AC9C65]

def shaK1 : List (BitVec 64) := [
  0x2DE92C6F592B0275, 0x4A7484AA6EA6E483, 0x5CB0A9DCBD41FBD4, 0x76F988DA831153B5, 0x983E5152EE66DFAB,
  0xA831C66D2DB43210, 0xB00327C898FB213F, 0xBF597FC7BEEF0EE4, 0xC6E00BF33DA88FC2, 0xD5A79147930AA725,
  0x06CA6351E003826F, 0x142929670A0E6E70, 0x27B70A8546D22FFC, 0x2E1B21385C26C926, 0x4D2C6DFC5AC42AED,
  0x53380D139D95B3DF, 0x650A73548BAF63DE, 0x766A0ABB3C77B2A8, 0x81C2C92E47EDAEE6, 0x92722C851482353B]

def shaK2 : List (BitVec 64) := [
  0xA2BFE8A14CF10364, 0xA81A664BBC423001, 0xC24B8B70D0F89791, 0xC76C51A30654BE30, 0xD192E819D6EF5218,
  0xD69906245565A910, 0xF40E35855771202A, 0x106AA07032BBD1B8, 0x19A4C116B8D2D0C8, 0x1E376C085141AB53,
  0x2748774CDF8EEB99, 0x34B0BCB5E19B48A8, 0x391C0CB3C5C95A63, 0x4ED8AA4AE3418ACB, 0x5B9CCA4F7763E373,
  0x682E6FF3D6B2B8A3, 0x748F82EE5DEFB2FC, 0x78A5636F43172F60, 0x84C87814A1F0AB72, 0x8CC702081A6439EC]

def shaK3 : List (BitVec 64) := [
  0x90BEFFFA23631E28, 0xA4506CEBDE82BDE9, 0xBEF9A3F7B2C67915, 0xC67178F2E372532B, 0xCA273ECEEA26619C,
  0xD186B8C721C0C207, 0xEADA7DD6CDE0EB1E, 0xF57D4F7FEE6ED178, 0x06F067AA72176FBA, 0x0A637DC5A2C898A6,
  0x113F9804BEF90DAE, 0x1B710B35131C471B, 0x28DB77F523047D84, 0x32CAAB7B40C72493, 0x3C9EBE0A15C9BEBC,
  0x431D67C49C100D4C, 0x4CC5D4BECB3E42B6, 0x597F299CFC657E2A, 0x5FCB6FAB3AD6FAEC, 0x6C44198C4A475817]

/-- The round constants. -/
def shaK : List (BitVec 64) := shaK0 ++ shaK1 ++ shaK2 ++ shaK3

/-- The initial hash value of SHA-384. -/
def shaH : List (BitVec 64) := [
  0xCBBB9D5DC1059ED8, 0x629A292A367CD507, 0x9159015A3070DD17, 0x152FECD8F70E5939,
  0x67332667FFC00B31, 0x8EB44A8768581511, 0xDB0C2E0D64F98FA7, 0x47B5481DBEFA4FA4]

def rotr64 (x : BitVec 64) (n : Nat) : BitVec 64 := x.rotateRight n

/-- The message schedule: the newest word first; 64 words are added to the 16 of the block. -/
def shaSched : Nat → List (BitVec 64) → List (BitVec 64)
  | 0, w => w
  | n + 1, w =>
    let a := w.getD 1 0
    let b := w.getD 14 0
    let s1 := rotr64 a 19 ^^^ rotr64 a 61 ^^^ (a >>> 6)
    let s0 := rotr64 b 1 ^^^ rotr64 b 8 ^^^ (b >>> 7)
    shaSched n ((s1 + w.getD 6 0 + s0 + w.getD 15 0) :: w)

/-- One round on the eight working variables. -/
def shaRound (v : List (BitVec 64)) (kw : BitVec 64 × BitVec 64) : List (BitVec 64) :=
  let e := v.getD 4 0
  let a := v.getD 0 0
  let t1 := v.getD 7 0 + (rotr64 e 14 ^^^ rotr64 e 18 ^^^ rotr64 e 41) +
    ((e &&& v.getD 5 0) ^^^ (~~~ e &&& v.getD 6 0)) + kw.1 + kw.2
  let t2 := (rotr64 a 28 ^^^ rotr64 a 34 ^^^ rotr64 a 39) +
    ((a &&& v.getD 1 0) ^^^ (a &&& v.getD 2 0) ^^^ (v.getD 1 0 &&& v.getD 2 0))
  [t1 + t2, a, v.getD 1 0, v.getD 2 0, v.getD 3 0 + t1, e, v.getD 5 0, v.getD 6 0]

/-- The compression of one block of 128 bytes. -/
def shaBlock (h : List (BitVec 64)) (blk : List Byte) : List (BitVec 64) :=
  let w := (List.range 16).map (fun i => BitVec.ofNat 64 (beNat ((blk.drop (8 * i)).take 8)))
  let sched := (shaSched 64 w.reverse).reverse
  List.zipWith (· + ·) h ((List.zip shaK sched).foldl shaRound h)

/-- SHA-384 of a message. -/
def sha384 (msg : List Byte) : List Byte :=
  let n := msg.length
  let pad := (128 - (n + 17) % 128) % 128
  let full := msg ++ [0x80] ++ List.replicate pad 0 ++ beBytes 16 (8 * n)
  let h := (chunks 128 (full.length / 128) full).foldl shaBlock shaH
  (h.flatMap (fun x => beBytes 8 x.toNat)).take 48

end Sys2Proof.Machine
end

