-- ==== Sys2Proof/Config.lean ====
section
/-! DEFINITION. What one part has in its fuses, and the values the manual leaves open. Every constant here has no
body: nothing is provable about its value (log 6, log 7). -/

namespace Sys2Proof

/-- The device serial number in fuses (R43, R72, R432). -/
opaque Config.serial : BitVec 64
/-- The device root secret in fuses (R72). -/
opaque Config.rootSecret : BitVec 256
/-- The vendor secret in fuses (R350). -/
opaque Config.vendorSecret : BitVec 256
/-- A free value: number `n` is the n-th value that the manual leaves open (log 7). -/
opaque Config.freeValue : Nat → BitVec 512
/-- BCH parity over the stored bytes, for the integrity-on (true) and integrity-off layouts (R79): the manual does not
give the generator polynomial (log 6). -/
opaque Config.bchParity : Bool → BitVec 2216 → BitVec 288
/-- Identity data of a media die (R201), by channel and die. -/
opaque Config.dieId : Nat → Nat → BitVec 256
/-- THRk of a die's level table entry before any recalibration (R167), by die, entry and k; entries from 256 are the 1-bit
row: the manual gives no values (log 7). -/
opaque Config.levelThr : Nat → Nat → Nat → BitVec 14
/-- The sample of a cell at rest at a level of 4-bit mode (true) or a state of 1-bit mode (false), on the scale of SOFT-READ: the
manual gives no values (log 7). -/
opaque Config.cellSample : Bool → Nat → BitVec 14
/-- BCH parity of an Eclipse band line over its 256 B of data and spare bytes 0 to 24, t = 15 (R155): the manual does not give the
generator polynomial (log 6). -/
opaque Config.bchBand : BitVec 2248 → BitVec 184
/-- What 256 B of DDR5 hold where nothing is kept, by DDR5 location divided by 256: the manual does not say (log 7). -/
opaque Config.staleDdr : Nat → LineData

end Sys2Proof
end

