-- ==== Sys2Proof/Machine/RegNames.lean ====
section
/-! DEFINITION. The offsets of the N16's registers in the management space (R422, R68, R104, R126, R161, R191, R213,
R239, R281, R311, R321, R332, R347, R361, R382, R402, R421, R432) and the places of their fields. A register family's
index letters are its arguments, in the order of the name. -/

namespace Sys2Proof.Machine

/-- A field of a register: the register's offset, the field's lowest bit and its width. -/
structure Fld where
  off : Nat
  lo : Nat
  len : Nat
deriving DecidableEq, Repr

namespace R

/-- HPn_ID (R68, 8). -/
def HP_ID (n : Nat) : Nat := 0x080000 + 0x10000 * n
/-- HPn_LINK_CFG (R68, 8). -/
def HP_LINK_CFG (n : Nat) : Nat := 0x080004 + 0x10000 * n
/-- HPn_LINK_STAT (R68, 8). -/
def HP_LINK_STAT (n : Nat) : Nat := 0x080008 + 0x10000 * n
/-- HPn_STATUS (R68, 8). -/
def HP_STATUS (n : Nat) : Nat := 0x08000C + 0x10000 * n
/-- HPn_CTRL (R68, 8). -/
def HP_CTRL (n : Nat) : Nat := 0x080010 + 0x10000 * n
/-- HPn_IDE_STAT (R68, 8). -/
def HP_IDE_STAT (n : Nat) : Nat := 0x080014 + 0x10000 * n
/-- HPn_LSA_STAT (R68, 8). -/
def HP_LSA_STAT (n : Nat) : Nat := 0x080018 + 0x10000 * n
/-- HPn_RST_STAT (R68, 8). -/
def HP_RST_STAT (n : Nat) : Nat := 0x08001C + 0x10000 * n
/-- HPn_DECk_EXT (R68, 8 × 16). -/
def HP_DEC_EXT (n k : Nat) : Nat := 0x080020 + 0x10000 * n + 0x8 * k
/-- HPn_DECk_HITS (R68, 8 × 16). -/
def HP_DEC_HITS (n k : Nat) : Nat := 0x080024 + 0x10000 * n + 0x8 * k
/-- HPn_DCj_CFG (R68, 8 × 8). -/
def HP_DC_CFG (n k : Nat) : Nat := 0x0800A0 + 0x10000 * n + 0x8 * k
/-- HPn_DCj_LEN (R68, 8 × 8). -/
def HP_DC_LEN (n k : Nat) : Nat := 0x0800A4 + 0x10000 * n + 0x8 * k
/-- HPn_ERR_ADDR_LO (R68, 8). -/
def HP_ERR_ADDR_LO (n : Nat) : Nat := 0x0800E0 + 0x10000 * n
/-- HPn_ERR_ADDR_HI (R68, 8). -/
def HP_ERR_ADDR_HI (n : Nat) : Nat := 0x0800E4 + 0x10000 * n
/-- HPn_ERR_INFO (R68, 8). -/
def HP_ERR_INFO (n : Nat) : Nat := 0x0800E8 + 0x10000 * n
/-- HPn_DC_STAT (R68, 8). -/
def HP_DC_STAT (n : Nat) : Nat := 0x0800EC + 0x10000 * n
/-- HPn_POISON_STAT (R68, 8). -/
def HP_POISON_STAT (n : Nat) : Nat := 0x0800F0 + 0x10000 * n
/-- HPn_EVT_STAT (R68, 8). -/
def HP_EVT_STAT (n : Nat) : Nat := 0x0800F4 + 0x10000 * n
/-- HPn_GPF_STAT (R68, 8). -/
def HP_GPF_STAT (n : Nat) : Nat := 0x0800F8 + 0x10000 * n
/-- HPn_MBOX_STAT (R68, 8). -/
def HP_MBOX_STAT (n : Nat) : Nat := 0x0800FC + 0x10000 * n
/-- HPn_CNTi_LO (R68, 8 × 16). -/
def HP_CNT_LO (n k : Nat) : Nat := 0x080100 + 0x10000 * n + 0x8 * k
/-- HPn_CNTi_HI (R68, 8 × 16). -/
def HP_CNT_HI (n k : Nat) : Nat := 0x080104 + 0x10000 * n + 0x8 * k
/-- KEY_CFG (R104). -/
def KEY_CFG : Nat := 0x100000
/-- KEY_STATUS (R104). -/
def KEY_STATUS : Nat := 0x100004
/-- KEY_LOAD_CTL (R104). -/
def KEY_LOAD_CTL : Nat := 0x100008
/-- KEY_LOAD_STAT (R104). -/
def KEY_LOAD_STAT : Nat := 0x10000C
/-- KEY_LOAD_ADDR_LO (R104). -/
def KEY_LOAD_ADDR_LO : Nat := 0x100010
/-- KEY_LOAD_ADDR_HI (R104). -/
def KEY_LOAD_ADDR_HI : Nat := 0x100014
/-- KEY_KEK_CTL (R104). -/
def KEY_KEK_CTL : Nat := 0x100018
/-- KEY_KEK_DATAi (R104, 8). -/
def KEY_KEK_DATA (n : Nat) : Nat := 0x10001C + 0x4 * n
/-- KEY_SLOT_QUERY (R104). -/
def KEY_SLOT_QUERY : Nat := 0x10003C
/-- KEY_SLOTS_LOADED (R104). -/
def KEY_SLOTS_LOADED : Nat := 0x100040
/-- KEY_CTT_CFG (R104). -/
def KEY_CTT_CFG : Nat := 0x100044
/-- KEY_CTT_STAT (R104). -/
def KEY_CTT_STAT : Nat := 0x100048
/-- KEY_HALT_CAUSE (R104). -/
def KEY_HALT_CAUSE : Nat := 0x10004C
/-- KEY_HALT_ADDR_LO (R104). -/
def KEY_HALT_ADDR_LO : Nat := 0x100050
/-- KEY_HALT_ADDR_HI (R104). -/
def KEY_HALT_ADDR_HI : Nat := 0x100054
/-- KEY_CCMn (R104, 7). -/
def KEY_CCM (n : Nat) : Nat := 0x100058 + 0x4 * n
/-- KEY_CCM_LAST (R104). -/
def KEY_CCM_LAST : Nat := 0x100074
/-- KEY_MACV_LO (R104). -/
def KEY_MACV_LO : Nat := 0x100078
/-- KEY_MACV_HI (R104). -/
def KEY_MACV_HI : Nat := 0x10007C
/-- KEY_DMR_MADE_LO (R104). -/
def KEY_DMR_MADE_LO : Nat := 0x100080
/-- KEY_DMR_MADE_HI (R104). -/
def KEY_DMR_MADE_HI : Nat := 0x100084
/-- KEY_DMR_DONE_LO (R104). -/
def KEY_DMR_DONE_LO : Nat := 0x100088
/-- KEY_DMR_DONE_HI (R104). -/
def KEY_DMR_DONE_HI : Nat := 0x10008C
/-- KEY_LANE_BUSY_LO (R104). -/
def KEY_LANE_BUSY_LO : Nat := 0x100090
/-- KEY_LANE_BUSY_HI (R104). -/
def KEY_LANE_BUSY_HI : Nat := 0x100094
/-- KEY_ZERO_CNT (R104). -/
def KEY_ZERO_CNT : Nat := 0x100098
/-- KEY_KAT_STAT (R104). -/
def KEY_KAT_STAT : Nat := 0x10009C
/-- TRM_STATUS (R104). -/
def TRM_STATUS : Nat := 0x100100
/-- TRM_CFG (R104). -/
def TRM_CFG : Nat := 0x100104
/-- TRM_LINES_LO (R104). -/
def TRM_LINES_LO : Nat := 0x100108
/-- TRM_LINES_HI (R104). -/
def TRM_LINES_HI : Nat := 0x10010C
/-- TRMk_CTL (R104, 4). -/
def TRM_CTL (n : Nat) : Nat := 0x100110 + 0x20 * n
/-- TRMk_KEY (R104, 4). -/
def TRM_KEY (n : Nat) : Nat := 0x100114 + 0x20 * n
/-- TRMk_BOUND_LO (R104, 4). -/
def TRM_BOUND_LO (n : Nat) : Nat := 0x100118 + 0x20 * n
/-- TRMk_BOUND_HI (R104, 4). -/
def TRM_BOUND_HI (n : Nat) : Nat := 0x10011C + 0x20 * n
/-- TRMk_STAT (R104, 4). -/
def TRM_STAT (n : Nat) : Nat := 0x100120 + 0x20 * n
/-- QOS_CFG (R126). -/
def QOS_CFG : Nat := 0x140000
/-- QOS_LIMIT (R126). -/
def QOS_LIMIT : Nat := 0x140004
/-- QOS_POWER (R126). -/
def QOS_POWER : Nat := 0x140008
/-- QOS_SUSP_CFG (R126). -/
def QOS_SUSP_CFG : Nat := 0x14000C
/-- QOS_BOUND_POISON_LO (R126). -/
def QOS_BOUND_POISON_LO : Nat := 0x140010
/-- QOS_BOUND_POISON_HI (R126). -/
def QOS_BOUND_POISON_HI : Nat := 0x140014
/-- QOS_RECON_OK_LO (R126). -/
def QOS_RECON_OK_LO : Nat := 0x140018
/-- QOS_RECON_OK_HI (R126). -/
def QOS_RECON_OK_HI : Nat := 0x14001C
/-- QOS_SPEC_LO (R126). -/
def QOS_SPEC_LO : Nat := 0x140020
/-- QOS_SPEC_HI (R126). -/
def QOS_SPEC_HI : Nat := 0x140024
/-- QOS_SUSPEND_LO (R126). -/
def QOS_SUSPEND_LO : Nat := 0x140028
/-- QOS_SUSPEND_HI (R126). -/
def QOS_SUSPEND_HI : Nat := 0x14002C
/-- QOS_PWR_HELD_LO (R126). -/
def QOS_PWR_HELD_LO : Nat := 0x140030
/-- QOS_PWR_HELD_HI (R126). -/
def QOS_PWR_HELD_HI : Nat := 0x140034
/-- QOS_Cc_RATE (R126, 8). -/
def QOS_C_RATE (n : Nat) : Nat := 0x140040 + 0x20 * n
/-- QOS_Cc_MRATE (R126, 8). -/
def QOS_C_MRATE (n : Nat) : Nat := 0x140044 + 0x20 * n
/-- QOS_Cc_CFG (R126, 8). -/
def QOS_C_CFG (n : Nat) : Nat := 0x140048 + 0x20 * n
/-- QOS_Cc_LEVEL (R126, 8). -/
def QOS_C_LEVEL (n : Nat) : Nat := 0x14004C + 0x20 * n
/-- QOS_Cc_HELD (R126, 8). -/
def QOS_C_HELD (n : Nat) : Nat := 0x140050 + 0x20 * n
/-- QOS_Cc_WAITMAX (R126, 8). -/
def QOS_C_WAITMAX (n : Nat) : Nat := 0x140054 + 0x20 * n
/-- MET_CFG (R126). -/
def MET_CFG : Nat := 0x140200
/-- MET_CTL (R126). -/
def MET_CTL : Nat := 0x140204
/-- MET_STAT (R126). -/
def MET_STAT : Nat := 0x140208
/-- MET_EPOCH_LO (R126). -/
def MET_EPOCH_LO : Nat := 0x14020C
/-- MET_EPOCH_HI (R126). -/
def MET_EPOCH_HI : Nat := 0x140210
/-- MET_TICK_LO (R126). -/
def MET_TICK_LO : Nat := 0x140214
/-- MET_TICK_HI (R126). -/
def MET_TICK_HI : Nat := 0x140218
/-- MET_SWEEP_US (R126). -/
def MET_SWEEP_US : Nat := 0x14021C
/-- MET_OVERRUN_CNT (R126). -/
def MET_OVERRUN_CNT : Nat := 0x140220
/-- PMC_CTL (R126). -/
def PMC_CTL : Nat := 0x140400
/-- PMC_SEL (R126). -/
def PMC_SEL : Nat := 0x140404
/-- PMC_EVT (R126). -/
def PMC_EVT : Nat := 0x140408
/-- PMC_FILT (R126). -/
def PMC_FILT : Nat := 0x14040C
/-- PMC_ADDR_BASE_LO (R126). -/
def PMC_ADDR_BASE_LO : Nat := 0x140410
/-- PMC_ADDR_BASE_HI (R126). -/
def PMC_ADDR_BASE_HI : Nat := 0x140414
/-- PMC_ADDR_LIM_LO (R126). -/
def PMC_ADDR_LIM_LO : Nat := 0x140418
/-- PMC_ADDR_LIM_HI (R126). -/
def PMC_ADDR_LIM_HI : Nat := 0x14041C
/-- PMC_ENj (R126, 16). -/
def PMC_EN (n : Nat) : Nat := 0x140440 + 0x4 * n
/-- PMC_OVFj (R126, 16). -/
def PMC_OVF (n : Nat) : Nat := 0x140480 + 0x4 * n
/-- PMC_USERj (R126, 16). -/
def PMC_USER (n : Nat) : Nat := 0x1404C0 + 0x4 * n
/-- PMC_HI (R126). -/
def PMC_HI : Nat := 0x140500
/-- PMC_LOi (R126, 512). -/
def PMC_LO (n : Nat) : Nat := 0x140800 + 0x4 * n
/-- MAP_CFG (R161). -/
def MAP_CFG : Nat := 0x180000
/-- MAP_CFG_NEXT (R161). -/
def MAP_CFG_NEXT : Nat := 0x180004
/-- MAP_STAT (R161). -/
def MAP_STAT : Nat := 0x180008
/-- MAP_FMT_CTL (R161). -/
def MAP_FMT_CTL : Nat := 0x18000C
/-- MAP_DELTA_CFG (R161). -/
def MAP_DELTA_CFG : Nat := 0x180010
/-- MAP_DELTA_USED (R161). -/
def MAP_DELTA_USED : Nat := 0x180014
/-- MAP_CKPT_STAT (R161). -/
def MAP_CKPT_STAT : Nat := 0x180018
/-- MAP_CKPT_SEQ (R161). -/
def MAP_CKPT_SEQ : Nat := 0x18001C
/-- MAP_CKPT_CNT (R161). -/
def MAP_CKPT_CNT : Nat := 0x180020
/-- MAP_USER_TILES (R161). -/
def MAP_USER_TILES : Nat := 0x180024
/-- MAP_MAPPED_TILES (R161). -/
def MAP_MAPPED_TILES : Nat := 0x180028
/-- MAP_ECL_SIZE_LO (R161). -/
def MAP_ECL_SIZE_LO : Nat := 0x18002C
/-- MAP_ECL_SIZE_HI (R161). -/
def MAP_ECL_SIZE_HI : Nat := 0x180030
/-- MAP_ECL_STAT (R161). -/
def MAP_ECL_STAT : Nat := 0x180034
/-- MAP_ECL_US (R161). -/
def MAP_ECL_US : Nat := 0x180038
/-- MAP_REPLAY_US (R161). -/
def MAP_REPLAY_US : Nat := 0x18003C
/-- MAP_VAULT_CFG (R161). -/
def MAP_VAULT_CFG : Nat := 0x180040
/-- MAP_VAULT_STAT (R161). -/
def MAP_VAULT_STAT : Nat := 0x180044
/-- MAP_VAULT_WAIT_LO (R161). -/
def MAP_VAULT_WAIT_LO : Nat := 0x180048
/-- MAP_VAULT_WAIT_HI (R161). -/
def MAP_VAULT_WAIT_HI : Nat := 0x18004C
/-- HALO_CFG (R161). -/
def HALO_CFG : Nat := 0x180100
/-- HALO_STAT (R161). -/
def HALO_STAT : Nat := 0x180104
/-- HALO_VALID_LO (R161). -/
def HALO_VALID_LO : Nat := 0x180108
/-- HALO_VALID_HI (R161). -/
def HALO_VALID_HI : Nat := 0x18010C
/-- HALO_DRAIN_LO (R161). -/
def HALO_DRAIN_LO : Nat := 0x180110
/-- HALO_DRAIN_HI (R161). -/
def HALO_DRAIN_HI : Nat := 0x180114
/-- HALO_INPLACE_LO (R161). -/
def HALO_INPLACE_LO : Nat := 0x180118
/-- HALO_INPLACE_HI (R161). -/
def HALO_INPLACE_HI : Nat := 0x18011C
/-- HALO_BFULL_LO (R161). -/
def HALO_BFULL_LO : Nat := 0x180120
/-- HALO_BFULL_HI (R161). -/
def HALO_BFULL_HI : Nat := 0x180124
/-- HALO_PROG_FAIL (R161). -/
def HALO_PROG_FAIL : Nat := 0x180128
/-- HALO_SEQ (R161). -/
def HALO_SEQ : Nat := 0x18012C
/-- HALO_THR (R161). -/
def HALO_THR : Nat := 0x180130
/-- FOLD_CFG (R161). -/
def FOLD_CFG : Nat := 0x180200
/-- FOLD_GC_CFG (R161). -/
def FOLD_GC_CFG : Nat := 0x180204
/-- FOLD_STAT (R161). -/
def FOLD_STAT : Nat := 0x180208
/-- FOLD_DONE_LO (R161). -/
def FOLD_DONE_LO : Nat := 0x18020C
/-- FOLD_DONE_HI (R161). -/
def FOLD_DONE_HI : Nat := 0x180210
/-- FOLD_GC_LO (R161). -/
def FOLD_GC_LO : Nat := 0x180214
/-- FOLD_GC_HI (R161). -/
def FOLD_GC_HI : Nat := 0x180218
/-- FOLD_RESET_LO (R161). -/
def FOLD_RESET_LO : Nat := 0x18021C
/-- FOLD_RESET_HI (R161). -/
def FOLD_RESET_HI : Nat := 0x180220
/-- FOLD_RETRY (R161). -/
def FOLD_RETRY : Nat := 0x180224
/-- FOLD_ABORT (R161). -/
def FOLD_ABORT : Nat := 0x180228
/-- FOLD_FREE (R161). -/
def FOLD_FREE : Nat := 0x18022C
/-- FOLD_RECL (R161). -/
def FOLD_RECL : Nat := 0x180230
/-- FOLD_VOID (R161). -/
def FOLD_VOID : Nat := 0x180234
/-- FOLD_URGENT (R161). -/
def FOLD_URGENT : Nat := 0x180238
/-- FOLD_CHn_FREE (R161, 32). -/
def FOLD_CH_FREE (n : Nat) : Nat := 0x180300 + 0x8 * n
/-- FOLD_CHn_RECL (R161, 32). -/
def FOLD_CH_RECL (n : Nat) : Nat := 0x180304 + 0x8 * n
/-- MEDn_WEAR_CFG (R191, 32). -/
def MED_WEAR_CFG (n : Nat) : Nat := 0x1C0100 + 0x1000 * n
/-- MEDn_SCRUB_CFG (R191, 32). -/
def MED_SCRUB_CFG (n : Nat) : Nat := 0x1C0104 + 0x1000 * n
/-- MEDn_SCRUB_STAT (R191, 32). -/
def MED_SCRUB_STAT (n : Nat) : Nat := 0x1C0108 + 0x1000 * n
/-- MEDn_RETIRED_POS (R191, 32). -/
def MED_RETIRED_POS (n : Nat) : Nat := 0x1C010C + 0x1000 * n
/-- MEDn_PLANE_RET_LO (R191, 32). -/
def MED_PLANE_RET_LO (n : Nat) : Nat := 0x1C0110 + 0x1000 * n
/-- MEDn_PLANE_RET_HI (R191, 32). -/
def MED_PLANE_RET_HI (n : Nat) : Nat := 0x1C0114 + 0x1000 * n
/-- MEDn_WGEN (R191, 32). -/
def MED_WGEN (n : Nat) : Nat := 0x1C0118 + 0x1000 * n
/-- MED_HEALTH (R191). -/
def MED_HEALTH : Nat := 0x1C011C
/-- MED_DRIFT_CLK (R191). -/
def MED_DRIFT_CLK : Nat := 0x1C0120
/-- MED_UNPOWERED (R191). -/
def MED_UNPOWERED : Nat := 0x1C0124
/-- MEDn_CTL (R213, 32). -/
def MED_CTL (n : Nat) : Nat := 0x1C0000 + 0x1000 * n
/-- MEDn_STAT (R213, 32). -/
def MED_STAT (n : Nat) : Nat := 0x1C0004 + 0x1000 * n
/-- MEDn_TRAIN_CFG (R213, 32). -/
def MED_TRAIN_CFG (n : Nat) : Nat := 0x1C0008 + 0x1000 * n
/-- MEDn_TRAIN_STAT (R213, 32). -/
def MED_TRAIN_STAT (n : Nat) : Nat := 0x1C000C + 0x1000 * n
/-- MEDn_DIE_PRESENT (R213, 32). -/
def MED_DIE_PRESENT (n : Nat) : Nat := 0x1C0010 + 0x1000 * n
/-- MEDn_DIE_FAILED (R213, 32). -/
def MED_DIE_FAILED (n : Nat) : Nat := 0x1C0014 + 0x1000 * n
/-- MEDn_DIE_SEL (R213, 32). -/
def MED_DIE_SEL (n : Nat) : Nat := 0x1C0018 + 0x1000 * n
/-- MEDn_DIE_INFO (R213, 32). -/
def MED_DIE_INFO (n : Nat) : Nat := 0x1C001C + 0x1000 * n
/-- MEDn_DIE_TEMP (R213, 32). -/
def MED_DIE_TEMP (n : Nat) : Nat := 0x1C0020 + 0x1000 * n
/-- MEDn_HOT (R213, 32). -/
def MED_HOT (n : Nat) : Nat := 0x1C0024 + 0x1000 * n
/-- MEDn_ERR (R213, 32). -/
def MED_ERR (n : Nat) : Nat := 0x1C0028 + 0x1000 * n
/-- MEDn_TIMEOUT (R213, 32). -/
def MED_TIMEOUT (n : Nat) : Nat := 0x1C002C + 0x1000 * n
/-- MEDn_BUSY_LO (R213, 32). -/
def MED_BUSY_LO (n : Nat) : Nat := 0x1C0030 + 0x1000 * n
/-- MEDn_BUSY_HI (R213, 32). -/
def MED_BUSY_HI (n : Nat) : Nat := 0x1C0034 + 0x1000 * n
/-- ENGe_CTX (R239, 32). -/
def ENGE_CTX (n : Nat) : Nat := 0x200000 + 0x20 * n
/-- ENGe_DEV (R239, 32). -/
def ENGE_DEV (n : Nat) : Nat := 0x200004 + 0x20 * n
/-- ENGe_QBASE (R239, 32). -/
def ENGE_QBASE (n : Nat) : Nat := 0x200008 + 0x20 * n
/-- ENGe_QCFG (R239, 32). -/
def ENGE_QCFG (n : Nat) : Nat := 0x20000C + 0x20 * n
/-- ENGe_STAT (R239, 32). -/
def ENGE_STAT (n : Nat) : Nat := 0x200010 + 0x20 * n
/-- ENGe_CONS (R239, 32). -/
def ENGE_CONS (n : Nat) : Nat := 0x200014 + 0x20 * n
/-- ENGe_FAULT_ADDR_LO (R239, 32). -/
def ENGE_FAULT_ADDR_LO (n : Nat) : Nat := 0x200018 + 0x20 * n
/-- ENGe_FAULT_ADDR_HI (R239, 32). -/
def ENGE_FAULT_ADDR_HI (n : Nat) : Nat := 0x20001C + 0x20 * n
/-- ENG_CFG (R239). -/
def ENG_CFG : Nat := 0x200400
/-- ENG_STAT (R239). -/
def ENG_STAT : Nat := 0x200404
/-- ENG_LOAD_CTL (R239). -/
def ENG_LOAD_CTL : Nat := 0x200408
/-- ENG_LOAD_STAT (R239). -/
def ENG_LOAD_STAT : Nat := 0x20040C
/-- ENG_LOAD_ADDR_LO (R239). -/
def ENG_LOAD_ADDR_LO : Nat := 0x200410
/-- ENG_LOAD_ADDR_HI (R239). -/
def ENG_LOAD_ADDR_HI : Nat := 0x200414
/-- ENG_LOAD_DIGESTi (R239, 12). -/
def ENG_LOAD_DIGEST (n : Nat) : Nat := 0x200418 + 0x4 * n
/-- ENG_ZERO_CFG (R239). -/
def ENG_ZERO_CFG : Nat := 0x200448
/-- ENG_ZERO_STAT (R239). -/
def ENG_ZERO_STAT : Nat := 0x20044C
/-- ENG_ZERO_TILES_LO (R239). -/
def ENG_ZERO_TILES_LO : Nat := 0x200450
/-- ENG_ZERO_TILES_HI (R239). -/
def ENG_ZERO_TILES_HI : Nat := 0x200454
/-- ENG_DESC_LO (R239). -/
def ENG_DESC_LO : Nat := 0x200458
/-- ENG_DESC_HI (R239). -/
def ENG_DESC_HI : Nat := 0x20045C
/-- ENG_CLk_CTL (R239, 4). -/
def ENG_CL_CTL (n : Nat) : Nat := 0x200460 + 0x8 * n
/-- ENG_CLk_STAT (R239, 4). -/
def ENG_CL_STAT (n : Nat) : Nat := 0x200464 + 0x8 * n
/-- ENG_BARRIER_TMO (R267). -/
def ENG_BARRIER_TMO : Nat := 0x201000
/-- ENG_STORE_LOST (R267). -/
def ENG_STORE_LOST : Nat := 0x201004
/-- ENG_CC_MAINT_CTL (R267). -/
def ENG_CC_MAINT_CTL : Nat := 0x201008
/-- ENG_CC_MAINT_STAT (R267). -/
def ENG_CC_MAINT_STAT : Nat := 0x20100C
/-- ENG_CC_MAINT_ADDR_LO (R267). -/
def ENG_CC_MAINT_ADDR_LO : Nat := 0x201010
/-- ENG_CC_MAINT_ADDR_HI (R267). -/
def ENG_CC_MAINT_ADDR_HI : Nat := 0x201014
/-- ENG_CC_MAINT_LEN (R267). -/
def ENG_CC_MAINT_LEN : Nat := 0x201018
/-- ENG_CC_MAINT_KEY (R267). -/
def ENG_CC_MAINT_KEY : Nat := 0x20101C
/-- ENG_CC_LOCKINV (R267). -/
def ENG_CC_LOCKINV : Nat := 0x201020
/-- ENG_CC_INV_LO (R267). -/
def ENG_CC_INV_LO : Nat := 0x201024
/-- ENG_CC_INV_HI (R267). -/
def ENG_CC_INV_HI : Nat := 0x201028
/-- ENG_SB_FULL_CYC (R267). -/
def ENG_SB_FULL_CYC : Nat := 0x20102C
/-- ENG_CCk_CFG (R267, 4). -/
def ENG_CC_CFG (n : Nat) : Nat := 0x201100 + 0x20 * n
/-- ENG_CCk_LOCK (R267, 4). -/
def ENG_CC_LOCK (n : Nat) : Nat := 0x201104 + 0x20 * n
/-- ENG_CCk_STAT (R267, 4). -/
def ENG_CC_STAT (n : Nat) : Nat := 0x201108 + 0x20 * n
/-- ENG_CCk_ERR (R267, 4). -/
def ENG_CC_ERR (n : Nat) : Nat := 0x20110C + 0x20 * n
/-- ENG_CCk_HIT_LO (R267, 4). -/
def ENG_CC_HIT_LO (n : Nat) : Nat := 0x201110 + 0x20 * n
/-- ENG_CCk_HIT_HI (R267, 4). -/
def ENG_CC_HIT_HI (n : Nat) : Nat := 0x201114 + 0x20 * n
/-- ENG_CCk_MISS_LO (R267, 4). -/
def ENG_CC_MISS_LO (n : Nat) : Nat := 0x201118 + 0x20 * n
/-- ENG_CCk_MISS_HI (R267, 4). -/
def ENG_CC_MISS_HI (n : Nat) : Nat := 0x20111C + 0x20 * n
/-- STQ_CFG (R281). -/
def STQ_CFG : Nat := 0x280000
/-- STQ_CTL (R281). -/
def STQ_CTL : Nat := 0x280004
/-- STQ_STAT (R281). -/
def STQ_STAT : Nat := 0x280008
/-- STQ_SEL (R281). -/
def STQ_SEL : Nat := 0x28000C
/-- STQ_CRED_CFG (R281). -/
def STQ_CRED_CFG : Nat := 0x280010
/-- STQ_ITEM_USE (R281). -/
def STQ_ITEM_USE : Nat := 0x280014
/-- STQ_NOQ (R281). -/
def STQ_NOQ : Nat := 0x280018
/-- STQ_ERR (R281). -/
def STQ_ERR : Nat := 0x28001C
/-- STQ_S0_RX_LO (R281). -/
def STQ_S0_RX_LO : Nat := 0x280020
/-- STQ_S0_RX_HI (R281). -/
def STQ_S0_RX_HI : Nat := 0x280024
/-- STQ_S1_RX_LO (R281). -/
def STQ_S1_RX_LO : Nat := 0x280028
/-- STQ_S1_RX_HI (R281). -/
def STQ_S1_RX_HI : Nat := 0x28002C
/-- STQ_S0_TX_LO (R281). -/
def STQ_S0_TX_LO : Nat := 0x280030
/-- STQ_S0_TX_HI (R281). -/
def STQ_S0_TX_HI : Nat := 0x280034
/-- STQ_S1_TX_LO (R281). -/
def STQ_S1_TX_LO : Nat := 0x280038
/-- STQ_S1_TX_HI (R281). -/
def STQ_S1_TX_HI : Nat := 0x28003C
/-- STQ_Q_CFG (R281). -/
def STQ_Q_CFG : Nat := 0x280040
/-- STQ_Q_BIND (R281). -/
def STQ_Q_BIND : Nat := 0x280044
/-- STQ_Q_DEST (R281). -/
def STQ_Q_DEST : Nat := 0x280048
/-- STQ_Q_BASE (R281). -/
def STQ_Q_BASE : Nat := 0x28004C
/-- STQ_Q_CMD (R281). -/
def STQ_Q_CMD : Nat := 0x280050
/-- STQ_Q_STAT (R281). -/
def STQ_Q_STAT : Nat := 0x280054
/-- STQ_Q_COUNT (R281). -/
def STQ_Q_COUNT : Nat := 0x280058
/-- STQ_Q_CREDIT (R281). -/
def STQ_Q_CREDIT : Nat := 0x28005C
/-- STQ_Q_LOST (R281). -/
def STQ_Q_LOST : Nat := 0x280060
/-- STQ_Q_DROPPED (R281). -/
def STQ_Q_DROPPED : Nat := 0x280064
/-- STQ_Q_ENQ_LO (R281). -/
def STQ_Q_ENQ_LO : Nat := 0x280068
/-- STQ_Q_ENQ_HI (R281). -/
def STQ_Q_ENQ_HI : Nat := 0x28006C
/-- STQ_Q_DEQ_LO (R281). -/
def STQ_Q_DEQ_LO : Nat := 0x280070
/-- STQ_Q_DEQ_HI (R281). -/
def STQ_Q_DEQ_HI : Nat := 0x280074
/-- STQ_Q_IDLE (R281). -/
def STQ_Q_IDLE : Nat := 0x280078
/-- STQ_WINBASE (R281). -/
def STQ_WINBASE : Nat := 0x28007C
/-- STQ_CNTWINi (R281, 64). -/
def STQ_CNTWIN (n : Nat) : Nat := 0x280100 + 0x4 * n
/-- ORB_ID (R311). -/
def ORB_ID : Nat := 0x300000
/-- ORB_CFG (R311). -/
def ORB_CFG : Nat := 0x300004
/-- ORB_TIMING (R311). -/
def ORB_TIMING : Nat := 0x300008
/-- ORB_CTL (R311). -/
def ORB_CTL : Nat := 0x30000C
/-- ORB_STAT (R311). -/
def ORB_STAT : Nat := 0x300010
/-- ORB_TERM (R311). -/
def ORB_TERM : Nat := 0x300014
/-- ORB_PLANET (R311). -/
def ORB_PLANET : Nat := 0x300018
/-- ORB_MEMBERS (R311). -/
def ORB_MEMBERS : Nat := 0x30001C
/-- ORB_DIRGEN_LO (R311). -/
def ORB_DIRGEN_LO : Nat := 0x300020
/-- ORB_DIRGEN_HI (R311). -/
def ORB_DIRGEN_HI : Nat := 0x300024
/-- ORB_DIR_STAT (R311). -/
def ORB_DIR_STAT : Nat := 0x300028
/-- ORB_ELECT_CNT (R311). -/
def ORB_ELECT_CNT : Nat := 0x30002C
/-- ORB_FAILOVER_CNT (R311). -/
def ORB_FAILOVER_CNT : Nat := 0x300030
/-- ORB_RX_FOREIGN (R311). -/
def ORB_RX_FOREIGN : Nat := 0x300034
/-- ORB_ERR (R311). -/
def ORB_ERR : Nat := 0x300038
/-- ORB_AREA (R311). -/
def ORB_AREA : Nat := 0x30003C
/-- ORB_PEER_SEL (R311). -/
def ORB_PEER_SEL : Nat := 0x300040
/-- ORB_PEER_CFG (R311). -/
def ORB_PEER_CFG : Nat := 0x300044
/-- ORB_PEER_STAT (R311). -/
def ORB_PEER_STAT : Nat := 0x300048
/-- ORB_PEER_CRED (R311). -/
def ORB_PEER_CRED : Nat := 0x30004C
/-- ORB_PEER_RTT (R311). -/
def ORB_PEER_RTT : Nat := 0x300050
/-- ORB_PEER_TXSEQ_LO (R311). -/
def ORB_PEER_TXSEQ_LO : Nat := 0x300054
/-- ORB_PEER_TXSEQ_HI (R311). -/
def ORB_PEER_TXSEQ_HI : Nat := 0x300058
/-- ORB_HELLO_LOST (R311). -/
def ORB_HELLO_LOST : Nat := 0x30005C
/-- ORB_DIR_QUERY_LO (R311). -/
def ORB_DIR_QUERY_LO : Nat := 0x300060
/-- ORB_DIR_QUERY_HI (R311). -/
def ORB_DIR_QUERY_HI : Nat := 0x300064
/-- ORB_DIR_NOTE (R311). -/
def ORB_DIR_NOTE : Nat := 0x300068
/-- ORB_SEQ_WARN (R311). -/
def ORB_SEQ_WARN : Nat := 0x30006C
/-- ORB_Sp_STAT (R311, 2). -/
def ORB_S_STAT (n : Nat) : Nat := 0x300100 + 0x40 * n
/-- ORB_Sp_TX_LO (R311, 2). -/
def ORB_S_TX_LO (n : Nat) : Nat := 0x300104 + 0x40 * n
/-- ORB_Sp_TX_HI (R311, 2). -/
def ORB_S_TX_HI (n : Nat) : Nat := 0x300108 + 0x40 * n
/-- ORB_Sp_RX_LO (R311, 2). -/
def ORB_S_RX_LO (n : Nat) : Nat := 0x30010C + 0x40 * n
/-- ORB_Sp_RX_HI (R311, 2). -/
def ORB_S_RX_HI (n : Nat) : Nat := 0x300110 + 0x40 * n
/-- ORB_Sp_RETX (R311, 2). -/
def ORB_S_RETX (n : Nat) : Nat := 0x300114 + 0x40 * n
/-- ORB_Sp_NAK (R311, 2). -/
def ORB_S_NAK (n : Nat) : Nat := 0x300118 + 0x40 * n
/-- ORB_Sp_FCS_ERR (R311, 2). -/
def ORB_S_FCS_ERR (n : Nat) : Nat := 0x30011C + 0x40 * n
/-- ORB_Sp_TAG_FAIL (R311, 2). -/
def ORB_S_TAG_FAIL (n : Nat) : Nat := 0x300120 + 0x40 * n
/-- ORB_Sp_PFC_RX (R311, 2). -/
def ORB_S_PFC_RX (n : Nat) : Nat := 0x300124 + 0x40 * n
/-- ORB_Sp_PFC_TX (R311, 2). -/
def ORB_S_PFC_TX (n : Nat) : Nat := 0x300128 + 0x40 * n
/-- ORB_Sp_DOWN (R311, 2). -/
def ORB_S_DOWN (n : Nat) : Nat := 0x30012C + 0x40 * n
/-- ORB_REFL_CFG (R311). -/
def ORB_REFL_CFG : Nat := 0x300200
/-- ORB_REFL_STAT (R311). -/
def ORB_REFL_STAT : Nat := 0x300204
/-- ORB_REFL_BREAKS (R311). -/
def ORB_REFL_BREAKS : Nat := 0x300208
/-- ORB_RWRITE_LO (R311). -/
def ORB_RWRITE_LO : Nat := 0x30020C
/-- ORB_RWRITE_HI (R311). -/
def ORB_RWRITE_HI : Nat := 0x300210
/-- ORB_RACK_NS_MAX (R311). -/
def ORB_RACK_NS_MAX : Nat := 0x300214
/-- ORB_REFL_DIRTY (R311). -/
def ORB_REFL_DIRTY : Nat := 0x300218
/-- ORB_MIGm_CTL (R311, 2). -/
def ORB_MIG_CTL (n : Nat) : Nat := 0x300240 + 0x10 * n
/-- ORB_MIGm_STAT (R311, 2). -/
def ORB_MIG_STAT (n : Nat) : Nat := 0x300244 + 0x10 * n
/-- ORB_MIGm_BOUND (R311, 2). -/
def ORB_MIG_BOUND (n : Nat) : Nat := 0x300248 + 0x10 * n
/-- ORB_MIG_TILES_LO (R311). -/
def ORB_MIG_TILES_LO : Nat := 0x300260
/-- ORB_MIG_TILES_HI (R311). -/
def ORB_MIG_TILES_HI : Nat := 0x300264
/-- ORB_REM_RD_LO (R311). -/
def ORB_REM_RD_LO : Nat := 0x300280
/-- ORB_REM_RD_HI (R311). -/
def ORB_REM_RD_HI : Nat := 0x300284
/-- ORB_REM_WR_LO (R311). -/
def ORB_REM_WR_LO : Nat := 0x300288
/-- ORB_REM_WR_HI (R311). -/
def ORB_REM_WR_HI : Nat := 0x30028C
/-- ORB_REM_REFUSED (R311). -/
def ORB_REM_REFUSED : Nat := 0x300290
/-- ORB_UNIT_SEL (R311). -/
def ORB_UNIT_SEL : Nat := 0x300300
/-- ORB_UNIT_VIEW_LO (R311). -/
def ORB_UNIT_VIEW_LO : Nat := 0x300304
/-- ORB_UNIT_VIEW_HI (R311). -/
def ORB_UNIT_VIEW_HI : Nat := 0x300308
/-- ORB_UNIT_CMD (R311). -/
def ORB_UNIT_CMD : Nat := 0x30030C
/-- ORB_UNIT_CMD_GEN (R311). -/
def ORB_UNIT_CMD_GEN : Nat := 0x300310
/-- ORB_UNIT_STAT (R311). -/
def ORB_UNIT_STAT : Nat := 0x300314
/-- ORB_UNIT_DISAGREE (R311). -/
def ORB_UNIT_DISAGREE : Nat := 0x300318
/-- ORB_UNIT_AUDIT_US (R311). -/
def ORB_UNIT_AUDIT_US : Nat := 0x30031C
/-- THM_TEMP (R323). -/
def THM_TEMP : Nat := 0x390000
/-- THM_RAW (R323). -/
def THM_RAW : Nat := 0x390004
/-- THM_STAT (R323). -/
def THM_STAT : Nat := 0x390008
/-- THM_DIM_CFG (R323). -/
def THM_DIM_CFG : Nat := 0x39000C
/-- THM_LIMIT_CFG (R323). -/
def THM_LIMIT_CFG : Nat := 0x390010
/-- THM_RISE_CFG (R323). -/
def THM_RISE_CFG : Nat := 0x390014
/-- THM_EXTREME (R323). -/
def THM_EXTREME : Nat := 0x390018
/-- THM_LATCH_INFO (R323). -/
def THM_LATCH_INFO : Nat := 0x39001C
/-- THM_RESk (R323, 16). -/
def THM_RES (n : Nat) : Nat := 0x390020 + 0x4 * n
/-- NVS_STATUS (R336). -/
def NVS_STATUS : Nat := 0x3A0000
/-- NVS_LAST_TORN (R336). -/
def NVS_LAST_TORN : Nat := 0x3A0004
/-- NVS_CNT_INC (R336). -/
def NVS_CNT_INC : Nat := 0x3A0008
/-- NVS_CNT_SAT_LO (R336). -/
def NVS_CNT_SAT_LO : Nat := 0x3A000C
/-- NVS_CNT_SAT_HI (R336). -/
def NVS_CNT_SAT_HI : Nat := 0x3A0010
/-- NVS_WR_GROUPS_LO (R336). -/
def NVS_WR_GROUPS_LO : Nat := 0x3A0014
/-- NVS_WR_GROUPS_HI (R336). -/
def NVS_WR_GROUPS_HI : Nat := 0x3A0018
/-- NVS_QUEUE (R336). -/
def NVS_QUEUE : Nat := 0x3A001C
/-- NVS_RECr_STAT (R336, 8). -/
def NVS_REC_STAT (n : Nat) : Nat := 0x3A0020 + 0x4 * n
/-- NVS_RECr_SEQ (R336, 8). -/
def NVS_REC_SEQ (n : Nat) : Nat := 0x3A0040 + 0x4 * n
/-- NVS_READY_US (R336). -/
def NVS_READY_US : Nat := 0x3A0060
/-- NVS_GEOM (R336). -/
def NVS_GEOM : Nat := 0x3A0064
/-- NVS_STORE_CNT_LO (R336). -/
def NVS_STORE_CNT_LO : Nat := 0x3A0068
/-- NVS_STORE_CNT_HI (R336). -/
def NVS_STORE_CNT_HI : Nat := 0x3A006C
/-- NVS_FAIL (R336). -/
def NVS_FAIL : Nat := 0x3A0070
/-- NVS_SCAN_TORN (R336). -/
def NVS_SCAN_TORN : Nat := 0x3A0074
/-- NVS_LAST_STORE (R336). -/
def NVS_LAST_STORE : Nat := 0x3A0078
/-- NVS_TIE_CNT (R336). -/
def NVS_TIE_CNT : Nat := 0x3A007C
/-- EVR_STAT (R349). -/
def EVR_STAT : Nat := 0x3B0000
/-- EVR_NEWEST_SEQ (R349). -/
def EVR_NEWEST_SEQ : Nat := 0x3B0004
/-- EVR_OLDEST_SEQ (R349). -/
def EVR_OLDEST_SEQ : Nat := 0x3B0008
/-- EVR_COUNT (R349). -/
def EVR_COUNT : Nat := 0x3B000C
/-- EVR_BYTES (R349). -/
def EVR_BYTES : Nat := 0x3B0010
/-- EVR_LOST (R349). -/
def EVR_LOST : Nat := 0x3B0014
/-- EVR_DROPPED (R349). -/
def EVR_DROPPED : Nat := 0x3B0018
/-- EVR_CLEAR_SEQ (R349). -/
def EVR_CLEAR_SEQ : Nat := 0x3B001C
/-- EVR_CLEAR (R349). -/
def EVR_CLEAR : Nat := 0x3B0020
/-- EVR_CLEAR_UPTO (R349). -/
def EVR_CLEAR_UPTO : Nat := 0x3B0024
/-- EVR_LAST (R349). -/
def EVR_LAST : Nat := 0x3B0028
/-- EVR_APPEND_US (R349). -/
def EVR_APPEND_US : Nat := 0x3B002C
/-- EVR_PENDING (R349). -/
def EVR_PENDING : Nat := 0x3B0030
/-- EVR_SCAN (R349). -/
def EVR_SCAN : Nat := 0x3B0034
/-- EVR_TORN_REC (R349). -/
def EVR_TORN_REC : Nat := 0x3B0038
/-- EVR_FIRST_SEQ_POR (R349). -/
def EVR_FIRST_SEQ_POR : Nat := 0x3B003C
/-- KVC_LOCK (R361). -/
def KVC_LOCK : Nat := 0x3C0000
/-- KVC_CTL (R361). -/
def KVC_CTL : Nat := 0x3C0004
/-- KVC_LEN (R361). -/
def KVC_LEN : Nat := 0x3C0008
/-- KVC_STAT (R361). -/
def KVC_STAT : Nat := 0x3C000C
/-- KVC_IVi (R361, 3). -/
def KVC_IV (n : Nat) : Nat := 0x3C0010 + 0x4 * n
/-- KVC_TAGi (R361, 4). -/
def KVC_TAG (n : Nat) : Nat := 0x3C001C + 0x4 * n
/-- KVC_CHALi (R361, 4). -/
def KVC_CHAL (n : Nat) : Nat := 0x3C002C + 0x4 * n
/-- KVC_AUTH (R361). -/
def KVC_AUTH : Nat := 0x3C003C
/-- KVC_AUTH_CFG (R361). -/
def KVC_AUTH_CFG : Nat := 0x3C0040
/-- KVC_VSLOTS (R361). -/
def KVC_VSLOTS : Nat := 0x3C0044
/-- KVC_ALARM (R361). -/
def KVC_ALARM : Nat := 0x3C0048
/-- KVC_ALARM_CNT (R361). -/
def KVC_ALARM_CNT : Nat := 0x3C004C
/-- KVC_OPS (R361). -/
def KVC_OPS : Nat := 0x3C0050
/-- KVC_VFAIL (R361). -/
def KVC_VFAIL : Nat := 0x3C0054
/-- KVC_TOKEN_FAIL (R361). -/
def KVC_TOKEN_FAIL : Nat := 0x3C0058
/-- KVC_BUSY_US (R361). -/
def KVC_BUSY_US : Nat := 0x3C005C
/-- SEQ_CFG (R382). -/
def SEQ_CFG : Nat := 0x380000
/-- SEQ_STAT (R382). -/
def SEQ_STAT : Nat := 0x380004
/-- SEQ_CTL (R382). -/
def SEQ_CTL : Nat := 0x380008
/-- SEQ_FAULT (R382). -/
def SEQ_FAULT : Nat := 0x38000C
/-- SEQ_FAULT_TICK_LO (R382). -/
def SEQ_FAULT_TICK_LO : Nat := 0x380010
/-- SEQ_FAULT_TICK_HI (R382). -/
def SEQ_FAULT_TICK_HI : Nat := 0x380014
/-- SEQ_EN_STAT (R382). -/
def SEQ_EN_STAT : Nat := 0x380018
/-- SEQ_IN_STAT (R382). -/
def SEQ_IN_STAT : Nat := 0x38001C
/-- SEQ_PG_ARMED (R382). -/
def SEQ_PG_ARMED : Nat := 0x380020
/-- SEQ_LAST (R382). -/
def SEQ_LAST : Nat := 0x380024
/-- SEQ_UP_US (R382). -/
def SEQ_UP_US : Nat := 0x380028
/-- SEQ_DOWN_US (R382). -/
def SEQ_DOWN_US : Nat := 0x38002C
/-- SEQ_PROG_CRC (R382). -/
def SEQ_PROG_CRC : Nat := 0x380030
/-- SEQ_RUNS (R382). -/
def SEQ_RUNS : Nat := 0x380034
/-- SEQ_BTN (R382). -/
def SEQ_BTN : Nat := 0x380038
/-- SEQ_PROG_SEL (R382). -/
def SEQ_PROG_SEL : Nat := 0x38003C
/-- SEQ_PROG_DATA (R382). -/
def SEQ_PROG_DATA : Nat := 0x380040
/-- SEQ_SYNC_WAIT (R382). -/
def SEQ_SYNC_WAIT : Nat := 0x380044
/-- SEQ_HOLDOFF (R382). -/
def SEQ_HOLDOFF : Nat := 0x380048
/-- SEQ_RAILk (R382, 24). -/
def SEQ_RAIL (n : Nat) : Nat := 0x380080 + 0x4 * n
/-- SUP_CFG (R382). -/
def SUP_CFG : Nat := 0x380100
/-- SUP_HOLD_CFG (R382). -/
def SUP_HOLD_CFG : Nat := 0x380104
/-- SUP_STAT (R382). -/
def SUP_STAT : Nat := 0x380108
/-- SUP_VIN (R382). -/
def SUP_VIN : Nat := 0x38010C
/-- SUP_PEN (R382). -/
def SUP_PEN : Nat := 0x380110
/-- MODE_STAT (R402). -/
def MODE_STAT : Nat := 0x000000
/-- MODE_CTL (R402). -/
def MODE_CTL : Nat := 0x000004
/-- MODE_RST_STAT (R402). -/
def MODE_RST_STAT : Nat := 0x000008
/-- MODE_CFG (R402). -/
def MODE_CFG : Nat := 0x00000C
/-- MODE_HOLD_WHY (R402). -/
def MODE_HOLD_WHY : Nat := 0x000010
/-- MODE_EXIT_US (R402). -/
def MODE_EXIT_US : Nat := 0x000014
/-- MODE_WARM_US (R402). -/
def MODE_WARM_US : Nat := 0x000018
/-- MODE_HOLD_US (R402). -/
def MODE_HOLD_US : Nat := 0x00001C
/-- MODE_IDLE_FAB (R402). -/
def MODE_IDLE_FAB : Nat := 0x000020
/-- MODE_IDLE_CLU (R402). -/
def MODE_IDLE_CLU : Nat := 0x000024
/-- MODE_IDLE_MED (R402). -/
def MODE_IDLE_MED : Nat := 0x000028
/-- MODE_IDLE_DDR (R402). -/
def MODE_IDLE_DDR : Nat := 0x00002C
/-- MODE_IDLE_CC (R402). -/
def MODE_IDLE_CC : Nat := 0x000030
/-- MODE_IDLE_STQ (R402). -/
def MODE_IDLE_STQ : Nat := 0x000034
/-- MODE_DEBUG (R402). -/
def MODE_DEBUG : Nat := 0x000038
/-- MODE_HIST_IDX (R402). -/
def MODE_HIST_IDX : Nat := 0x00003C
/-- MODE_TIMEm (R402, 12). -/
def MODE_TIME (n : Nat) : Nat := 0x000040 + 0x4 * n
/-- MODE_ENTRYm (R402, 12). -/
def MODE_ENTRY (n : Nat) : Nat := 0x000080 + 0x4 * n
/-- MODE_HISTk (R402, 8). -/
def MODE_HIST (n : Nat) : Nat := 0x0000C0 + 0x4 * n
/-- BOOT_STAT (R421). -/
def BOOT_STAT : Nat := 0x040000
/-- BOOT_CTL (R421). -/
def BOOT_CTL : Nat := 0x040004
/-- BOOT_CFG (R421). -/
def BOOT_CFG : Nat := 0x040008
/-- BOOT_REJ (R421). -/
def BOOT_REJ : Nat := 0x04000C
/-- BOOT_FLASH (R421). -/
def BOOT_FLASH : Nat := 0x040010
/-- BOOT_IMG_LEN (R421). -/
def BOOT_IMG_LEN : Nat := 0x040014
/-- BOOT_IMG_SV (R421). -/
def BOOT_IMG_SV : Nat := 0x040018
/-- BOOT_IMG_BUILD (R421). -/
def BOOT_IMG_BUILD : Nat := 0x04001C
/-- BOOT_DIGESTi (R421, 12). -/
def BOOT_DIGEST (n : Nat) : Nat := 0x040020 + 0x4 * n
/-- BOOT_VALID_US (R421). -/
def BOOT_VALID_US : Nat := 0x040050
/-- BOOT_LOAD_US (R421). -/
def BOOT_LOAD_US : Nat := 0x040054
/-- BOOT_FL_CMD (R421). -/
def BOOT_FL_CMD : Nat := 0x040058
/-- BOOT_FL_ADDR (R421). -/
def BOOT_FL_ADDR : Nat := 0x04005C
/-- BOOT_FL_STAT (R421). -/
def BOOT_FL_STAT : Nat := 0x040060
/-- BOOT_MS_CTL (R421). -/
def BOOT_MS_CTL : Nat := 0x040064
/-- BOOT_MS_STAT (R421). -/
def BOOT_MS_STAT : Nat := 0x040068
/-- BOOT_MS_LEN (R421). -/
def BOOT_MS_LEN : Nat := 0x04006C
/-- BOOT_SET_STAT (R421). -/
def BOOT_SET_STAT : Nat := 0x040070
/-- BOOT_SEAL (R421). -/
def BOOT_SEAL : Nat := 0x040074
/-- BOOT_ATTEMPTS (R421). -/
def BOOT_ATTEMPTS : Nat := 0x040078
/-- BOOT_FWINFOi (R421, 4). -/
def BOOT_FWINFO (n : Nat) : Nat := 0x04007C + 0x4 * n
/-- BOOT_SLOTB_BASE (R421). -/
def BOOT_SLOTB_BASE : Nat := 0x04008C
/-- BOOT_FL_ERR (R421). -/
def BOOT_FL_ERR : Nat := 0x040090
/-- BOOT_SECT (R421). -/
def BOOT_SECT : Nat := 0x040094
/-- BOOT_MS_TICK_LO (R421). -/
def BOOT_MS_TICK_LO : Nat := 0x040098
/-- BOOT_MS_TICK_HI (R421). -/
def BOOT_MS_TICK_HI : Nat := 0x04009C
/-- ID_VENDOR (R432). -/
def ID_VENDOR : Nat := 0x3F0000
/-- ID_STEPPING (R432). -/
def ID_STEPPING : Nat := 0x3F0004
/-- ID_IDCODE (R432). -/
def ID_IDCODE : Nat := 0x3F0008
/-- ID_SERIAL_LO (R432). -/
def ID_SERIAL_LO : Nat := 0x3F000C
/-- ID_SERIAL_HI (R432). -/
def ID_SERIAL_HI : Nat := 0x3F0010
/-- ID_GEOM (R432). -/
def ID_GEOM : Nat := 0x3F0014
/-- ID_MAP_VER (R432). -/
def ID_MAP_VER : Nat := 0x3F0018
/-- ID_ACC_ERR (R432). -/
def ID_ACC_ERR : Nat := 0x3F001C
/-- ID_UNMAPPED (R432). -/
def ID_UNMAPPED : Nat := 0x3F0020
/-- ID_UNMAPPED_ADDR (R432). -/
def ID_UNMAPPED_ADDR : Nat := 0x3F0024
/-- ID_FUSE_STAT (R432). -/
def ID_FUSE_STAT : Nat := 0x3F0028
/-- ID_PATH (R432). -/
def ID_PATH : Nat := 0x3F002C

end R

def F.HP_ID_PORT (n : Nat) : Fld := ⟨R.HP_ID n, 0, 3⟩
def F.HP_ID_MERGED (n : Nat) : Fld := ⟨R.HP_ID n, 3, 1⟩
def F.HP_ID_ODD_INERT (n : Nat) : Fld := ⟨R.HP_ID n, 4, 1⟩
def F.HP_LINK_CFG_MERGE (n : Nat) : Fld := ⟨R.HP_LINK_CFG n, 0, 1⟩
def F.HP_LINK_CFG_MAX_RATE (n : Nat) : Fld := ⟨R.HP_LINK_CFG n, 1, 2⟩
def F.HP_LINK_CFG_LOFLIT_EN (n : Nat) : Fld := ⟨R.HP_LINK_CFG n, 3, 1⟩
def F.HP_LINK_CFG_IDE_REQ (n : Nat) : Fld := ⟨R.HP_LINK_CFG n, 4, 1⟩
def F.HP_LINK_STAT_RATE (n : Nat) : Fld := ⟨R.HP_LINK_STAT n, 0, 3⟩
def F.HP_LINK_STAT_WIDTH (n : Nat) : Fld := ⟨R.HP_LINK_STAT n, 3, 5⟩
def F.HP_LINK_STAT_FLIT256 (n : Nat) : Fld := ⟨R.HP_LINK_STAT n, 8, 1⟩
def F.HP_LINK_STAT_LOFLIT (n : Nat) : Fld := ⟨R.HP_LINK_STAT n, 9, 1⟩
def F.HP_STATUS_ACC_ERR (n : Nat) : Fld := ⟨R.HP_STATUS n, 0, 1⟩
def F.HP_STATUS_VIRAL_OUT (n : Nat) : Fld := ⟨R.HP_STATUS n, 1, 1⟩
def F.HP_STATUS_VIRAL_IN (n : Nat) : Fld := ⟨R.HP_STATUS n, 2, 1⟩
def F.HP_STATUS_DQ_HOLD (n : Nat) : Fld := ⟨R.HP_STATUS n, 3, 1⟩
def F.HP_STATUS_DQ_REASON (n : Nat) : Fld := ⟨R.HP_STATUS n, 4, 3⟩
def F.HP_CTRL_PORT_EN (n : Nat) : Fld := ⟨R.HP_CTRL n, 0, 1⟩
def F.HP_CTRL_CNT_CLR (n : Nat) : Fld := ⟨R.HP_CTRL n, 1, 1⟩
def F.HP_IDE_STAT_SECURE (n : Nat) : Fld := ⟨R.HP_IDE_STAT n, 0, 1⟩
def F.HP_IDE_STAT_KEYSET (n : Nat) : Fld := ⟨R.HP_IDE_STAT n, 1, 1⟩
def F.HP_IDE_STAT_FAIL (n : Nat) : Fld := ⟨R.HP_IDE_STAT n, 2, 1⟩
def F.HP_LSA_STAT_BUSY (n : Nat) : Fld := ⟨R.HP_LSA_STAT n, 0, 1⟩
def F.HP_LSA_STAT_COUNT (n : Nat) : Fld := ⟨R.HP_LSA_STAT n, 1, 31⟩
def F.HP_RST_STAT_LAST (n : Nat) : Fld := ⟨R.HP_RST_STAT n, 0, 2⟩
def F.HP_DEC_EXT_KIDW (n k : Nat) : Fld := ⟨R.HP_DEC_EXT n k, 0, 3⟩
def F.HP_DC_CFG_BASE (n k : Nat) : Fld := ⟨R.HP_DC_CFG n k, 0, 20⟩
def F.HP_DC_CFG_EN (n k : Nat) : Fld := ⟨R.HP_DC_CFG n k, 31, 1⟩
def F.HP_DC_LEN_length (n k : Nat) : Fld := ⟨R.HP_DC_LEN n k, 0, 21⟩
def F.HP_ERR_ADDR_HI_ADDR (n : Nat) : Fld := ⟨R.HP_ERR_ADDR_HI n, 0, 20⟩
def F.HP_ERR_ADDR_HI_HPA (n : Nat) : Fld := ⟨R.HP_ERR_ADDR_HI n, 31, 1⟩
def F.HP_ERR_INFO_REASON (n : Nat) : Fld := ⟨R.HP_ERR_INFO n, 0, 4⟩
def F.HP_ERR_INFO_write (n : Nat) : Fld := ⟨R.HP_ERR_INFO n, 4, 1⟩
def F.HP_DC_STAT_EXTENTS (n : Nat) : Fld := ⟨R.HP_DC_STAT n, 0, 10⟩
def F.HP_DC_STAT_PENDING (n : Nat) : Fld := ⟨R.HP_DC_STAT n, 10, 1⟩
def F.HP_POISON_STAT_ENTRIES (n : Nat) : Fld := ⟨R.HP_POISON_STAT n, 0, 13⟩
def F.HP_POISON_STAT_OVERFLOW (n : Nat) : Fld := ⟨R.HP_POISON_STAT n, 13, 1⟩
def F.HP_EVT_STAT_INFO (n : Nat) : Fld := ⟨R.HP_EVT_STAT n, 0, 7⟩
def F.HP_EVT_STAT_WARN (n : Nat) : Fld := ⟨R.HP_EVT_STAT n, 8, 7⟩
def F.HP_EVT_STAT_FAIL (n : Nat) : Fld := ⟨R.HP_EVT_STAT n, 16, 7⟩
def F.HP_EVT_STAT_FATAL (n : Nat) : Fld := ⟨R.HP_EVT_STAT n, 24, 7⟩
def F.HP_GPF_STAT_P1 (n : Nat) : Fld := ⟨R.HP_GPF_STAT n, 0, 1⟩
def F.HP_GPF_STAT_P2 (n : Nat) : Fld := ⟨R.HP_GPF_STAT n, 1, 1⟩
def F.HP_MBOX_STAT_OPCODE (n : Nat) : Fld := ⟨R.HP_MBOX_STAT n, 0, 16⟩
def F.HP_MBOX_STAT_BUSY (n : Nat) : Fld := ⟨R.HP_MBOX_STAT n, 16, 1⟩
def F.KEY_CFG_INTEG : Fld := ⟨R.KEY_CFG, 0, 1⟩
def F.KEY_CFG_INTEG_NEXT : Fld := ⟨R.KEY_CFG, 1, 1⟩
def F.KEY_STATUS_ZEROISED : Fld := ⟨R.KEY_STATUS, 0, 1⟩
def F.KEY_STATUS_SLOT0_OK : Fld := ⟨R.KEY_STATUS, 1, 1⟩
def F.KEY_STATUS_KAT_FAIL : Fld := ⟨R.KEY_STATUS, 2, 1⟩
def F.KEY_STATUS_HALT : Fld := ⟨R.KEY_STATUS, 3, 1⟩
def F.KEY_LOAD_CTL_GO : Fld := ⟨R.KEY_LOAD_CTL, 0, 1⟩
def F.KEY_LOAD_CTL_SHADOW : Fld := ⟨R.KEY_LOAD_CTL, 1, 1⟩
def F.KEY_LOAD_CTL_ENGINE : Fld := ⟨R.KEY_LOAD_CTL, 2, 2⟩
def F.KEY_LOAD_CTL_UNLOAD : Fld := ⟨R.KEY_LOAD_CTL, 4, 1⟩
def F.KEY_LOAD_STAT_BUSY : Fld := ⟨R.KEY_LOAD_STAT, 0, 1⟩
def F.KEY_LOAD_STAT_CODE : Fld := ⟨R.KEY_LOAD_STAT, 1, 4⟩
def F.KEY_LOAD_STAT_SLOT : Fld := ⟨R.KEY_LOAD_STAT, 16, 14⟩
def F.KEY_LOAD_ADDR_HI_ADDR : Fld := ⟨R.KEY_LOAD_ADDR_HI, 0, 8⟩
def F.KEY_KEK_CTL_INDEX : Fld := ⟨R.KEY_KEK_CTL, 0, 3⟩
def F.KEY_KEK_CTL_LOAD : Fld := ⟨R.KEY_KEK_CTL, 3, 1⟩
def F.KEY_KEK_CTL_ERASE : Fld := ⟨R.KEY_KEK_CTL, 4, 1⟩
def F.KEY_KEK_CTL_KEK_VALID : Fld := ⟨R.KEY_KEK_CTL, 8, 8⟩
def F.KEY_SLOT_QUERY_SEL : Fld := ⟨R.KEY_SLOT_QUERY, 0, 14⟩
def F.KEY_SLOT_QUERY_VALID : Fld := ⟨R.KEY_SLOT_QUERY, 16, 1⟩
def F.KEY_SLOT_QUERY_KGEN : Fld := ⟨R.KEY_SLOT_QUERY, 17, 2⟩
def F.KEY_SLOT_QUERY_SHADOW : Fld := ⟨R.KEY_SLOT_QUERY, 19, 1⟩
def F.KEY_SLOT_QUERY_NAMED : Fld := ⟨R.KEY_SLOT_QUERY, 20, 1⟩
def F.KEY_SLOTS_LOADED_slots : Fld := ⟨R.KEY_SLOTS_LOADED, 0, 15⟩
def F.KEY_CTT_CFG_DMR_LIMIT : Fld := ⟨R.KEY_CTT_CFG, 0, 15⟩
def F.KEY_CTT_CFG_DMR_EN : Fld := ⟨R.KEY_CTT_CFG, 15, 1⟩
def F.KEY_CTT_STAT_DMR_USED : Fld := ⟨R.KEY_CTT_STAT, 0, 15⟩
def F.KEY_CTT_STAT_TAG_FILL : Fld := ⟨R.KEY_CTT_STAT, 16, 7⟩
def F.KEY_CTT_STAT_DMR_FULL : Fld := ⟨R.KEY_CTT_STAT, 23, 1⟩
def F.KEY_HALT_CAUSE_CAUSE : Fld := ⟨R.KEY_HALT_CAUSE, 0, 4⟩
def F.KEY_HALT_CAUSE_CP : Fld := ⟨R.KEY_HALT_CAUSE, 4, 4⟩
def F.KEY_HALT_CAUSE_REGION : Fld := ⟨R.KEY_HALT_CAUSE, 8, 18⟩
def F.KEY_HALT_CAUSE_VALID : Fld := ⟨R.KEY_HALT_CAUSE, 31, 1⟩
def F.KEY_HALT_ADDR_HI_LINE : Fld := ⟨R.KEY_HALT_ADDR_HI, 0, 4⟩
def F.KEY_HALT_ADDR_HI_META : Fld := ⟨R.KEY_HALT_ADDR_HI, 4, 1⟩
def F.KEY_CCM_LAST_point : Fld := ⟨R.KEY_CCM_LAST, 0, 4⟩
def F.KEY_CCM_LAST_region : Fld := ⟨R.KEY_CCM_LAST, 4, 18⟩
def F.KEY_ZERO_CNT_zeroises : Fld := ⟨R.KEY_ZERO_CNT, 0, 16⟩
def F.KEY_KAT_STAT_PASS : Fld := ⟨R.KEY_KAT_STAT, 0, 24⟩
def F.KEY_KAT_STAT_DONE : Fld := ⟨R.KEY_KAT_STAT, 24, 1⟩
def F.TRM_STATUS_RUNNING : Fld := ⟨R.TRM_STATUS, 0, 4⟩
def F.TRM_STATUS_DONE : Fld := ⟨R.TRM_STATUS, 4, 4⟩
def F.TRM_CFG_RATE_CAP : Fld := ⟨R.TRM_CFG, 0, 8⟩
def F.TRM_CTL_REGION (n : Nat) : Fld := ⟨R.TRM_CTL n, 0, 18⟩
def F.TRM_CTL_MODE (n : Nat) : Fld := ⟨R.TRM_CTL n, 18, 2⟩
def F.TRM_CTL_RATE (n : Nat) : Fld := ⟨R.TRM_CTL n, 20, 4⟩
def F.TRM_CTL_START (n : Nat) : Fld := ⟨R.TRM_CTL n, 24, 1⟩
def F.TRM_CTL_PAUSE (n : Nat) : Fld := ⟨R.TRM_CTL n, 25, 1⟩
def F.TRM_CTL_FROM_BOUND (n : Nat) : Fld := ⟨R.TRM_CTL n, 26, 1⟩
def F.TRM_KEY_KEY (n : Nat) : Fld := ⟨R.TRM_KEY n, 0, 14⟩
def F.TRM_KEY_NEW_KGEN (n : Nat) : Fld := ⟨R.TRM_KEY n, 14, 2⟩
def F.TRM_BOUND_HI_BOUND (n : Nat) : Fld := ⟨R.TRM_BOUND_HI n, 0, 5⟩
def F.TRM_STAT_STATE (n : Nat) : Fld := ⟨R.TRM_STAT n, 0, 3⟩
def F.TRM_STAT_CODE (n : Nat) : Fld := ⟨R.TRM_STAT n, 4, 4⟩
def F.TRM_STAT_DONE_EVT (n : Nat) : Fld := ⟨R.TRM_STAT n, 8, 1⟩
def F.QOS_CFG_SPEC : Fld := ⟨R.QOS_CFG, 0, 2⟩
def F.QOS_CFG_BASE_W : Fld := ⟨R.QOS_CFG, 2, 6⟩
def F.QOS_LIMIT_STEP : Fld := ⟨R.QOS_LIMIT, 0, 4⟩
def F.QOS_LIMIT_CAP : Fld := ⟨R.QOS_LIMIT, 4, 1⟩
def F.QOS_LIMIT_L : Fld := ⟨R.QOS_LIMIT, 8, 8⟩
def F.QOS_POWER_power : Fld := ⟨R.QOS_POWER, 0, 24⟩
def F.QOS_SUSP_CFG_MAX_SUSP : Fld := ⟨R.QOS_SUSP_CFG, 0, 8⟩
def F.QOS_SUSP_CFG_AROUND : Fld := ⟨R.QOS_SUSP_CFG, 8, 1⟩
def F.QOS_C_RATE_RATE (n : Nat) : Fld := ⟨R.QOS_C_RATE n, 0, 11⟩
def F.QOS_C_RATE_BURST (n : Nat) : Fld := ⟨R.QOS_C_RATE n, 16, 16⟩
def F.QOS_C_MRATE_MRATE (n : Nat) : Fld := ⟨R.QOS_C_MRATE n, 0, 10⟩
def F.QOS_C_MRATE_MBURST (n : Nat) : Fld := ⟨R.QOS_C_MRATE n, 16, 16⟩
def F.QOS_C_CFG_PRIO (n : Nat) : Fld := ⟨R.QOS_C_CFG n, 0, 3⟩
def F.QOS_C_CFG_NOLIMIT (n : Nat) : Fld := ⟨R.QOS_C_CFG n, 3, 1⟩
def F.QOS_C_LEVEL_KIB (n : Nat) : Fld := ⟨R.QOS_C_LEVEL n, 0, 16⟩
def F.QOS_C_LEVEL_MREADS (n : Nat) : Fld := ⟨R.QOS_C_LEVEL n, 16, 16⟩
def F.QOS_C_WAITMAX_longest (n : Nat) : Fld := ⟨R.QOS_C_WAITMAX n, 0, 24⟩
def F.MET_CFG_EPOCH_S : Fld := ⟨R.MET_CFG, 0, 12⟩
def F.MET_CTL_EN : Fld := ⟨R.MET_CTL, 0, 1⟩
def F.MET_STAT_SWEEP : Fld := ⟨R.MET_STAT, 0, 1⟩
def F.MET_STAT_BUF : Fld := ⟨R.MET_STAT, 1, 1⟩
def F.MET_STAT_OVERRUN : Fld := ⟨R.MET_STAT, 2, 1⟩
def F.MET_SWEEP_US_duration : Fld := ⟨R.MET_SWEEP_US, 0, 18⟩
def F.MET_OVERRUN_CNT_overruns : Fld := ⟨R.MET_OVERRUN_CNT, 0, 16⟩
def F.PMC_CTL_EN : Fld := ⟨R.PMC_CTL, 0, 1⟩
def F.PMC_CTL_FREEZE : Fld := ⟨R.PMC_CTL, 1, 1⟩
def F.PMC_CTL_CLEAR : Fld := ⟨R.PMC_CTL, 2, 1⟩
def F.PMC_CTL_OVF_IRQ : Fld := ⟨R.PMC_CTL, 3, 1⟩
def F.PMC_SEL_counter : Fld := ⟨R.PMC_SEL, 0, 9⟩
def F.PMC_EVT_EVT : Fld := ⟨R.PMC_EVT, 0, 8⟩
def F.PMC_FILT_PRIV : Fld := ⟨R.PMC_FILT, 0, 2⟩
def F.PMC_FILT_ADDR_EN : Fld := ⟨R.PMC_FILT, 2, 1⟩
def F.PMC_FILT_CLASS : Fld := ⟨R.PMC_FILT, 4, 8⟩
def F.PMC_FILT_MASTER : Fld := ⟨R.PMC_FILT, 12, 16⟩
def F.PMC_ADDR_BASE_LO_ADDR : Fld := ⟨R.PMC_ADDR_BASE_LO, 8, 24⟩
def F.PMC_ADDR_BASE_HI_ADDR : Fld := ⟨R.PMC_ADDR_BASE_HI, 0, 12⟩
def F.PMC_ADDR_LIM_LO_ADDR : Fld := ⟨R.PMC_ADDR_LIM_LO, 8, 24⟩
def F.PMC_ADDR_LIM_HI_ADDR : Fld := ⟨R.PMC_ADDR_LIM_HI, 0, 12⟩
def F.PMC_HI_latched : Fld := ⟨R.PMC_HI, 0, 16⟩
def F.MAP_CFG_VAULT_GIB : Fld := ⟨R.MAP_CFG, 0, 6⟩
def F.MAP_CFG_HALO_64 : Fld := ⟨R.MAP_CFG, 6, 4⟩
def F.MAP_CFG_DELTA_64M : Fld := ⟨R.MAP_CFG, 10, 7⟩
def F.MAP_CFG_NEXT_VAULT_GIB : Fld := ⟨R.MAP_CFG_NEXT, 0, 6⟩
def F.MAP_CFG_NEXT_HALO_64 : Fld := ⟨R.MAP_CFG_NEXT, 6, 4⟩
def F.MAP_CFG_NEXT_DELTA_64M : Fld := ⟨R.MAP_CFG_NEXT, 10, 7⟩
def F.MAP_STAT_FMT : Fld := ⟨R.MAP_STAT, 0, 2⟩
def F.MAP_STAT_REPLAY : Fld := ⟨R.MAP_STAT, 2, 1⟩
def F.MAP_STAT_BAND : Fld := ⟨R.MAP_STAT, 3, 1⟩
def F.MAP_STAT_ARMED : Fld := ⟨R.MAP_STAT, 4, 1⟩
def F.MAP_STAT_CLEAN : Fld := ⟨R.MAP_STAT, 5, 1⟩
def F.MAP_STAT_START : Fld := ⟨R.MAP_STAT, 8, 4⟩
def F.MAP_FMT_CTL_GO : Fld := ⟨R.MAP_FMT_CTL, 0, 1⟩
def F.MAP_FMT_CTL_CODE : Fld := ⟨R.MAP_FMT_CTL, 1, 3⟩
def F.MAP_FMT_CTL_KEY : Fld := ⟨R.MAP_FMT_CTL, 16, 16⟩
def F.MAP_DELTA_CFG_CKPT_S : Fld := ⟨R.MAP_DELTA_CFG, 0, 12⟩
def F.MAP_DELTA_USED_log : Fld := ⟨R.MAP_DELTA_USED, 0, 26⟩
def F.MAP_CKPT_STAT_COPY : Fld := ⟨R.MAP_CKPT_STAT, 0, 1⟩
def F.MAP_CKPT_STAT_BUSY : Fld := ⟨R.MAP_CKPT_STAT, 1, 1⟩
def F.MAP_USER_TILES_user : Fld := ⟨R.MAP_USER_TILES, 0, 28⟩
def F.MAP_MAPPED_TILES_tiles : Fld := ⟨R.MAP_MAPPED_TILES, 0, 28⟩
def F.MAP_ECL_STAT_RUN : Fld := ⟨R.MAP_ECL_STAT, 0, 1⟩
def F.MAP_ECL_STAT_COMPLETE : Fld := ⟨R.MAP_ECL_STAT, 1, 1⟩
def F.MAP_ECL_STAT_SEQ : Fld := ⟨R.MAP_ECL_STAT, 16, 16⟩
def F.MAP_ECL_US_duration : Fld := ⟨R.MAP_ECL_US, 0, 24⟩
def F.MAP_REPLAY_US_duration : Fld := ⟨R.MAP_REPLAY_US, 0, 28⟩
def F.MAP_VAULT_CFG_START : Fld := ⟨R.MAP_VAULT_CFG, 0, 8⟩
def F.MAP_VAULT_CFG_STOP : Fld := ⟨R.MAP_VAULT_CFG, 8, 8⟩
def F.MAP_VAULT_CFG_AGE_MS : Fld := ⟨R.MAP_VAULT_CFG, 16, 16⟩
def F.MAP_VAULT_STAT_OCC : Fld := ⟨R.MAP_VAULT_STAT, 0, 7⟩
def F.MAP_VAULT_STAT_WAIT : Fld := ⟨R.MAP_VAULT_STAT, 7, 1⟩
def F.HALO_CFG_THROTTLE : Fld := ⟨R.HALO_CFG, 0, 8⟩
def F.HALO_CFG_FOLD_START : Fld := ⟨R.HALO_CFG, 8, 8⟩
def F.HALO_STAT_OCC : Fld := ⟨R.HALO_STAT, 0, 7⟩
def F.HALO_STAT_THROTTLE : Fld := ⟨R.HALO_STAT, 7, 1⟩
def F.HALO_STAT_FOLDING : Fld := ⟨R.HALO_STAT, 8, 1⟩
def F.HALO_THR_RATE : Fld := ⟨R.HALO_THR, 0, 11⟩
def F.FOLD_CFG_MIN_LINES : Fld := ⟨R.FOLD_CFG, 0, 9⟩
def F.FOLD_CFG_EN : Fld := ⟨R.FOLD_CFG, 9, 1⟩
def F.FOLD_CFG_CLOSE_MS : Fld := ⟨R.FOLD_CFG, 16, 8⟩
def F.FOLD_GC_CFG_GC_START : Fld := ⟨R.FOLD_GC_CFG, 0, 16⟩
def F.FOLD_GC_CFG_FREE_TARGET : Fld := ⟨R.FOLD_GC_CFG, 16, 16⟩
def F.FOLD_STAT_FOLDS : Fld := ⟨R.FOLD_STAT, 0, 6⟩
def F.FOLD_STAT_GC : Fld := ⟨R.FOLD_STAT, 6, 1⟩
def F.FOLD_STAT_URGENT : Fld := ⟨R.FOLD_STAT, 7, 1⟩
def F.FOLD_FREE_free : Fld := ⟨R.FOLD_FREE, 0, 24⟩
def F.FOLD_RECL_reclaimable : Fld := ⟨R.FOLD_RECL, 0, 24⟩
def F.FOLD_VOID_void : Fld := ⟨R.FOLD_VOID, 0, 24⟩
def F.FOLD_CH_FREE_free (n : Nat) : Fld := ⟨R.FOLD_CH_FREE n, 0, 20⟩
def F.FOLD_CH_RECL_reclaimable (n : Nat) : Fld := ⟨R.FOLD_CH_RECL n, 0, 20⟩
def F.MED_WEAR_CFG_REWRITE_BITS (n : Nat) : Fld := ⟨R.MED_WEAR_CFG n, 0, 5⟩
def F.MED_WEAR_CFG_RETIRE_BITS (n : Nat) : Fld := ⟨R.MED_WEAR_CFG n, 5, 5⟩
def F.MED_WEAR_CFG_WL_EN (n : Nat) : Fld := ⟨R.MED_WEAR_CFG n, 10, 1⟩
def F.MED_WEAR_CFG_WL_SPREAD (n : Nat) : Fld := ⟨R.MED_WEAR_CFG n, 16, 16⟩
def F.MED_SCRUB_CFG_EN (n : Nat) : Fld := ⟨R.MED_SCRUB_CFG n, 0, 1⟩
def F.MED_SCRUB_CFG_DEADLINE_SHIFT (n : Nat) : Fld := ⟨R.MED_SCRUB_CFG n, 1, 2⟩
def F.MED_SCRUB_CFG_CAL_S (n : Nat) : Fld := ⟨R.MED_SCRUB_CFG n, 8, 8⟩
def F.MED_SCRUB_STAT_PROGRESS (n : Nat) : Fld := ⟨R.MED_SCRUB_STAT n, 0, 7⟩
def F.MED_SCRUB_STAT_CATCHUP (n : Nat) : Fld := ⟨R.MED_SCRUB_STAT n, 7, 1⟩
def F.MED_SCRUB_STAT_CLASS (n : Nat) : Fld := ⟨R.MED_SCRUB_STAT n, 8, 3⟩
def F.MED_SCRUB_STAT_MISSED (n : Nat) : Fld := ⟨R.MED_SCRUB_STAT n, 11, 1⟩
def F.MED_SCRUB_STAT_HOURS (n : Nat) : Fld := ⟨R.MED_SCRUB_STAT n, 16, 16⟩
def F.MED_RETIRED_POS_data (n : Nat) : Fld := ⟨R.MED_RETIRED_POS n, 0, 24⟩
def F.MED_WGEN_mean (n : Nat) : Fld := ⟨R.MED_WGEN n, 0, 16⟩
def F.MED_WGEN_highest (n : Nat) : Fld := ⟨R.MED_WGEN n, 16, 16⟩
def F.MED_HEALTH_SPARE_PCT : Fld := ⟨R.MED_HEALTH, 0, 7⟩
def F.MED_HEALTH_LIFE_USED : Fld := ⟨R.MED_HEALTH, 7, 7⟩
def F.MED_HEALTH_WARN : Fld := ⟨R.MED_HEALTH, 14, 2⟩
def F.MED_HEALTH_READ_ONLY : Fld := ⟨R.MED_HEALTH, 16, 1⟩
def F.MED_HEALTH_RO_CAUSE : Fld := ⟨R.MED_HEALTH, 17, 2⟩
def F.MED_HEALTH_REBUILD : Fld := ⟨R.MED_HEALTH, 19, 1⟩
def F.MED_HEALTH_MEDIA_DEGRADED : Fld := ⟨R.MED_HEALTH, 20, 1⟩
def F.MED_UNPOWERED_U : Fld := ⟨R.MED_UNPOWERED, 0, 25⟩
def F.MED_UNPOWERED_SAT : Fld := ⟨R.MED_UNPOWERED, 31, 1⟩
def F.MED_CTL_RETRAIN (n : Nat) : Fld := ⟨R.MED_CTL n, 0, 1⟩
def F.MED_CTL_DIE_RST (n : Nat) : Fld := ⟨R.MED_CTL n, 1, 1⟩
def F.MED_CTL_CNT_CLR (n : Nat) : Fld := ⟨R.MED_CTL n, 2, 1⟩
def F.MED_STAT_STATE (n : Nat) : Fld := ⟨R.MED_STAT n, 0, 3⟩
def F.MED_STAT_DIES_UP (n : Nat) : Fld := ⟨R.MED_STAT n, 3, 5⟩
def F.MED_STAT_ATN (n : Nat) : Fld := ⟨R.MED_STAT n, 8, 1⟩
def F.MED_STAT_SUSP (n : Nat) : Fld := ⟨R.MED_STAT n, 9, 1⟩
def F.MED_TRAIN_CFG_INTERVAL_MS (n : Nat) : Fld := ⟨R.MED_TRAIN_CFG n, 0, 16⟩
def F.MED_TRAIN_CFG_MIN_EYE (n : Nat) : Fld := ⟨R.MED_TRAIN_CFG n, 16, 6⟩
def F.MED_TRAIN_STAT_EYE (n : Nat) : Fld := ⟨R.MED_TRAIN_STAT n, 0, 6⟩
def F.MED_TRAIN_STAT_DIE (n : Nat) : Fld := ⟨R.MED_TRAIN_STAT n, 6, 4⟩
def F.MED_TRAIN_STAT_RETRAINS (n : Nat) : Fld := ⟨R.MED_TRAIN_STAT n, 16, 16⟩
def F.MED_DIE_PRESENT_bit (n : Nat) : Fld := ⟨R.MED_DIE_PRESENT n, 0, 16⟩
def F.MED_DIE_FAILED_bit (n : Nat) : Fld := ⟨R.MED_DIE_FAILED n, 0, 16⟩
def F.MED_DIE_SEL_DIE (n : Nat) : Fld := ⟨R.MED_DIE_SEL n, 0, 4⟩
def F.MED_DIE_INFO_STEPPING (n : Nat) : Fld := ⟨R.MED_DIE_INFO n, 0, 8⟩
def F.MED_DIE_INFO_SERIAL (n : Nat) : Fld := ⟨R.MED_DIE_INFO n, 16, 16⟩
def F.MED_DIE_TEMP_TEMP (n : Nat) : Fld := ⟨R.MED_DIE_TEMP n, 0, 12⟩
def F.MED_DIE_TEMP_VALID (n : Nat) : Fld := ⟨R.MED_DIE_TEMP n, 12, 1⟩
def F.MED_DIE_TEMP_MISSES (n : Nat) : Fld := ⟨R.MED_DIE_TEMP n, 13, 3⟩
def F.MED_DIE_TEMP_BIN (n : Nat) : Fld := ⟨R.MED_DIE_TEMP n, 16, 3⟩
def F.MED_HOT_TEMP (n : Nat) : Fld := ⟨R.MED_HOT n, 0, 12⟩
def F.MED_HOT_DIE (n : Nat) : Fld := ⟨R.MED_HOT n, 12, 4⟩
def F.MED_ERR_COUNT (n : Nat) : Fld := ⟨R.MED_ERR n, 0, 16⟩
def F.MED_ERR_CODE (n : Nat) : Fld := ⟨R.MED_ERR n, 16, 3⟩
def F.MED_ERR_DIE (n : Nat) : Fld := ⟨R.MED_ERR n, 19, 4⟩
def F.MED_TIMEOUT_COUNT (n : Nat) : Fld := ⟨R.MED_TIMEOUT n, 0, 16⟩
def F.MED_TIMEOUT_DIE_RESETS (n : Nat) : Fld := ⟨R.MED_TIMEOUT n, 16, 8⟩
def F.MED_TIMEOUT_DIE (n : Nat) : Fld := ⟨R.MED_TIMEOUT n, 24, 4⟩
def F.ENGE_CTX_REGION (n : Nat) : Fld := ⟨R.ENGE_CTX n, 0, 18⟩
def F.ENGE_CTX_KALIAS (n : Nat) : Fld := ⟨R.ENGE_CTX n, 18, 6⟩
def F.ENGE_CTX_ABORT (n : Nat) : Fld := ⟨R.ENGE_CTX n, 30, 1⟩
def F.ENGE_CTX_BIND (n : Nat) : Fld := ⟨R.ENGE_CTX n, 31, 1⟩
def F.ENGE_DEV_DEV_REGION (n : Nat) : Fld := ⟨R.ENGE_DEV n, 0, 18⟩
def F.ENGE_DEV_EN (n : Nat) : Fld := ⟨R.ENGE_DEV n, 31, 1⟩
def F.ENGE_QCFG_QSIZE_LOG2 (n : Nat) : Fld := ⟨R.ENGE_QCFG n, 0, 5⟩
def F.ENGE_QCFG_PROG_FIRST (n : Nat) : Fld := ⟨R.ENGE_QCFG n, 8, 6⟩
def F.ENGE_QCFG_PROG_LAST (n : Nat) : Fld := ⟨R.ENGE_QCFG n, 16, 6⟩
def F.ENGE_QCFG_CYC_LIMIT (n : Nat) : Fld := ⟨R.ENGE_QCFG n, 24, 8⟩
def F.ENGE_STAT_STATE (n : Nat) : Fld := ⟨R.ENGE_STAT n, 0, 3⟩
def F.ENGE_STAT_BERR (n : Nat) : Fld := ⟨R.ENGE_STAT n, 8, 4⟩
def F.ENGE_STAT_LAST_CODE (n : Nat) : Fld := ⟨R.ENGE_STAT n, 16, 8⟩
def F.ENGE_FAULT_ADDR_HI_ADDR (n : Nat) : Fld := ⟨R.ENGE_FAULT_ADDR_HI n, 0, 16⟩
def F.ENGE_FAULT_ADDR_HI_CODE (n : Nat) : Fld := ⟨R.ENGE_FAULT_ADDR_HI n, 16, 8⟩
def F.ENGE_FAULT_ADDR_HI_VALID (n : Nat) : Fld := ⟨R.ENGE_FAULT_ADDR_HI n, 31, 1⟩
def F.ENG_CFG_EN : Fld := ⟨R.ENG_CFG, 0, 1⟩
def F.ENG_CFG_FAULT_EVT : Fld := ⟨R.ENG_CFG, 1, 1⟩
def F.ENG_STAT_AWAKE : Fld := ⟨R.ENG_STAT, 0, 4⟩
def F.ENG_STAT_BOUND : Fld := ⟨R.ENG_STAT, 4, 6⟩
def F.ENG_STAT_RUNNING : Fld := ⟨R.ENG_STAT, 10, 6⟩
def F.ENG_STAT_HALT_STOP : Fld := ⟨R.ENG_STAT, 16, 1⟩
def F.ENG_LOAD_CTL_CLUSTERS : Fld := ⟨R.ENG_LOAD_CTL, 0, 4⟩
def F.ENG_LOAD_CTL_SLOT : Fld := ⟨R.ENG_LOAD_CTL, 4, 6⟩
def F.ENG_LOAD_CTL_NSLOTS : Fld := ⟨R.ENG_LOAD_CTL, 10, 6⟩
def F.ENG_LOAD_CTL_GO : Fld := ⟨R.ENG_LOAD_CTL, 16, 1⟩
def F.ENG_LOAD_CTL_UNLOAD : Fld := ⟨R.ENG_LOAD_CTL, 17, 1⟩
def F.ENG_LOAD_STAT_BUSY : Fld := ⟨R.ENG_LOAD_STAT, 0, 1⟩
def F.ENG_LOAD_STAT_CODE : Fld := ⟨R.ENG_LOAD_STAT, 1, 3⟩
def F.ENG_LOAD_STAT_SLOT : Fld := ⟨R.ENG_LOAD_STAT, 4, 6⟩
def F.ENG_LOAD_STAT_NSLOTS : Fld := ⟨R.ENG_LOAD_STAT, 10, 6⟩
def F.ENG_LOAD_ADDR_LO_ADDR : Fld := ⟨R.ENG_LOAD_ADDR_LO, 12, 20⟩
def F.ENG_LOAD_ADDR_HI_ADDR : Fld := ⟨R.ENG_LOAD_ADDR_HI, 0, 8⟩
def F.ENG_ZERO_CFG_CLUSTERS : Fld := ⟨R.ENG_ZERO_CFG, 0, 4⟩
def F.ENG_ZERO_STAT_BUSY : Fld := ⟨R.ENG_ZERO_STAT, 0, 1⟩
def F.ENG_ZERO_STAT_ranges : Fld := ⟨R.ENG_ZERO_STAT, 1, 20⟩
def F.ENG_CL_CTL_RST (n : Nat) : Fld := ⟨R.ENG_CL_CTL n, 0, 1⟩
def F.ENG_CL_CTL_STOP (n : Nat) : Fld := ⟨R.ENG_CL_CTL n, 1, 1⟩
def F.ENG_CL_CTL_WAKE (n : Nat) : Fld := ⟨R.ENG_CL_CTL n, 2, 1⟩
def F.ENG_CL_STAT_AWAKE (n : Nat) : Fld := ⟨R.ENG_CL_STAT n, 0, 1⟩
def F.ENG_CL_STAT_RESETTING (n : Nat) : Fld := ⟨R.ENG_CL_STAT n, 1, 1⟩
def F.ENG_CL_STAT_RUNNING (n : Nat) : Fld := ⟨R.ENG_CL_STAT n, 2, 8⟩
def F.ENG_CL_STAT_BOUND (n : Nat) : Fld := ⟨R.ENG_CL_STAT n, 10, 8⟩
def F.ENG_BARRIER_TMO_US : Fld := ⟨R.ENG_BARRIER_TMO, 0, 20⟩
def F.ENG_CC_MAINT_CTL_OP : Fld := ⟨R.ENG_CC_MAINT_CTL, 0, 3⟩
def F.ENG_CC_MAINT_CTL_CLUSTERS : Fld := ⟨R.ENG_CC_MAINT_CTL, 3, 4⟩
def F.ENG_CC_MAINT_CTL_GO : Fld := ⟨R.ENG_CC_MAINT_CTL, 7, 1⟩
def F.ENG_CC_MAINT_STAT_BUSY : Fld := ⟨R.ENG_CC_MAINT_STAT, 0, 1⟩
def F.ENG_CC_MAINT_STAT_CODE : Fld := ⟨R.ENG_CC_MAINT_STAT, 1, 3⟩
def F.ENG_CC_MAINT_STAT_SKIPPED : Fld := ⟨R.ENG_CC_MAINT_STAT, 8, 24⟩
def F.ENG_CC_MAINT_ADDR_LO_ADDR : Fld := ⟨R.ENG_CC_MAINT_ADDR_LO, 6, 26⟩
def F.ENG_CC_MAINT_ADDR_HI_ADDR : Fld := ⟨R.ENG_CC_MAINT_ADDR_HI, 0, 12⟩
def F.ENG_CC_MAINT_LEN_host : Fld := ⟨R.ENG_CC_MAINT_LEN, 0, 24⟩
def F.ENG_CC_MAINT_KEY_key : Fld := ⟨R.ENG_CC_MAINT_KEY, 0, 14⟩
def F.ENG_CC_CFG_SP_WAYS (n : Nat) : Fld := ⟨R.ENG_CC_CFG n, 0, 4⟩
def F.ENG_CC_CFG_BYPASS (n : Nat) : Fld := ⟨R.ENG_CC_CFG n, 8, 1⟩
def F.ENG_CC_LOCK_locked (n : Nat) : Fld := ⟨R.ENG_CC_LOCK n, 0, 16⟩
def F.ENG_CC_STAT_WAYS (n : Nat) : Fld := ⟨R.ENG_CC_STAT n, 0, 5⟩
def F.ENG_CC_STAT_CFG_REFUSED (n : Nat) : Fld := ⟨R.ENG_CC_STAT n, 5, 1⟩
def F.ENG_CC_STAT_FILL_DROP (n : Nat) : Fld := ⟨R.ENG_CC_STAT n, 16, 16⟩
def F.ENG_CC_ERR_ECC_COR (n : Nat) : Fld := ⟨R.ENG_CC_ERR n, 0, 12⟩
def F.ENG_CC_ERR_ECC_UNC (n : Nat) : Fld := ⟨R.ENG_CC_ERR n, 12, 8⟩
def F.ENG_CC_ERR_TAG_PAR (n : Nat) : Fld := ⟨R.ENG_CC_ERR n, 20, 8⟩
def F.STQ_CFG_DDR_MIB : Fld := ⟨R.STQ_CFG, 0, 13⟩
def F.STQ_CTL_CNT_CLR : Fld := ⟨R.STQ_CTL, 0, 1⟩
def F.STQ_STAT_AREA : Fld := ⟨R.STQ_STAT, 0, 13⟩
def F.STQ_STAT_S0 : Fld := ⟨R.STQ_STAT, 13, 1⟩
def F.STQ_STAT_S1 : Fld := ⟨R.STQ_STAT, 14, 1⟩
def F.STQ_STAT_QUEUES : Fld := ⟨R.STQ_STAT, 16, 13⟩
def F.STQ_SEL_queue : Fld := ⟨R.STQ_SEL, 0, 12⟩
def F.STQ_CRED_CFG_BATCH : Fld := ⟨R.STQ_CRED_CFG, 0, 8⟩
def F.STQ_CRED_CFG_DELAY : Fld := ⟨R.STQ_CRED_CFG, 8, 8⟩
def F.STQ_ITEM_USE_item : Fld := ⟨R.STQ_ITEM_USE, 0, 17⟩
def F.STQ_ERR_BAD_TYPE : Fld := ⟨R.STQ_ERR, 0, 8⟩
def F.STQ_ERR_BAD_STORE : Fld := ⟨R.STQ_ERR, 8, 8⟩
def F.STQ_ERR_BAD_PKT : Fld := ⟨R.STQ_ERR, 16, 4⟩
def F.STQ_ERR_OLD_EPOCH : Fld := ⟨R.STQ_ERR, 20, 4⟩
def F.STQ_ERR_OVERRUN : Fld := ⟨R.STQ_ERR, 24, 8⟩
def F.STQ_Q_CFG_KIND : Fld := ⟨R.STQ_Q_CFG, 0, 2⟩
def F.STQ_Q_CFG_MODE : Fld := ⟨R.STQ_Q_CFG, 2, 1⟩
def F.STQ_Q_CFG_N4 : Fld := ⟨R.STQ_Q_CFG, 3, 1⟩
def F.STQ_Q_CFG_DEPTH_LOG2 : Fld := ⟨R.STQ_Q_CFG, 4, 5⟩
def F.STQ_Q_CFG_IDLE_TAG : Fld := ⟨R.STQ_Q_CFG, 16, 8⟩
def F.STQ_Q_BIND_REGION : Fld := ⟨R.STQ_Q_BIND, 0, 18⟩
def F.STQ_Q_BIND_PAGE : Fld := ⟨R.STQ_Q_BIND, 18, 12⟩
def F.STQ_Q_DEST_MOON : Fld := ⟨R.STQ_Q_DEST, 0, 9⟩
def F.STQ_Q_DEST_QUEUE : Fld := ⟨R.STQ_Q_DEST, 9, 12⟩
def F.STQ_Q_DEST_PORT : Fld := ⟨R.STQ_Q_DEST, 21, 2⟩
def F.STQ_Q_BASE_first : Fld := ⟨R.STQ_Q_BASE, 0, 17⟩
def F.STQ_Q_CMD_ENABLE : Fld := ⟨R.STQ_Q_CMD, 0, 1⟩
def F.STQ_Q_CMD_DISABLE : Fld := ⟨R.STQ_Q_CMD, 1, 1⟩
def F.STQ_Q_CMD_FLUSH : Fld := ⟨R.STQ_Q_CMD, 2, 1⟩
def F.STQ_Q_CMD_DROP_REM : Fld := ⟨R.STQ_Q_CMD, 3, 1⟩
def F.STQ_Q_STAT_STATE : Fld := ⟨R.STQ_Q_STAT, 0, 3⟩
def F.STQ_Q_STAT_CODE : Fld := ⟨R.STQ_Q_STAT, 3, 4⟩
def F.STQ_Q_STAT_HEAD_PART : Fld := ⟨R.STQ_Q_STAT, 7, 1⟩
def F.STQ_Q_STAT_IN_PKT : Fld := ⟨R.STQ_Q_STAT, 8, 1⟩
def F.STQ_Q_STAT_DROPPING : Fld := ⟨R.STQ_Q_STAT, 9, 1⟩
def F.STQ_Q_STAT_EPOCH : Fld := ⟨R.STQ_Q_STAT, 10, 8⟩
def F.STQ_Q_COUNT_COUNT : Fld := ⟨R.STQ_Q_COUNT, 0, 17⟩
def F.STQ_Q_CREDIT_credits : Fld := ⟨R.STQ_Q_CREDIT, 0, 17⟩
def F.STQ_WINBASE_BASE : Fld := ⟨R.STQ_WINBASE, 6, 6⟩
def F.STQ_CNTWIN_COUNT (n : Nat) : Fld := ⟨R.STQ_CNTWIN n, 0, 17⟩
def F.ORB_ID_MOON : Fld := ⟨R.ORB_ID, 0, 9⟩
def F.ORB_ID_CONST : Fld := ⟨R.ORB_ID, 16, 16⟩
def F.ORB_CFG_ETYPE : Fld := ⟨R.ORB_CFG, 0, 16⟩
def F.ORB_CFG_PCP : Fld := ⟨R.ORB_CFG, 16, 3⟩
def F.ORB_CFG_PLANET_EN : Fld := ⟨R.ORB_CFG, 19, 1⟩
def F.ORB_CFG_EN : Fld := ⟨R.ORB_CFG, 20, 1⟩
def F.ORB_CFG_AREA_16M : Fld := ⟨R.ORB_CFG, 21, 11⟩
def F.ORB_TIMING_HELLO : Fld := ⟨R.ORB_TIMING, 0, 8⟩
def F.ORB_TIMING_FAIL_MS : Fld := ⟨R.ORB_TIMING, 8, 8⟩
def F.ORB_TIMING_ELECT_MS : Fld := ⟨R.ORB_TIMING, 16, 8⟩
def F.ORB_TIMING_RETX_US : Fld := ⟨R.ORB_TIMING, 24, 8⟩
def F.ORB_CTL_CNT_CLR : Fld := ⟨R.ORB_CTL, 0, 1⟩
def F.ORB_STAT_ROLE : Fld := ⟨R.ORB_STAT, 0, 3⟩
def F.ORB_PLANET_PLANET : Fld := ⟨R.ORB_PLANET, 0, 9⟩
def F.ORB_PLANET_STANDBY : Fld := ⟨R.ORB_PLANET, 9, 9⟩
def F.ORB_PLANET_KNOWN : Fld := ⟨R.ORB_PLANET, 18, 1⟩
def F.ORB_PLANET_NAMED : Fld := ⟨R.ORB_PLANET, 19, 1⟩
def F.ORB_MEMBERS_MEMBERS : Fld := ⟨R.ORB_MEMBERS, 0, 10⟩
def F.ORB_MEMBERS_REACHABLE : Fld := ⟨R.ORB_MEMBERS, 16, 10⟩
def F.ORB_DIR_STAT_entries : Fld := ⟨R.ORB_DIR_STAT, 0, 21⟩
def F.ORB_ERR_BAD_FRAME : Fld := ⟨R.ORB_ERR, 0, 16⟩
def F.ORB_ERR_DUP_MOON : Fld := ⟨R.ORB_ERR, 16, 1⟩
def F.ORB_AREA_Orbit : Fld := ⟨R.ORB_AREA, 0, 12⟩
def F.ORB_PEER_SEL_peer : Fld := ⟨R.ORB_PEER_SEL, 0, 9⟩
def F.ORB_PEER_CFG_MEMBER : Fld := ⟨R.ORB_PEER_CFG, 0, 1⟩
def F.ORB_PEER_CFG_KEYSLOT : Fld := ⟨R.ORB_PEER_CFG, 1, 14⟩
def F.ORB_PEER_CFG_REMOTE_OK : Fld := ⟨R.ORB_PEER_CFG, 15, 1⟩
def F.ORB_PEER_STAT_REACHABLE : Fld := ⟨R.ORB_PEER_STAT, 0, 1⟩
def F.ORB_PEER_STAT_ON_S0 : Fld := ⟨R.ORB_PEER_STAT, 1, 1⟩
def F.ORB_PEER_STAT_ON_S1 : Fld := ⟨R.ORB_PEER_STAT, 2, 1⟩
def F.ORB_PEER_STAT_SEQ_WARN : Fld := ⟨R.ORB_PEER_STAT, 3, 1⟩
def F.ORB_PEER_STAT_MS : Fld := ⟨R.ORB_PEER_STAT, 16, 16⟩
def F.ORB_PEER_CRED_INIT : Fld := ⟨R.ORB_PEER_CRED, 0, 12⟩
def F.ORB_PEER_CRED_HELD : Fld := ⟨R.ORB_PEER_CRED, 16, 12⟩
def F.ORB_PEER_RTT_last : Fld := ⟨R.ORB_PEER_RTT, 0, 20⟩
def F.ORB_SEQ_WARN_peers : Fld := ⟨R.ORB_SEQ_WARN, 0, 10⟩
def F.ORB_S_STAT_UP (n : Nat) : Fld := ⟨R.ORB_S_STAT n, 0, 1⟩
def F.ORB_S_STAT_PFC_RX (n : Nat) : Fld := ⟨R.ORB_S_STAT n, 1, 1⟩
def F.ORB_S_STAT_PFC_TX (n : Nat) : Fld := ⟨R.ORB_S_STAT n, 2, 1⟩
def F.ORB_REFL_CFG_TMO_US : Fld := ⟨R.ORB_REFL_CFG, 0, 16⟩
def F.ORB_REFL_CFG_ON_LOSS : Fld := ⟨R.ORB_REFL_CFG, 16, 1⟩
def F.ORB_REFL_STAT_REFLECTING : Fld := ⟨R.ORB_REFL_STAT, 0, 18⟩
def F.ORB_REFL_STAT_BROKEN : Fld := ⟨R.ORB_REFL_STAT, 18, 14⟩
def F.ORB_RACK_NS_MAX_longest : Fld := ⟨R.ORB_RACK_NS_MAX, 0, 24⟩
def F.ORB_REFL_DIRTY_dirty : Fld := ⟨R.ORB_REFL_DIRTY, 0, 28⟩
def F.ORB_MIG_CTL_REGION (n : Nat) : Fld := ⟨R.ORB_MIG_CTL n, 0, 18⟩
def F.ORB_MIG_CTL_MODE (n : Nat) : Fld := ⟨R.ORB_MIG_CTL n, 18, 2⟩
def F.ORB_MIG_CTL_RATE (n : Nat) : Fld := ⟨R.ORB_MIG_CTL n, 20, 4⟩
def F.ORB_MIG_CTL_START (n : Nat) : Fld := ⟨R.ORB_MIG_CTL n, 24, 1⟩
def F.ORB_MIG_CTL_PAUSE (n : Nat) : Fld := ⟨R.ORB_MIG_CTL n, 25, 1⟩
def F.ORB_MIG_STAT_STATE (n : Nat) : Fld := ⟨R.ORB_MIG_STAT n, 0, 3⟩
def F.ORB_MIG_STAT_CODE (n : Nat) : Fld := ⟨R.ORB_MIG_STAT n, 3, 4⟩
def F.ORB_MIG_BOUND_BOUND (n : Nat) : Fld := ⟨R.ORB_MIG_BOUND n, 0, 28⟩
def F.ORB_UNIT_SEL_unit : Fld := ⟨R.ORB_UNIT_SEL, 0, 10⟩
def F.ORB_UNIT_CMD_UNIT : Fld := ⟨R.ORB_UNIT_CMD, 0, 10⟩
def F.ORB_UNIT_CMD_OP : Fld := ⟨R.ORB_UNIT_CMD, 10, 4⟩
def F.ORB_UNIT_CMD_GO : Fld := ⟨R.ORB_UNIT_CMD, 31, 1⟩
def F.ORB_UNIT_CMD_GEN_generation : Fld := ⟨R.ORB_UNIT_CMD_GEN, 0, 16⟩
def F.ORB_UNIT_STAT_CODE : Fld := ⟨R.ORB_UNIT_STAT, 0, 4⟩
def F.ORB_UNIT_STAT_unit : Fld := ⟨R.ORB_UNIT_STAT, 4, 10⟩
def F.ORB_UNIT_AUDIT_US_duration : Fld := ⟨R.ORB_UNIT_AUDIT_US, 0, 16⟩
def F.THM_TEMP_T : Fld := ⟨R.THM_TEMP, 0, 12⟩
def F.THM_TEMP_last : Fld := ⟨R.THM_TEMP, 16, 12⟩
def F.THM_RAW_last : Fld := ⟨R.THM_RAW, 0, 16⟩
def F.THM_RAW_run : Fld := ⟨R.THM_RAW, 16, 9⟩
def F.THM_STAT_STEP : Fld := ⟨R.THM_STAT, 0, 4⟩
def F.THM_STAT_WARN : Fld := ⟨R.THM_STAT, 4, 1⟩
def F.THM_STAT_RISE : Fld := ⟨R.THM_STAT, 5, 1⟩
def F.THM_STAT_BROKEN : Fld := ⟨R.THM_STAT, 6, 1⟩
def F.THM_STAT_LATCH : Fld := ⟨R.THM_STAT, 7, 1⟩
def F.THM_STAT_THERM : Fld := ⟨R.THM_STAT, 8, 1⟩
def F.THM_DIM_CFG_START : Fld := ⟨R.THM_DIM_CFG, 0, 8⟩
def F.THM_DIM_CFG_STEP_C : Fld := ⟨R.THM_DIM_CFG, 8, 4⟩
def F.THM_DIM_CFG_HYST : Fld := ⟨R.THM_DIM_CFG, 12, 4⟩
def F.THM_LIMIT_CFG_WARN : Fld := ⟨R.THM_LIMIT_CFG, 0, 8⟩
def F.THM_LIMIT_CFG_CRIT : Fld := ⟨R.THM_LIMIT_CFG, 8, 8⟩
def F.THM_RISE_CFG_RISE : Fld := ⟨R.THM_RISE_CFG, 0, 6⟩
def F.THM_EXTREME_highest : Fld := ⟨R.THM_EXTREME, 0, 12⟩
def F.THM_EXTREME_lowest : Fld := ⟨R.THM_EXTREME, 16, 12⟩
def F.THM_LATCH_INFO_CAUSE : Fld := ⟨R.THM_LATCH_INFO, 0, 3⟩
def F.THM_LATCH_INFO_unfiltered : Fld := ⟨R.THM_LATCH_INFO, 4, 12⟩
def F.THM_LATCH_INFO_VALID : Fld := ⟨R.THM_LATCH_INFO, 31, 1⟩
def F.NVS_STATUS_READY : Fld := ⟨R.NVS_STATUS, 0, 1⟩
def F.NVS_STATUS_BUSY : Fld := ⟨R.NVS_STATUS, 1, 1⟩
def F.NVS_STATUS_TORN : Fld := ⟨R.NVS_STATUS, 2, 1⟩
def F.NVS_STATUS_TIE : Fld := ⟨R.NVS_STATUS, 3, 1⟩
def F.NVS_STATUS_SAT : Fld := ⟨R.NVS_STATUS, 4, 1⟩
def F.NVS_STATUS_FAIL : Fld := ⟨R.NVS_STATUS, 5, 1⟩
def F.NVS_LAST_TORN_page : Fld := ⟨R.NVS_LAST_TORN, 0, 11⟩
def F.NVS_LAST_TORN_group : Fld := ⟨R.NVS_LAST_TORN, 11, 5⟩
def F.NVS_LAST_TORN_torn : Fld := ⟨R.NVS_LAST_TORN, 16, 16⟩
def F.NVS_CNT_INC_counter : Fld := ⟨R.NVS_CNT_INC, 0, 6⟩
def F.NVS_CNT_INC_GO : Fld := ⟨R.NVS_CNT_INC, 31, 1⟩
def F.NVS_QUEUE_page : Fld := ⟨R.NVS_QUEUE, 0, 5⟩
def F.NVS_QUEUE_most : Fld := ⟨R.NVS_QUEUE, 8, 5⟩
def F.NVS_REC_STAT_A (n : Nat) : Fld := ⟨R.NVS_REC_STAT n, 0, 1⟩
def F.NVS_REC_STAT_B (n : Nat) : Fld := ⟨R.NVS_REC_STAT n, 1, 1⟩
def F.NVS_REC_STAT_copy (n : Nat) : Fld := ⟨R.NVS_REC_STAT n, 2, 1⟩
def F.NVS_REC_STAT_tie (n : Nat) : Fld := ⟨R.NVS_REC_STAT n, 3, 1⟩
def F.NVS_REC_STAT_BLANK (n : Nat) : Fld := ⟨R.NVS_REC_STAT n, 4, 1⟩
def F.NVS_READY_US_VALUE : Fld := ⟨R.NVS_READY_US, 0, 16⟩
def F.NVS_GEOM_PAGES : Fld := ⟨R.NVS_GEOM, 0, 12⟩
def F.NVS_GEOM_BYTES : Fld := ⟨R.NVS_GEOM, 12, 9⟩
def F.NVS_SCAN_TORN_torn : Fld := ⟨R.NVS_SCAN_TORN, 0, 16⟩
def F.NVS_LAST_STORE_TYPE : Fld := ⟨R.NVS_LAST_STORE, 0, 16⟩
def F.NVS_LAST_STORE_copy : Fld := ⟨R.NVS_LAST_STORE, 16, 1⟩
def F.NVS_TIE_CNT_ties : Fld := ⟨R.NVS_TIE_CNT, 0, 16⟩
def F.EVR_STAT_READY : Fld := ⟨R.EVR_STAT, 0, 1⟩
def F.EVR_STAT_WRAPPED : Fld := ⟨R.EVR_STAT, 1, 1⟩
def F.EVR_STAT_CLEARING : Fld := ⟨R.EVR_STAT, 2, 1⟩
def F.EVR_STAT_CLEAR_CODE : Fld := ⟨R.EVR_STAT, 3, 4⟩
def F.EVR_COUNT_records : Fld := ⟨R.EVR_COUNT, 0, 13⟩
def F.EVR_BYTES_ring : Fld := ⟨R.EVR_BYTES, 0, 17⟩
def F.EVR_CLEAR_KEY : Fld := ⟨R.EVR_CLEAR, 0, 16⟩
def F.EVR_CLEAR_GO : Fld := ⟨R.EVR_CLEAR, 31, 1⟩
def F.EVR_LAST_CLASS : Fld := ⟨R.EVR_LAST, 0, 8⟩
def F.EVR_LAST_CODE : Fld := ⟨R.EVR_LAST, 8, 8⟩
def F.EVR_APPEND_US_longest : Fld := ⟨R.EVR_APPEND_US, 0, 16⟩
def F.EVR_PENDING_records : Fld := ⟨R.EVR_PENDING, 0, 7⟩
def F.EVR_PENDING_most : Fld := ⟨R.EVR_PENDING, 8, 7⟩
def F.EVR_SCAN_RECORDS : Fld := ⟨R.EVR_SCAN, 0, 13⟩
def F.EVR_SCAN_TORN : Fld := ⟨R.EVR_SCAN, 16, 1⟩
def F.KVC_LOCK_OWNER : Fld := ⟨R.KVC_LOCK, 0, 2⟩
def F.KVC_CTL_MODE : Fld := ⟨R.KVC_CTL, 0, 4⟩
def F.KVC_CTL_VSLOT : Fld := ⟨R.KVC_CTL, 4, 4⟩
def F.KVC_CTL_GO : Fld := ⟨R.KVC_CTL, 8, 1⟩
def F.KVC_LEN_LEN : Fld := ⟨R.KVC_LEN, 0, 13⟩
def F.KVC_LEN_AAD : Fld := ⟨R.KVC_LEN, 16, 13⟩
def F.KVC_STAT_BUSY : Fld := ⟨R.KVC_STAT, 0, 1⟩
def F.KVC_STAT_VERIFIED : Fld := ⟨R.KVC_STAT, 1, 1⟩
def F.KVC_STAT_CODE : Fld := ⟨R.KVC_STAT, 2, 3⟩
def F.KVC_AUTH_OPEN : Fld := ⟨R.KVC_AUTH, 0, 1⟩
def F.KVC_AUTH_seconds : Fld := ⟨R.KVC_AUTH, 1, 16⟩
def F.KVC_AUTH_CFG_WINDOW_S : Fld := ⟨R.KVC_AUTH_CFG, 0, 12⟩
def F.KVC_AUTH_CFG_FAIL_LIMIT : Fld := ⟨R.KVC_AUTH_CFG, 12, 8⟩
def F.KVC_AUTH_CFG_WIPE : Fld := ⟨R.KVC_AUTH_CFG, 20, 1⟩
def F.KVC_VSLOTS_bit : Fld := ⟨R.KVC_VSLOTS, 0, 16⟩
def F.KVC_ALARM_SOURCES : Fld := ⟨R.KVC_ALARM, 0, 7⟩
def F.KVC_ALARM_LEVEL : Fld := ⟨R.KVC_ALARM, 7, 2⟩
def F.KVC_ALARM_CNT_alarms : Fld := ⟨R.KVC_ALARM_CNT, 0, 16⟩
def F.KVC_TOKEN_FAIL_consecutive : Fld := ⟨R.KVC_TOKEN_FAIL, 0, 8⟩
def F.KVC_TOKEN_FAIL_wrong : Fld := ⟨R.KVC_TOKEN_FAIL, 16, 16⟩
def F.KVC_BUSY_US_duration : Fld := ⟨R.KVC_BUSY_US, 0, 20⟩
def F.SEQ_CFG_AUTO_ON : Fld := ⟨R.SEQ_CFG, 0, 1⟩
def F.SEQ_CFG_PHASE_EN : Fld := ⟨R.SEQ_CFG, 1, 1⟩
def F.SEQ_CFG_MRST_ON : Fld := ⟨R.SEQ_CFG, 2, 1⟩
def F.SEQ_CFG_DOWN_ENTRY : Fld := ⟨R.SEQ_CFG, 3, 8⟩
def F.SEQ_CFG_PROG_SRC : Fld := ⟨R.SEQ_CFG, 11, 1⟩
def F.SEQ_CFG_HOST_S : Fld := ⟨R.SEQ_CFG, 12, 16⟩
def F.SEQ_STAT_STATE : Fld := ⟨R.SEQ_STAT, 0, 3⟩
def F.SEQ_STAT_STEP : Fld := ⟨R.SEQ_STAT, 3, 8⟩
def F.SEQ_STAT_PHASE_STATE : Fld := ⟨R.SEQ_STAT, 11, 5⟩
def F.SEQ_STAT_PHASE_DRIVE : Fld := ⟨R.SEQ_STAT, 16, 1⟩
def F.SEQ_STAT_DETACHED : Fld := ⟨R.SEQ_STAT, 17, 1⟩
def F.SEQ_STAT_PEND_ON : Fld := ⟨R.SEQ_STAT, 18, 1⟩
def F.SEQ_STAT_PEND_OFF : Fld := ⟨R.SEQ_STAT, 19, 1⟩
def F.SEQ_CTL_REQ_ON : Fld := ⟨R.SEQ_CTL, 0, 1⟩
def F.SEQ_CTL_REQ_OFF : Fld := ⟨R.SEQ_CTL, 1, 1⟩
def F.SEQ_CTL_FAULT_CLR : Fld := ⟨R.SEQ_CTL, 2, 1⟩
def F.SEQ_FAULT_RAIL : Fld := ⟨R.SEQ_FAULT, 0, 5⟩
def F.SEQ_FAULT_STEP : Fld := ⟨R.SEQ_FAULT, 5, 8⟩
def F.SEQ_FAULT_KIND : Fld := ⟨R.SEQ_FAULT, 13, 3⟩
def F.SEQ_FAULT_VALID : Fld := ⟨R.SEQ_FAULT, 31, 1⟩
def F.SEQ_EN_STAT_bit : Fld := ⟨R.SEQ_EN_STAT, 0, 24⟩
def F.SEQ_IN_STAT_PGOOD : Fld := ⟨R.SEQ_IN_STAT, 0, 24⟩
def F.SEQ_IN_STAT_HOLDUP_OK : Fld := ⟨R.SEQ_IN_STAT, 24, 1⟩
def F.SEQ_IN_STAT_PWRBTN_N : Fld := ⟨R.SEQ_IN_STAT, 25, 1⟩
def F.SEQ_IN_STAT_MRST_N : Fld := ⟨R.SEQ_IN_STAT, 26, 1⟩
def F.SEQ_IN_STAT_PHASE : Fld := ⟨R.SEQ_IN_STAT, 27, 1⟩
def F.SEQ_PG_ARMED_bit : Fld := ⟨R.SEQ_PG_ARMED, 0, 24⟩
def F.SEQ_LAST_ON_SOURCE : Fld := ⟨R.SEQ_LAST, 0, 4⟩
def F.SEQ_LAST_OFF_CAUSE : Fld := ⟨R.SEQ_LAST, 4, 4⟩
def F.SEQ_UP_US_duration : Fld := ⟨R.SEQ_UP_US, 0, 28⟩
def F.SEQ_DOWN_US_duration : Fld := ⟨R.SEQ_DOWN_US, 0, 28⟩
def F.SEQ_RUNS_power : Fld := ⟨R.SEQ_RUNS, 0, 16⟩
def F.SEQ_RUNS_shutdowns : Fld := ⟨R.SEQ_RUNS, 16, 16⟩
def F.SEQ_BTN_length : Fld := ⟨R.SEQ_BTN, 0, 16⟩
def F.SEQ_PROG_SEL_step : Fld := ⟨R.SEQ_PROG_SEL, 0, 8⟩
def F.SEQ_SYNC_WAIT_longest : Fld := ⟨R.SEQ_SYNC_WAIT, 0, 24⟩
def F.SEQ_HOLDOFF_ms : Fld := ⟨R.SEQ_HOLDOFF, 0, 16⟩
def F.SEQ_RAIL_ON_US (n : Nat) : Fld := ⟨R.SEQ_RAIL n, 0, 16⟩
def F.SEQ_RAIL_OFF_US (n : Nat) : Fld := ⟨R.SEQ_RAIL n, 16, 16⟩
def F.SUP_CFG_WARN : Fld := ⟨R.SUP_CFG, 0, 8⟩
def F.SUP_CFG_RESET : Fld := ⟨R.SUP_CFG, 8, 8⟩
def F.SUP_CFG_HYST : Fld := ⟨R.SUP_CFG, 16, 4⟩
def F.SUP_HOLD_CFG_J_RATED : Fld := ⟨R.SUP_HOLD_CFG, 0, 8⟩
def F.SUP_STAT_PEN : Fld := ⟨R.SUP_STAT, 0, 1⟩
def F.SUP_STAT_VIN_LOW : Fld := ⟨R.SUP_STAT, 1, 1⟩
def F.SUP_STAT_HOLD_LOW : Fld := ⟨R.SUP_STAT, 2, 1⟩
def F.SUP_STAT_CAP : Fld := ⟨R.SUP_STAT, 3, 1⟩
def F.SUP_STAT_BELOW_RESET : Fld := ⟨R.SUP_STAT, 4, 1⟩
def F.SUP_STAT_E_NEED : Fld := ⟨R.SUP_STAT, 8, 8⟩
def F.SUP_VIN_input : Fld := ⟨R.SUP_VIN, 0, 16⟩
def F.SUP_VIN_lowest : Fld := ⟨R.SUP_VIN, 16, 16⟩
def F.SUP_PEN_Penumbra : Fld := ⟨R.SUP_PEN, 0, 16⟩
def F.SUP_PEN_duration : Fld := ⟨R.SUP_PEN, 16, 16⟩
def F.MODE_STAT_POWER : Fld := ⟨R.MODE_STAT, 0, 2⟩
def F.MODE_STAT_SERVICE : Fld := ⟨R.MODE_STAT, 2, 3⟩
def F.MODE_STAT_TRUST : Fld := ⟨R.MODE_STAT, 5, 2⟩
def F.MODE_STAT_BUSY : Fld := ⟨R.MODE_STAT, 7, 1⟩
def F.MODE_STAT_CODE : Fld := ⟨R.MODE_STAT, 8, 4⟩
def F.MODE_CTL_COLD : Fld := ⟨R.MODE_CTL, 0, 1⟩
def F.MODE_CTL_WARM : Fld := ⟨R.MODE_CTL, 1, 1⟩
def F.MODE_CTL_DIM : Fld := ⟨R.MODE_CTL, 2, 1⟩
def F.MODE_CTL_RELEASE : Fld := ⟨R.MODE_CTL, 3, 1⟩
def F.MODE_CTL_SEAL : Fld := ⟨R.MODE_CTL, 4, 1⟩
def F.MODE_CTL_KEY : Fld := ⟨R.MODE_CTL, 16, 16⟩
def F.MODE_RST_STAT_LAST : Fld := ⟨R.MODE_RST_STAT, 0, 4⟩
def F.MODE_RST_STAT_warm : Fld := ⟨R.MODE_RST_STAT, 16, 16⟩
def F.MODE_CFG_AUTO_RELEASE : Fld := ⟨R.MODE_CFG, 0, 1⟩
def F.MODE_CFG_DIM_AT_START : Fld := ⟨R.MODE_CFG, 1, 1⟩
def F.MODE_HOLD_WHY_CONFIG : Fld := ⟨R.MODE_HOLD_WHY, 0, 1⟩
def F.MODE_HOLD_WHY_START : Fld := ⟨R.MODE_HOLD_WHY, 1, 1⟩
def F.MODE_HOLD_WHY_WARM : Fld := ⟨R.MODE_HOLD_WHY, 2, 1⟩
def F.MODE_HOLD_WHY_VDEBUG : Fld := ⟨R.MODE_HOLD_WHY, 3, 1⟩
def F.MODE_HOLD_WHY_RELEASE : Fld := ⟨R.MODE_HOLD_WHY, 4, 1⟩
def F.MODE_HOLD_WHY_GEOM : Fld := ⟨R.MODE_HOLD_WHY, 5, 1⟩
def F.MODE_EXIT_US_duration : Fld := ⟨R.MODE_EXIT_US, 0, 28⟩
def F.MODE_WARM_US_duration : Fld := ⟨R.MODE_WARM_US, 0, 24⟩
def F.MODE_IDLE_FAB_TIME_US : Fld := ⟨R.MODE_IDLE_FAB, 0, 20⟩
def F.MODE_IDLE_CLU_TIME_US : Fld := ⟨R.MODE_IDLE_CLU, 0, 20⟩
def F.MODE_IDLE_MED_TIME_US : Fld := ⟨R.MODE_IDLE_MED, 0, 20⟩
def F.MODE_IDLE_DDR_TIME_US : Fld := ⟨R.MODE_IDLE_DDR, 0, 20⟩
def F.MODE_IDLE_CC_TIME_US : Fld := ⟨R.MODE_IDLE_CC, 0, 20⟩
def F.MODE_IDLE_STQ_TIME_US : Fld := ⟨R.MODE_IDLE_STQ, 0, 20⟩
def F.MODE_DEBUG_ATTACHED : Fld := ⟨R.MODE_DEBUG, 0, 1⟩
def F.MODE_DEBUG_BSCAN : Fld := ⟨R.MODE_DEBUG, 1, 1⟩
def F.MODE_DEBUG_ENGINES : Fld := ⟨R.MODE_DEBUG, 8, 6⟩
def F.MODE_DEBUG_CORES : Fld := ⟨R.MODE_DEBUG, 14, 4⟩
def F.MODE_HIST_IDX_index : Fld := ⟨R.MODE_HIST_IDX, 0, 3⟩
def F.MODE_HIST_IDX_mode : Fld := ⟨R.MODE_HIST_IDX, 16, 16⟩
def F.MODE_HIST_event (n : Nat) : Fld := ⟨R.MODE_HIST n, 0, 4⟩
def F.MODE_HIST_old (n : Nat) : Fld := ⟨R.MODE_HIST n, 4, 4⟩
def F.MODE_HIST_new (n : Nat) : Fld := ⟨R.MODE_HIST n, 8, 4⟩
def F.MODE_HIST_cause (n : Nat) : Fld := ⟨R.MODE_HIST n, 12, 8⟩
def F.BOOT_STAT_ACCEPTED : Fld := ⟨R.BOOT_STAT, 0, 1⟩
def F.BOOT_STAT_SLOT : Fld := ⟨R.BOOT_STAT, 1, 1⟩
def F.BOOT_STAT_KEYSRC : Fld := ⟨R.BOOT_STAT, 2, 1⟩
def F.BOOT_STAT_VALIDATING : Fld := ⟨R.BOOT_STAT, 3, 1⟩
def F.BOOT_STAT_LOADING : Fld := ⟨R.BOOT_STAT, 4, 1⟩
def F.BOOT_STAT_SEALED : Fld := ⟨R.BOOT_STAT, 5, 1⟩
def F.BOOT_STAT_LAST_CODE : Fld := ⟨R.BOOT_STAT, 8, 4⟩
def F.BOOT_STAT_CTL_CODE : Fld := ⟨R.BOOT_STAT, 12, 4⟩
def F.BOOT_CTL_USE_B : Fld := ⟨R.BOOT_CTL, 0, 1⟩
def F.BOOT_CTL_RETRY : Fld := ⟨R.BOOT_CTL, 1, 1⟩
def F.BOOT_CTL_KEY : Fld := ⟨R.BOOT_CTL, 16, 16⟩
def F.BOOT_CFG_FL_MODE : Fld := ⟨R.BOOT_CFG, 0, 2⟩
def F.BOOT_REJ_A : Fld := ⟨R.BOOT_REJ, 0, 4⟩
def F.BOOT_REJ_B : Fld := ⟨R.BOOT_REJ, 4, 4⟩
def F.BOOT_FLASH_LOG2 : Fld := ⟨R.BOOT_FLASH, 0, 5⟩
def F.BOOT_FLASH_OCTAL : Fld := ⟨R.BOOT_FLASH, 5, 1⟩
def F.BOOT_FLASH_SFDP_OCTAL : Fld := ⟨R.BOOT_FLASH, 6, 1⟩
def F.BOOT_IMG_SV_SEC_VERSION : Fld := ⟨R.BOOT_IMG_SV, 0, 10⟩
def F.BOOT_VALID_US_duration : Fld := ⟨R.BOOT_VALID_US, 0, 24⟩
def F.BOOT_LOAD_US_duration : Fld := ⟨R.BOOT_LOAD_US, 0, 24⟩
def F.BOOT_FL_CMD_OP : Fld := ⟨R.BOOT_FL_CMD, 0, 3⟩
def F.BOOT_FL_CMD_GO : Fld := ⟨R.BOOT_FL_CMD, 3, 1⟩
def F.BOOT_FL_ADDR_ADDR : Fld := ⟨R.BOOT_FL_ADDR, 0, 28⟩
def F.BOOT_FL_STAT_BUSY : Fld := ⟨R.BOOT_FL_STAT, 0, 1⟩
def F.BOOT_FL_STAT_CODE : Fld := ⟨R.BOOT_FL_STAT, 1, 3⟩
def F.BOOT_MS_CTL_LOAD : Fld := ⟨R.BOOT_MS_CTL, 0, 1⟩
def F.BOOT_MS_CTL_GO : Fld := ⟨R.BOOT_MS_CTL, 1, 1⟩
def F.BOOT_MS_CTL_KEY : Fld := ⟨R.BOOT_MS_CTL, 16, 16⟩
def F.BOOT_MS_STAT_BUSY : Fld := ⟨R.BOOT_MS_STAT, 0, 1⟩
def F.BOOT_MS_STAT_CODE : Fld := ⟨R.BOOT_MS_STAT, 1, 4⟩
def F.BOOT_MS_STAT_ENTRY : Fld := ⟨R.BOOT_MS_STAT, 5, 10⟩
def F.BOOT_MS_LEN_entries : Fld := ⟨R.BOOT_MS_LEN, 0, 10⟩
def F.BOOT_SET_STAT_APPLIED : Fld := ⟨R.BOOT_SET_STAT, 0, 10⟩
def F.BOOT_SET_STAT_IGNORED : Fld := ⟨R.BOOT_SET_STAT, 10, 10⟩
def F.BOOT_SET_STAT_record : Fld := ⟨R.BOOT_SET_STAT, 20, 1⟩
def F.BOOT_SEAL_KEY : Fld := ⟨R.BOOT_SEAL, 0, 16⟩
def F.BOOT_ATTEMPTS_A : Fld := ⟨R.BOOT_ATTEMPTS, 0, 16⟩
def F.BOOT_ATTEMPTS_B : Fld := ⟨R.BOOT_ATTEMPTS, 16, 16⟩
def F.BOOT_SLOTB_BASE_flash : Fld := ⟨R.BOOT_SLOTB_BASE, 0, 28⟩
def F.BOOT_FL_ERR_flash : Fld := ⟨R.BOOT_FL_ERR, 0, 16⟩
def F.BOOT_SECT_NSECT : Fld := ⟨R.BOOT_SECT, 0, 6⟩
def F.BOOT_SECT_bytes : Fld := ⟨R.BOOT_SECT, 8, 24⟩
def F.ID_VENDOR_VENDOR : Fld := ⟨R.ID_VENDOR, 0, 16⟩
def F.ID_VENDOR_PART : Fld := ⟨R.ID_VENDOR, 16, 16⟩
def F.ID_STEPPING_STEPPING : Fld := ⟨R.ID_STEPPING, 0, 8⟩
def F.ID_GEOM_CH : Fld := ⟨R.ID_GEOM, 0, 6⟩
def F.ID_GEOM_DIES : Fld := ⟨R.ID_GEOM, 6, 5⟩
def F.ID_GEOM_DDR : Fld := ⟨R.ID_GEOM, 11, 4⟩
def F.ID_GEOM_PORTS : Fld := ⟨R.ID_GEOM, 15, 4⟩
def F.ID_GEOM_CLUSTERS : Fld := ⟨R.ID_GEOM, 19, 3⟩
def F.ID_MAP_VER_VERSION : Fld := ⟨R.ID_MAP_VER, 0, 16⟩
def F.ID_MAP_VER_REGISTERS : Fld := ⟨R.ID_MAP_VER, 16, 16⟩
def F.ID_ACC_ERR_MGMT : Fld := ⟨R.ID_ACC_ERR, 0, 1⟩
def F.ID_ACC_ERR_CLUSTER : Fld := ⟨R.ID_ACC_ERR, 1, 4⟩
def F.ID_ACC_ERR_CC : Fld := ⟨R.ID_ACC_ERR, 5, 1⟩
def F.ID_UNMAPPED_accesses : Fld := ⟨R.ID_UNMAPPED, 0, 16⟩
def F.ID_UNMAPPED_ADDR_OFFSET : Fld := ⟨R.ID_UNMAPPED_ADDR, 0, 26⟩
def F.ID_UNMAPPED_ADDR_WRITE : Fld := ⟨R.ID_UNMAPPED_ADDR, 30, 1⟩
def F.ID_UNMAPPED_ADDR_VALID : Fld := ⟨R.ID_UNMAPPED_ADDR, 31, 1⟩
def F.ID_FUSE_STAT_the : Fld := ⟨R.ID_FUSE_STAT, 0, 1⟩
def F.ID_FUSE_STAT_root : Fld := ⟨R.ID_FUSE_STAT, 1, 1⟩
def F.ID_FUSE_STAT_vendor : Fld := ⟨R.ID_FUSE_STAT, 2, 1⟩
def F.ID_FUSE_STAT_calibration : Fld := ⟨R.ID_FUSE_STAT, 3, 1⟩
def F.ID_PATH_number : Fld := ⟨R.ID_PATH, 0, 4⟩

end Sys2Proof.Machine
end

