-- ==== Sys2Proof/Machine/RegTable.lean ====
section
/-! DEFINITION. The register tables of the manual: for each register its place, and for each of its fields the bits,
the access code, the reset value and the retention class (R8, R9, R10, R422). Where the table names a source for the
reset value, the row says which; the value beside it is the one the model gives a part as shipped (log 1). -/

namespace Sys2Proof.Machine

/-- Access codes (R9). `sp`: no requester writes. `spm`: the management port writes it after authorisation.
`spmc`: there it clears a bit by writing 1. -/
inductive Acc where
  | ro | rw | w1c | wo | rwl | sp | spm | spmc
deriving DecidableEq, Repr

/-- Retention classes (R10). -/
inductive Cls where
  | a | n | c | w | p | k
deriving DecidableEq, Repr

/-- The source that a Reset column names (R10). -/
inductive RstSrc where
  | none | settings | format | retire | powerrec
deriving DecidableEq, Repr

/-- One field of a register. -/
structure RegField where
  lo : Nat
  len : Nat
  acc : Acc
  reset : Nat
  cls : Cls
  src : RstSrc
deriving DecidableEq, Repr

/-- One register or family of registers: the first offset, (stride, count) for each index, and the fields. -/
structure RegRow where
  off : Nat
  dims : List (Nat × Nat)
  fields : List RegField
deriving DecidableEq, Repr

def hpRows : List RegRow := [
  ⟨0x080000, [(0x10000, 8)], [⟨0, 3, .ro, 0, .c, .none⟩, ⟨3, 1, .ro, 0, .c, .none⟩, ⟨4, 1, .ro, 0, .c, .none⟩]⟩,
  ⟨0x080004, [(0x10000, 8)], [⟨0, 1, .ro, 0, .n, .settings⟩, ⟨1, 2, .ro, 3, .n, .settings⟩, ⟨3, 1, .ro, 1, .n, .settings⟩, ⟨4, 1, .ro, 0, .n, .settings⟩]⟩,
  ⟨0x080008, [(0x10000, 8)], [⟨0, 3, .ro, 6, .p, .none⟩, ⟨3, 5, .ro, 0, .p, .none⟩, ⟨8, 1, .ro, 0, .p, .none⟩, ⟨9, 1, .ro, 0, .p, .none⟩]⟩,
  ⟨0x08000C, [(0x10000, 8)], [⟨0, 1, .w1c, 0, .p, .none⟩, ⟨1, 1, .ro, 0, .c, .none⟩, ⟨2, 1, .ro, 0, .p, .none⟩, ⟨3, 1, .ro, 1, .c, .none⟩, ⟨4, 3, .ro, 1, .c, .none⟩]⟩,
  ⟨0x080010, [(0x10000, 8)], [⟨0, 1, .rw, 1, .c, .none⟩, ⟨1, 1, .wo, 0, .c, .none⟩]⟩,
  ⟨0x080014, [(0x10000, 8)], [⟨0, 1, .ro, 0, .p, .none⟩, ⟨1, 1, .ro, 0, .p, .none⟩, ⟨2, 1, .w1c, 0, .p, .none⟩]⟩,
  ⟨0x080018, [(0x10000, 8)], [⟨0, 1, .ro, 0, .w, .none⟩, ⟨1, 31, .ro, 0, .w, .none⟩]⟩,
  ⟨0x08001C, [(0x10000, 8)], [⟨0, 2, .ro, 0, .c, .none⟩]⟩,
  ⟨0x080020, [(0x10000, 8), (0x8, 16)], [⟨0, 3, .rw, 0, .p, .none⟩]⟩,
  ⟨0x080024, [(0x10000, 8), (0x8, 16)], [⟨0, 32, .ro, 0, .p, .none⟩]⟩,
  ⟨0x0800A0, [(0x10000, 8), (0x8, 8)], [⟨0, 20, .rw, 0, .c, .none⟩, ⟨31, 1, .rw, 0, .c, .none⟩]⟩,
  ⟨0x0800A4, [(0x10000, 8), (0x8, 8)], [⟨0, 21, .rw, 0, .c, .none⟩]⟩,
  ⟨0x0800E0, [(0x10000, 8)], [⟨0, 32, .ro, 0, .w, .none⟩]⟩,
  ⟨0x0800E4, [(0x10000, 8)], [⟨0, 20, .ro, 0, .w, .none⟩, ⟨31, 1, .ro, 0, .w, .none⟩]⟩,
  ⟨0x0800E8, [(0x10000, 8)], [⟨0, 4, .ro, 0, .w, .none⟩, ⟨4, 1, .ro, 0, .w, .none⟩]⟩,
  ⟨0x0800EC, [(0x10000, 8)], [⟨0, 10, .ro, 0, .c, .none⟩, ⟨10, 1, .ro, 0, .c, .none⟩]⟩,
  ⟨0x0800F0, [(0x10000, 8)], [⟨0, 13, .ro, 0, .c, .none⟩, ⟨13, 1, .ro, 0, .c, .none⟩]⟩,
  ⟨0x0800F4, [(0x10000, 8)], [⟨0, 7, .ro, 0, .p, .none⟩, ⟨8, 7, .ro, 0, .p, .none⟩, ⟨16, 7, .ro, 0, .p, .none⟩, ⟨24, 7, .ro, 0, .p, .none⟩]⟩,
  ⟨0x0800F8, [(0x10000, 8)], [⟨0, 1, .w1c, 0, .p, .none⟩, ⟨1, 1, .w1c, 0, .p, .none⟩]⟩,
  ⟨0x0800FC, [(0x10000, 8)], [⟨0, 16, .ro, 0, .p, .none⟩, ⟨16, 1, .ro, 0, .p, .none⟩]⟩,
  ⟨0x080100, [(0x10000, 8), (0x8, 16)], [⟨0, 32, .ro, 0, .w, .none⟩]⟩,
  ⟨0x080104, [(0x10000, 8), (0x8, 16)], [⟨0, 32, .ro, 0, .w, .none⟩]⟩]

def keyRows0 : List RegRow := [
  ⟨0x100000, [], [⟨0, 1, .ro, 0, .c, .format⟩, ⟨1, 1, .ro, 1, .n, .settings⟩]⟩,
  ⟨0x100004, [], [⟨0, 1, .ro, 0, .c, .none⟩, ⟨1, 1, .ro, 0, .c, .none⟩, ⟨2, 1, .ro, 0, .c, .none⟩, ⟨3, 1, .ro, 0, .c, .none⟩]⟩,
  ⟨0x100008, [], [⟨0, 1, .wo, 0, .w, .none⟩, ⟨1, 1, .rw, 0, .w, .none⟩, ⟨2, 2, .rw, 0, .w, .none⟩, ⟨4, 1, .wo, 0, .w, .none⟩]⟩,
  ⟨0x10000C, [], [⟨0, 1, .ro, 0, .c, .none⟩, ⟨1, 4, .ro, 0, .c, .none⟩, ⟨16, 14, .ro, 0, .c, .none⟩]⟩,
  ⟨0x100010, [], [⟨0, 32, .rw, 0, .w, .none⟩]⟩,
  ⟨0x100014, [], [⟨0, 8, .rw, 0, .w, .none⟩]⟩,
  ⟨0x100018, [], [⟨0, 3, .rw, 0, .w, .none⟩, ⟨3, 1, .wo, 0, .w, .none⟩, ⟨4, 1, .wo, 0, .w, .none⟩, ⟨8, 8, .ro, 0, .w, .none⟩]⟩,
  ⟨0x10001C, [(0x4, 8)], [⟨0, 32, .wo, 0, .w, .none⟩]⟩,
  ⟨0x10003C, [], [⟨0, 14, .rw, 0, .c, .none⟩, ⟨16, 1, .ro, 0, .c, .none⟩, ⟨17, 2, .ro, 0, .c, .none⟩, ⟨19, 1, .ro, 0, .c, .none⟩, ⟨20, 1, .ro, 0, .c, .none⟩]⟩,
  ⟨0x100040, [], [⟨0, 15, .ro, 0, .c, .none⟩]⟩,
  ⟨0x100044, [], [⟨0, 15, .rw, 16384, .w, .none⟩, ⟨15, 1, .rw, 1, .w, .none⟩]⟩,
  ⟨0x100048, [], [⟨0, 15, .ro, 0, .w, .none⟩, ⟨16, 7, .ro, 0, .w, .none⟩, ⟨23, 1, .ro, 0, .w, .none⟩]⟩,
  ⟨0x10004C, [], [⟨0, 4, .ro, 0, .a, .none⟩, ⟨4, 4, .ro, 0, .a, .none⟩, ⟨8, 18, .ro, 0, .a, .none⟩, ⟨31, 1, .ro, 0, .a, .none⟩]⟩,
  ⟨0x100050, [], [⟨0, 32, .ro, 0, .a, .none⟩]⟩,
  ⟨0x100054, [], [⟨0, 4, .ro, 0, .a, .none⟩, ⟨4, 1, .ro, 0, .a, .none⟩]⟩,
  ⟨0x100058, [(0x4, 7)], [⟨0, 32, .ro, 0, .c, .none⟩]⟩,
  ⟨0x100074, [], [⟨0, 4, .ro, 0, .c, .none⟩, ⟨4, 18, .ro, 0, .c, .none⟩]⟩,
  ⟨0x100078, [], [⟨0, 32, .ro, 0, .c, .none⟩]⟩,
  ⟨0x10007C, [], [⟨0, 32, .ro, 0, .c, .none⟩]⟩,
  ⟨0x100080, [], [⟨0, 32, .ro, 0, .c, .none⟩]⟩,
  ⟨0x100084, [], [⟨0, 32, .ro, 0, .c, .none⟩]⟩,
  ⟨0x100088, [], [⟨0, 32, .ro, 0, .c, .none⟩]⟩,
  ⟨0x10008C, [], [⟨0, 32, .ro, 0, .c, .none⟩]⟩,
  ⟨0x100090, [], [⟨0, 32, .ro, 0, .c, .none⟩]⟩,
  ⟨0x100094, [], [⟨0, 32, .ro, 0, .c, .none⟩]⟩,
  ⟨0x100098, [], [⟨0, 16, .ro, 0, .a, .none⟩]⟩,
  ⟨0x10009C, [], [⟨0, 24, .ro, 0, .w, .none⟩, ⟨24, 1, .ro, 0, .w, .none⟩]⟩,
  ⟨0x100100, [], [⟨0, 4, .ro, 0, .w, .none⟩, ⟨4, 4, .ro, 0, .w, .none⟩]⟩,
  ⟨0x100104, [], [⟨0, 8, .rw, 64, .w, .none⟩]⟩,
  ⟨0x100108, [], [⟨0, 32, .ro, 0, .c, .none⟩]⟩]

def keyRows1 : List RegRow := [
  ⟨0x10010C, [], [⟨0, 32, .ro, 0, .c, .none⟩]⟩,
  ⟨0x100110, [(0x20, 4)], [⟨0, 18, .rw, 0, .w, .none⟩, ⟨18, 2, .rw, 0, .w, .none⟩, ⟨20, 4, .rw, 15, .w, .none⟩, ⟨24, 1, .wo, 0, .w, .none⟩, ⟨25, 1, .rw, 0, .w, .none⟩, ⟨26, 1, .rw, 0, .w, .none⟩]⟩,
  ⟨0x100114, [(0x20, 4)], [⟨0, 14, .rw, 0, .w, .none⟩, ⟨14, 2, .ro, 0, .w, .none⟩]⟩,
  ⟨0x100118, [(0x20, 4)], [⟨0, 32, .rw, 0, .w, .none⟩]⟩,
  ⟨0x10011C, [(0x20, 4)], [⟨0, 5, .rw, 0, .w, .none⟩]⟩,
  ⟨0x100120, [(0x20, 4)], [⟨0, 3, .ro, 0, .w, .none⟩, ⟨4, 4, .ro, 0, .w, .none⟩, ⟨8, 1, .w1c, 0, .w, .none⟩]⟩]

def keyRows : List RegRow := keyRows0 ++ keyRows1

def qosRows0 : List RegRow := [
  ⟨0x140000, [], [⟨0, 2, .rw, 1, .w, .none⟩, ⟨2, 6, .rw, 15, .w, .none⟩]⟩,
  ⟨0x140004, [], [⟨0, 4, .ro, 0, .c, .none⟩, ⟨4, 1, .ro, 0, .c, .none⟩, ⟨8, 8, .ro, 140, .c, .none⟩]⟩,
  ⟨0x140008, [], [⟨0, 24, .ro, 0, .c, .none⟩]⟩,
  ⟨0x14000C, [], [⟨0, 8, .rw, 16, .w, .none⟩, ⟨8, 1, .rw, 1, .w, .none⟩]⟩,
  ⟨0x140010, [], [⟨0, 32, .ro, 0, .c, .none⟩]⟩,
  ⟨0x140014, [], [⟨0, 32, .ro, 0, .c, .none⟩]⟩,
  ⟨0x140018, [], [⟨0, 32, .ro, 0, .c, .none⟩]⟩,
  ⟨0x14001C, [], [⟨0, 32, .ro, 0, .c, .none⟩]⟩,
  ⟨0x140020, [], [⟨0, 32, .ro, 0, .c, .none⟩]⟩,
  ⟨0x140024, [], [⟨0, 32, .ro, 0, .c, .none⟩]⟩,
  ⟨0x140028, [], [⟨0, 32, .ro, 0, .c, .none⟩]⟩,
  ⟨0x14002C, [], [⟨0, 32, .ro, 0, .c, .none⟩]⟩,
  ⟨0x140030, [], [⟨0, 32, .ro, 0, .c, .none⟩]⟩,
  ⟨0x140034, [], [⟨0, 32, .ro, 0, .c, .none⟩]⟩,
  ⟨0x140040, [(0x20, 8)], [⟨0, 11, .rw, 2047, .w, .none⟩, ⟨16, 16, .rw, 1024, .w, .none⟩]⟩,
  ⟨0x140044, [(0x20, 8)], [⟨0, 10, .rw, 256, .w, .none⟩, ⟨16, 16, .rw, 1024, .w, .none⟩]⟩,
  ⟨0x140048, [], [⟨0, 3, .rw, 0, .w, .none⟩, ⟨3, 1, .rw, 0, .w, .none⟩]⟩,
  ⟨0x140068, [], [⟨0, 3, .rw, 1, .w, .none⟩, ⟨3, 1, .rw, 0, .w, .none⟩]⟩,
  ⟨0x140088, [], [⟨0, 3, .rw, 2, .w, .none⟩, ⟨3, 1, .rw, 0, .w, .none⟩]⟩,
  ⟨0x1400A8, [], [⟨0, 3, .rw, 3, .w, .none⟩, ⟨3, 1, .rw, 0, .w, .none⟩]⟩,
  ⟨0x1400C8, [], [⟨0, 3, .rw, 4, .w, .none⟩, ⟨3, 1, .rw, 0, .w, .none⟩]⟩,
  ⟨0x1400E8, [], [⟨0, 3, .rw, 5, .w, .none⟩, ⟨3, 1, .rw, 0, .w, .none⟩]⟩,
  ⟨0x140108, [], [⟨0, 3, .rw, 6, .w, .none⟩, ⟨3, 1, .rw, 0, .w, .none⟩]⟩,
  ⟨0x140128, [], [⟨0, 3, .rw, 7, .w, .none⟩, ⟨3, 1, .rw, 0, .w, .none⟩]⟩,
  ⟨0x14004C, [(0x20, 8)], [⟨0, 16, .ro, 0, .w, .none⟩, ⟨16, 16, .ro, 0, .w, .none⟩]⟩,
  ⟨0x140050, [(0x20, 8)], [⟨0, 32, .ro, 0, .w, .none⟩]⟩,
  ⟨0x140054, [(0x20, 8)], [⟨0, 24, .ro, 0, .w, .none⟩]⟩,
  ⟨0x140200, [], [⟨0, 12, .ro, 60, .n, .settings⟩]⟩,
  ⟨0x140204, [], [⟨0, 1, .rw, 1, .w, .none⟩]⟩,
  ⟨0x140208, [], [⟨0, 1, .ro, 0, .c, .none⟩, ⟨1, 1, .ro, 0, .c, .none⟩, ⟨2, 1, .w1c, 0, .c, .none⟩]⟩]

def qosRows1 : List RegRow := [
  ⟨0x14020C, [], [⟨0, 32, .ro, 0, .c, .none⟩]⟩,
  ⟨0x140210, [], [⟨0, 32, .ro, 0, .c, .none⟩]⟩,
  ⟨0x140214, [], [⟨0, 32, .ro, 0, .c, .none⟩]⟩,
  ⟨0x140218, [], [⟨0, 32, .ro, 0, .c, .none⟩]⟩,
  ⟨0x14021C, [], [⟨0, 18, .ro, 0, .c, .none⟩]⟩,
  ⟨0x140220, [], [⟨0, 16, .ro, 0, .c, .none⟩]⟩,
  ⟨0x140400, [], [⟨0, 1, .rw, 0, .w, .none⟩, ⟨1, 1, .rw, 0, .w, .none⟩, ⟨2, 1, .wo, 0, .w, .none⟩, ⟨3, 1, .rw, 0, .w, .none⟩]⟩,
  ⟨0x140404, [], [⟨0, 9, .rw, 0, .w, .none⟩]⟩,
  ⟨0x140408, [], [⟨0, 8, .rw, 0, .w, .none⟩]⟩,
  ⟨0x14040C, [], [⟨0, 2, .rw, 0, .w, .none⟩, ⟨2, 1, .rw, 0, .w, .none⟩, ⟨4, 8, .rw, 255, .w, .none⟩, ⟨12, 16, .rw, 65535, .w, .none⟩]⟩,
  ⟨0x140410, [], [⟨8, 24, .rw, 0, .w, .none⟩]⟩,
  ⟨0x140414, [], [⟨0, 12, .rw, 0, .w, .none⟩]⟩,
  ⟨0x140418, [], [⟨8, 24, .rw, 16777215, .w, .none⟩]⟩,
  ⟨0x14041C, [], [⟨0, 12, .rw, 4095, .w, .none⟩]⟩,
  ⟨0x140440, [(0x4, 16)], [⟨0, 32, .rw, 0, .w, .none⟩]⟩,
  ⟨0x140480, [(0x4, 16)], [⟨0, 32, .w1c, 0, .w, .none⟩]⟩,
  ⟨0x1404C0, [(0x4, 16)], [⟨0, 32, .rw, 0, .w, .none⟩]⟩,
  ⟨0x140500, [], [⟨0, 16, .ro, 0, .w, .none⟩]⟩,
  ⟨0x140800, [(0x4, 512)], [⟨0, 32, .ro, 0, .w, .none⟩]⟩]

def qosRows : List RegRow := qosRows0 ++ qosRows1

def mapRows0 : List RegRow := [
  ⟨0x180000, [], [⟨0, 6, .ro, 16, .c, .none⟩, ⟨6, 4, .ro, 4, .c, .none⟩, ⟨10, 7, .ro, 8, .c, .none⟩]⟩,
  ⟨0x180004, [], [⟨0, 6, .ro, 16, .n, .settings⟩, ⟨6, 4, .ro, 4, .n, .settings⟩, ⟨10, 7, .ro, 8, .n, .settings⟩]⟩,
  ⟨0x180008, [], [⟨0, 2, .ro, 0, .c, .format⟩, ⟨2, 1, .ro, 0, .c, .none⟩, ⟨3, 1, .ro, 0, .c, .none⟩, ⟨4, 1, .ro, 0, .c, .none⟩, ⟨5, 1, .ro, 0, .c, .none⟩, ⟨8, 4, .ro, 1, .c, .none⟩]⟩,
  ⟨0x18000C, [], [⟨0, 1, .wo, 0, .c, .none⟩, ⟨1, 3, .ro, 0, .c, .none⟩, ⟨16, 16, .wo, 0, .c, .none⟩]⟩,
  ⟨0x180010, [], [⟨0, 12, .rw, 60, .w, .none⟩]⟩,
  ⟨0x180014, [], [⟨0, 26, .ro, 0, .c, .none⟩]⟩,
  ⟨0x180018, [], [⟨0, 1, .ro, 0, .c, .none⟩, ⟨1, 1, .ro, 0, .c, .none⟩]⟩,
  ⟨0x18001C, [], [⟨0, 32, .ro, 0, .c, .none⟩]⟩,
  ⟨0x180020, [], [⟨0, 32, .ro, 0, .c, .none⟩]⟩,
  ⟨0x180024, [], [⟨0, 28, .ro, 0, .c, .none⟩]⟩,
  ⟨0x180028, [], [⟨0, 28, .ro, 0, .c, .none⟩]⟩,
  ⟨0x18002C, [], [⟨0, 32, .ro, 0, .c, .none⟩]⟩,
  ⟨0x180030, [], [⟨0, 32, .ro, 0, .c, .none⟩]⟩,
  ⟨0x180034, [], [⟨0, 1, .ro, 0, .a, .none⟩, ⟨1, 1, .ro, 0, .a, .none⟩, ⟨16, 16, .ro, 0, .a, .none⟩]⟩,
  ⟨0x180038, [], [⟨0, 24, .ro, 0, .a, .none⟩]⟩,
  ⟨0x18003C, [], [⟨0, 28, .ro, 0, .c, .none⟩]⟩,
  ⟨0x180040, [], [⟨0, 8, .rw, 50, .w, .none⟩, ⟨8, 8, .rw, 25, .w, .none⟩, ⟨16, 16, .rw, 1000, .w, .none⟩]⟩,
  ⟨0x180044, [], [⟨0, 7, .ro, 0, .c, .none⟩, ⟨7, 1, .ro, 0, .c, .none⟩]⟩,
  ⟨0x180048, [], [⟨0, 32, .ro, 0, .c, .none⟩]⟩,
  ⟨0x18004C, [], [⟨0, 32, .ro, 0, .c, .none⟩]⟩,
  ⟨0x180100, [], [⟨0, 8, .rw, 75, .w, .none⟩, ⟨8, 8, .rw, 50, .w, .none⟩]⟩,
  ⟨0x180104, [], [⟨0, 7, .ro, 0, .c, .none⟩, ⟨7, 1, .ro, 0, .c, .none⟩, ⟨8, 1, .ro, 0, .c, .none⟩]⟩,
  ⟨0x180108, [], [⟨0, 32, .ro, 0, .c, .none⟩]⟩,
  ⟨0x18010C, [], [⟨0, 32, .ro, 0, .c, .none⟩]⟩,
  ⟨0x180110, [], [⟨0, 32, .ro, 0, .c, .none⟩]⟩,
  ⟨0x180114, [], [⟨0, 32, .ro, 0, .c, .none⟩]⟩,
  ⟨0x180118, [], [⟨0, 32, .ro, 0, .c, .none⟩]⟩,
  ⟨0x18011C, [], [⟨0, 32, .ro, 0, .c, .none⟩]⟩,
  ⟨0x180120, [], [⟨0, 32, .ro, 0, .c, .none⟩]⟩,
  ⟨0x180124, [], [⟨0, 32, .ro, 0, .c, .none⟩]⟩]

def mapRows1 : List RegRow := [
  ⟨0x180128, [], [⟨0, 32, .ro, 0, .c, .none⟩]⟩,
  ⟨0x18012C, [], [⟨0, 32, .ro, 0, .c, .none⟩]⟩,
  ⟨0x180130, [], [⟨0, 11, .rw, 256, .w, .none⟩]⟩,
  ⟨0x180200, [], [⟨0, 9, .rw, 192, .w, .none⟩, ⟨9, 1, .rw, 1, .w, .none⟩, ⟨16, 8, .rw, 10, .w, .none⟩]⟩,
  ⟨0x180204, [], [⟨0, 16, .rw, 1024, .w, .none⟩, ⟨16, 16, .rw, 256, .w, .none⟩]⟩,
  ⟨0x180208, [], [⟨0, 6, .ro, 0, .c, .none⟩, ⟨6, 1, .ro, 0, .c, .none⟩, ⟨7, 1, .ro, 0, .c, .none⟩]⟩,
  ⟨0x18020C, [], [⟨0, 32, .ro, 0, .c, .none⟩]⟩,
  ⟨0x180210, [], [⟨0, 32, .ro, 0, .c, .none⟩]⟩,
  ⟨0x180214, [], [⟨0, 32, .ro, 0, .c, .none⟩]⟩,
  ⟨0x180218, [], [⟨0, 32, .ro, 0, .c, .none⟩]⟩,
  ⟨0x18021C, [], [⟨0, 32, .ro, 0, .c, .none⟩]⟩,
  ⟨0x180220, [], [⟨0, 32, .ro, 0, .c, .none⟩]⟩,
  ⟨0x180224, [], [⟨0, 32, .ro, 0, .c, .none⟩]⟩,
  ⟨0x180228, [], [⟨0, 32, .ro, 0, .c, .none⟩]⟩,
  ⟨0x18022C, [], [⟨0, 24, .ro, 0, .c, .none⟩]⟩,
  ⟨0x180230, [], [⟨0, 24, .ro, 0, .c, .none⟩]⟩,
  ⟨0x180234, [], [⟨0, 24, .ro, 0, .c, .none⟩]⟩,
  ⟨0x180238, [], [⟨0, 32, .ro, 0, .c, .none⟩]⟩,
  ⟨0x180300, [(0x8, 32)], [⟨0, 20, .ro, 0, .c, .none⟩]⟩,
  ⟨0x180304, [(0x8, 32)], [⟨0, 20, .ro, 0, .c, .none⟩]⟩]

def mapRows : List RegRow := mapRows0 ++ mapRows1

def medRows : List RegRow := [
  ⟨0x1C0100, [(0x1000, 32)], [⟨0, 5, .rw, 10, .w, .none⟩, ⟨5, 5, .rw, 14, .w, .none⟩, ⟨10, 1, .rw, 1, .w, .none⟩, ⟨16, 16, .rw, 2000, .w, .none⟩]⟩,
  ⟨0x1C0104, [(0x1000, 32)], [⟨0, 1, .rw, 1, .w, .none⟩, ⟨1, 2, .rw, 0, .w, .none⟩, ⟨8, 8, .rw, 60, .w, .none⟩]⟩,
  ⟨0x1C0108, [(0x1000, 32)], [⟨0, 7, .ro, 0, .c, .none⟩, ⟨7, 1, .ro, 0, .c, .none⟩, ⟨8, 3, .ro, 0, .c, .none⟩, ⟨11, 1, .w1c, 0, .c, .none⟩, ⟨16, 16, .ro, 0, .c, .none⟩]⟩,
  ⟨0x1C010C, [(0x1000, 32)], [⟨0, 24, .ro, 0, .c, .none⟩]⟩,
  ⟨0x1C0110, [(0x1000, 32)], [⟨0, 32, .ro, 0, .c, .none⟩]⟩,
  ⟨0x1C0114, [(0x1000, 32)], [⟨0, 32, .ro, 0, .c, .none⟩]⟩,
  ⟨0x1C0118, [(0x1000, 32)], [⟨0, 16, .ro, 0, .c, .none⟩, ⟨16, 16, .ro, 0, .c, .none⟩]⟩,
  ⟨0x1C011C, [], [⟨0, 7, .ro, 100, .c, .retire⟩, ⟨7, 7, .ro, 0, .c, .retire⟩, ⟨14, 2, .ro, 0, .c, .retire⟩, ⟨16, 1, .ro, 0, .c, .none⟩, ⟨17, 2, .ro, 0, .c, .none⟩, ⟨19, 1, .ro, 0, .c, .none⟩, ⟨20, 1, .ro, 0, .c, .retire⟩]⟩,
  ⟨0x1C0120, [], [⟨0, 32, .ro, 0, .a, .none⟩]⟩,
  ⟨0x1C0124, [], [⟨0, 25, .ro, 0, .a, .none⟩, ⟨31, 1, .ro, 0, .a, .none⟩]⟩,
  ⟨0x1C0000, [(0x1000, 32)], [⟨0, 1, .wo, 0, .c, .none⟩, ⟨1, 1, .wo, 0, .c, .none⟩, ⟨2, 1, .wo, 0, .c, .none⟩]⟩,
  ⟨0x1C0004, [(0x1000, 32)], [⟨0, 3, .ro, 0, .c, .none⟩, ⟨3, 5, .ro, 0, .c, .none⟩, ⟨8, 1, .ro, 0, .c, .none⟩, ⟨9, 1, .ro, 0, .c, .none⟩]⟩,
  ⟨0x1C0008, [(0x1000, 32)], [⟨0, 16, .rw, 100, .w, .none⟩, ⟨16, 6, .rw, 23, .w, .none⟩]⟩,
  ⟨0x1C000C, [(0x1000, 32)], [⟨0, 6, .ro, 0, .c, .none⟩, ⟨6, 4, .ro, 0, .c, .none⟩, ⟨16, 16, .ro, 0, .c, .none⟩]⟩,
  ⟨0x1C0010, [(0x1000, 32)], [⟨0, 16, .ro, 0, .c, .none⟩]⟩,
  ⟨0x1C0014, [(0x1000, 32)], [⟨0, 16, .ro, 0, .c, .none⟩]⟩,
  ⟨0x1C0018, [(0x1000, 32)], [⟨0, 4, .rw, 0, .w, .none⟩]⟩,
  ⟨0x1C001C, [(0x1000, 32)], [⟨0, 8, .ro, 0, .c, .none⟩, ⟨16, 16, .ro, 0, .c, .none⟩]⟩,
  ⟨0x1C0020, [(0x1000, 32)], [⟨0, 12, .ro, 0, .c, .none⟩, ⟨12, 1, .ro, 0, .c, .none⟩, ⟨13, 3, .ro, 0, .c, .none⟩, ⟨16, 3, .ro, 0, .c, .none⟩]⟩,
  ⟨0x1C0024, [(0x1000, 32)], [⟨0, 12, .ro, 0, .c, .none⟩, ⟨12, 4, .ro, 0, .c, .none⟩]⟩,
  ⟨0x1C0028, [(0x1000, 32)], [⟨0, 16, .ro, 0, .c, .none⟩, ⟨16, 3, .ro, 0, .c, .none⟩, ⟨19, 4, .ro, 0, .c, .none⟩]⟩,
  ⟨0x1C002C, [(0x1000, 32)], [⟨0, 16, .ro, 0, .c, .none⟩, ⟨16, 8, .ro, 0, .c, .none⟩, ⟨24, 4, .ro, 0, .c, .none⟩]⟩,
  ⟨0x1C0030, [(0x1000, 32)], [⟨0, 32, .ro, 0, .c, .none⟩]⟩,
  ⟨0x1C0034, [(0x1000, 32)], [⟨0, 32, .ro, 0, .c, .none⟩]⟩]

def engRows0 : List RegRow := [
  ⟨0x200000, [(0x20, 32)], [⟨0, 18, .rw, 0, .k, .none⟩, ⟨18, 6, .rw, 0, .k, .none⟩, ⟨30, 1, .wo, 0, .k, .none⟩, ⟨31, 1, .rw, 0, .k, .none⟩]⟩,
  ⟨0x200004, [(0x20, 32)], [⟨0, 18, .rw, 0, .k, .none⟩, ⟨31, 1, .rw, 0, .k, .none⟩]⟩,
  ⟨0x200008, [(0x20, 32)], [⟨0, 32, .rw, 0, .k, .none⟩]⟩,
  ⟨0x20000C, [(0x20, 32)], [⟨0, 5, .rw, 0, .k, .none⟩, ⟨8, 6, .rw, 0, .k, .none⟩, ⟨16, 6, .rw, 0, .k, .none⟩, ⟨24, 8, .rw, 0, .k, .none⟩]⟩,
  ⟨0x200010, [(0x20, 32)], [⟨0, 3, .ro, 0, .k, .none⟩, ⟨8, 4, .ro, 0, .k, .none⟩, ⟨16, 8, .ro, 0, .k, .none⟩]⟩,
  ⟨0x200014, [(0x20, 32)], [⟨0, 32, .ro, 0, .k, .none⟩]⟩,
  ⟨0x200018, [(0x20, 32)], [⟨0, 32, .ro, 0, .k, .none⟩]⟩,
  ⟨0x20001C, [(0x20, 32)], [⟨0, 16, .ro, 0, .k, .none⟩, ⟨16, 8, .ro, 0, .k, .none⟩, ⟨31, 1, .w1c, 0, .k, .none⟩]⟩,
  ⟨0x200400, [], [⟨0, 1, .rw, 1, .w, .none⟩, ⟨1, 1, .rw, 1, .w, .none⟩]⟩,
  ⟨0x200404, [], [⟨0, 4, .ro, 0, .c, .none⟩, ⟨4, 6, .ro, 0, .c, .none⟩, ⟨10, 6, .ro, 0, .c, .none⟩, ⟨16, 1, .ro, 0, .c, .none⟩]⟩,
  ⟨0x200408, [], [⟨0, 4, .rw, 15, .w, .none⟩, ⟨4, 6, .rw, 0, .w, .none⟩, ⟨10, 6, .rw, 0, .w, .none⟩, ⟨16, 1, .wo, 0, .w, .none⟩, ⟨17, 1, .wo, 0, .w, .none⟩]⟩,
  ⟨0x20040C, [], [⟨0, 1, .ro, 0, .w, .none⟩, ⟨1, 3, .ro, 0, .w, .none⟩, ⟨4, 6, .ro, 0, .w, .none⟩, ⟨10, 6, .ro, 0, .w, .none⟩]⟩,
  ⟨0x200410, [], [⟨12, 20, .rw, 0, .w, .none⟩]⟩,
  ⟨0x200414, [], [⟨0, 8, .rw, 0, .w, .none⟩]⟩,
  ⟨0x200418, [(0x4, 12)], [⟨0, 32, .ro, 0, .w, .none⟩]⟩,
  ⟨0x200448, [], [⟨0, 4, .rw, 15, .w, .none⟩]⟩,
  ⟨0x20044C, [], [⟨0, 1, .ro, 0, .c, .none⟩, ⟨1, 20, .ro, 0, .c, .none⟩]⟩,
  ⟨0x200450, [], [⟨0, 32, .ro, 0, .c, .none⟩]⟩,
  ⟨0x200454, [], [⟨0, 32, .ro, 0, .c, .none⟩]⟩,
  ⟨0x200458, [], [⟨0, 32, .ro, 0, .c, .none⟩]⟩,
  ⟨0x20045C, [], [⟨0, 32, .ro, 0, .c, .none⟩]⟩,
  ⟨0x200460, [(0x8, 4)], [⟨0, 1, .wo, 0, .w, .none⟩, ⟨1, 1, .rw, 0, .w, .none⟩, ⟨2, 1, .wo, 0, .w, .none⟩]⟩,
  ⟨0x200464, [(0x8, 4)], [⟨0, 1, .ro, 0, .c, .none⟩, ⟨1, 1, .ro, 0, .c, .none⟩, ⟨2, 8, .ro, 0, .c, .none⟩, ⟨10, 8, .ro, 0, .c, .none⟩]⟩,
  ⟨0x201000, [], [⟨0, 20, .rw, 100, .w, .none⟩]⟩,
  ⟨0x201004, [], [⟨0, 32, .ro, 0, .c, .none⟩]⟩,
  ⟨0x201008, [], [⟨0, 3, .rw, 0, .w, .none⟩, ⟨3, 4, .rw, 15, .w, .none⟩, ⟨7, 1, .wo, 0, .w, .none⟩]⟩,
  ⟨0x20100C, [], [⟨0, 1, .ro, 0, .c, .none⟩, ⟨1, 3, .ro, 0, .c, .none⟩, ⟨8, 24, .ro, 0, .c, .none⟩]⟩,
  ⟨0x201010, [], [⟨6, 26, .rw, 0, .w, .none⟩]⟩,
  ⟨0x201014, [], [⟨0, 12, .rw, 0, .w, .none⟩]⟩,
  ⟨0x201018, [], [⟨0, 24, .rw, 0, .w, .none⟩]⟩]

def engRows1 : List RegRow := [
  ⟨0x20101C, [], [⟨0, 14, .rw, 0, .w, .none⟩]⟩,
  ⟨0x201020, [], [⟨0, 32, .ro, 0, .c, .none⟩]⟩,
  ⟨0x201024, [], [⟨0, 32, .ro, 0, .c, .none⟩]⟩,
  ⟨0x201028, [], [⟨0, 32, .ro, 0, .c, .none⟩]⟩,
  ⟨0x20102C, [], [⟨0, 32, .ro, 0, .c, .none⟩]⟩,
  ⟨0x201100, [(0x20, 4)], [⟨0, 4, .rw, 0, .w, .none⟩, ⟨8, 1, .rw, 0, .w, .none⟩]⟩,
  ⟨0x201104, [(0x20, 4)], [⟨0, 16, .rw, 0, .w, .none⟩]⟩,
  ⟨0x201108, [(0x20, 4)], [⟨0, 5, .ro, 16, .c, .none⟩, ⟨5, 1, .w1c, 0, .c, .none⟩, ⟨16, 16, .ro, 0, .c, .none⟩]⟩,
  ⟨0x20110C, [(0x20, 4)], [⟨0, 12, .ro, 0, .c, .none⟩, ⟨12, 8, .ro, 0, .c, .none⟩, ⟨20, 8, .ro, 0, .c, .none⟩]⟩,
  ⟨0x201110, [(0x20, 4)], [⟨0, 32, .ro, 0, .c, .none⟩]⟩,
  ⟨0x201114, [(0x20, 4)], [⟨0, 32, .ro, 0, .c, .none⟩]⟩,
  ⟨0x201118, [(0x20, 4)], [⟨0, 32, .ro, 0, .c, .none⟩]⟩,
  ⟨0x20111C, [(0x20, 4)], [⟨0, 32, .ro, 0, .c, .none⟩]⟩]

def engRows : List RegRow := engRows0 ++ engRows1

def stqRows0 : List RegRow := [
  ⟨0x280000, [], [⟨0, 13, .ro, 0, .n, .settings⟩]⟩,
  ⟨0x280004, [], [⟨0, 1, .wo, 0, .c, .none⟩]⟩,
  ⟨0x280008, [], [⟨0, 13, .ro, 0, .c, .none⟩, ⟨13, 1, .ro, 0, .c, .none⟩, ⟨14, 1, .ro, 0, .c, .none⟩, ⟨16, 13, .ro, 0, .c, .none⟩]⟩,
  ⟨0x28000C, [], [⟨0, 12, .rw, 0, .w, .none⟩]⟩,
  ⟨0x280010, [], [⟨0, 8, .rw, 16, .w, .none⟩, ⟨8, 8, .rw, 10, .w, .none⟩]⟩,
  ⟨0x280014, [], [⟨0, 17, .ro, 0, .c, .none⟩]⟩,
  ⟨0x280018, [], [⟨0, 32, .ro, 0, .c, .none⟩]⟩,
  ⟨0x28001C, [], [⟨0, 8, .ro, 0, .c, .none⟩, ⟨8, 8, .ro, 0, .c, .none⟩, ⟨16, 4, .ro, 0, .c, .none⟩, ⟨20, 4, .ro, 0, .c, .none⟩, ⟨24, 8, .ro, 0, .c, .none⟩]⟩,
  ⟨0x280020, [], [⟨0, 32, .ro, 0, .c, .none⟩]⟩,
  ⟨0x280024, [], [⟨0, 32, .ro, 0, .c, .none⟩]⟩,
  ⟨0x280028, [], [⟨0, 32, .ro, 0, .c, .none⟩]⟩,
  ⟨0x28002C, [], [⟨0, 32, .ro, 0, .c, .none⟩]⟩,
  ⟨0x280030, [], [⟨0, 32, .ro, 0, .c, .none⟩]⟩,
  ⟨0x280034, [], [⟨0, 32, .ro, 0, .c, .none⟩]⟩,
  ⟨0x280038, [], [⟨0, 32, .ro, 0, .c, .none⟩]⟩,
  ⟨0x28003C, [], [⟨0, 32, .ro, 0, .c, .none⟩]⟩,
  ⟨0x280040, [], [⟨0, 2, .rw, 0, .w, .none⟩, ⟨2, 1, .rw, 0, .w, .none⟩, ⟨3, 1, .rw, 0, .w, .none⟩, ⟨4, 5, .rw, 0, .w, .none⟩, ⟨16, 8, .rw, 0, .w, .none⟩]⟩,
  ⟨0x280044, [], [⟨0, 18, .rw, 0, .w, .none⟩, ⟨18, 12, .rw, 0, .w, .none⟩]⟩,
  ⟨0x280048, [], [⟨0, 9, .rw, 0, .w, .none⟩, ⟨9, 12, .rw, 0, .w, .none⟩, ⟨21, 2, .rw, 0, .w, .none⟩]⟩,
  ⟨0x28004C, [], [⟨0, 17, .rw, 0, .w, .none⟩]⟩,
  ⟨0x280050, [], [⟨0, 1, .wo, 0, .w, .none⟩, ⟨1, 1, .wo, 0, .w, .none⟩, ⟨2, 1, .wo, 0, .w, .none⟩, ⟨3, 1, .wo, 0, .w, .none⟩]⟩,
  ⟨0x280054, [], [⟨0, 3, .ro, 0, .w, .none⟩, ⟨3, 4, .ro, 0, .w, .none⟩, ⟨7, 1, .ro, 0, .w, .none⟩, ⟨8, 1, .ro, 0, .w, .none⟩, ⟨9, 1, .ro, 0, .w, .none⟩, ⟨10, 8, .ro, 0, .w, .none⟩]⟩,
  ⟨0x280058, [], [⟨0, 17, .ro, 0, .w, .none⟩]⟩,
  ⟨0x28005C, [], [⟨0, 17, .ro, 0, .w, .none⟩]⟩,
  ⟨0x280060, [], [⟨0, 32, .ro, 0, .w, .none⟩]⟩,
  ⟨0x280064, [], [⟨0, 32, .ro, 0, .w, .none⟩]⟩,
  ⟨0x280068, [], [⟨0, 32, .ro, 0, .w, .none⟩]⟩,
  ⟨0x28006C, [], [⟨0, 32, .ro, 0, .w, .none⟩]⟩,
  ⟨0x280070, [], [⟨0, 32, .ro, 0, .w, .none⟩]⟩,
  ⟨0x280074, [], [⟨0, 32, .ro, 0, .w, .none⟩]⟩]

def stqRows1 : List RegRow := [
  ⟨0x280078, [], [⟨0, 32, .ro, 0, .w, .none⟩]⟩,
  ⟨0x28007C, [], [⟨6, 6, .rw, 0, .w, .none⟩]⟩,
  ⟨0x280100, [(0x4, 64)], [⟨0, 17, .ro, 0, .w, .none⟩]⟩]

def stqRows : List RegRow := stqRows0 ++ stqRows1

def orbRows0 : List RegRow := [
  ⟨0x300000, [], [⟨0, 9, .ro, 0, .n, .settings⟩, ⟨16, 16, .ro, 0, .n, .settings⟩]⟩,
  ⟨0x300004, [], [⟨0, 16, .ro, 34997, .n, .settings⟩, ⟨16, 3, .ro, 3, .n, .settings⟩, ⟨19, 1, .ro, 0, .n, .settings⟩, ⟨20, 1, .ro, 0, .n, .settings⟩, ⟨21, 11, .ro, 16, .n, .settings⟩]⟩,
  ⟨0x300008, [], [⟨0, 8, .rw, 10, .w, .none⟩, ⟨8, 8, .rw, 10, .w, .none⟩, ⟨16, 8, .rw, 50, .w, .none⟩, ⟨24, 8, .rw, 20, .w, .none⟩]⟩,
  ⟨0x30000C, [], [⟨0, 1, .wo, 0, .c, .none⟩]⟩,
  ⟨0x300010, [], [⟨0, 3, .ro, 0, .c, .none⟩]⟩,
  ⟨0x300014, [], [⟨0, 32, .ro, 0, .c, .none⟩]⟩,
  ⟨0x300018, [], [⟨0, 9, .ro, 0, .c, .none⟩, ⟨9, 9, .ro, 0, .c, .none⟩, ⟨18, 1, .ro, 0, .c, .none⟩, ⟨19, 1, .ro, 0, .c, .none⟩]⟩,
  ⟨0x30001C, [], [⟨0, 10, .ro, 0, .c, .none⟩, ⟨16, 10, .ro, 0, .c, .none⟩]⟩,
  ⟨0x300020, [], [⟨0, 32, .ro, 0, .c, .none⟩]⟩,
  ⟨0x300024, [], [⟨0, 32, .ro, 0, .c, .none⟩]⟩,
  ⟨0x300028, [], [⟨0, 21, .ro, 0, .c, .none⟩]⟩,
  ⟨0x30002C, [], [⟨0, 32, .ro, 0, .c, .none⟩]⟩,
  ⟨0x300030, [], [⟨0, 32, .ro, 0, .c, .none⟩]⟩,
  ⟨0x300034, [], [⟨0, 32, .ro, 0, .c, .none⟩]⟩,
  ⟨0x300038, [], [⟨0, 16, .ro, 0, .c, .none⟩, ⟨16, 1, .w1c, 0, .c, .none⟩]⟩,
  ⟨0x30003C, [], [⟨0, 12, .ro, 0, .c, .none⟩]⟩,
  ⟨0x300040, [], [⟨0, 9, .rw, 0, .w, .none⟩]⟩,
  ⟨0x300044, [], [⟨0, 1, .rw, 0, .w, .none⟩, ⟨1, 14, .rw, 0, .w, .none⟩, ⟨15, 1, .rw, 0, .w, .none⟩]⟩,
  ⟨0x300048, [], [⟨0, 1, .ro, 0, .c, .none⟩, ⟨1, 1, .ro, 0, .c, .none⟩, ⟨2, 1, .ro, 0, .c, .none⟩, ⟨3, 1, .ro, 0, .c, .none⟩, ⟨16, 16, .ro, 0, .c, .none⟩]⟩,
  ⟨0x30004C, [], [⟨0, 12, .rw, 256, .w, .none⟩, ⟨16, 12, .ro, 0, .w, .none⟩]⟩,
  ⟨0x300050, [], [⟨0, 20, .ro, 0, .c, .none⟩]⟩,
  ⟨0x300054, [], [⟨0, 32, .ro, 0, .c, .none⟩]⟩,
  ⟨0x300058, [], [⟨0, 32, .ro, 0, .c, .none⟩]⟩,
  ⟨0x30005C, [], [⟨0, 32, .ro, 0, .c, .none⟩]⟩,
  ⟨0x300060, [], [⟨0, 32, .ro, 0, .c, .none⟩]⟩,
  ⟨0x300064, [], [⟨0, 32, .ro, 0, .c, .none⟩]⟩,
  ⟨0x300068, [], [⟨0, 32, .ro, 0, .c, .none⟩]⟩,
  ⟨0x30006C, [], [⟨0, 10, .ro, 0, .c, .none⟩]⟩,
  ⟨0x300100, [(0x40, 2)], [⟨0, 1, .ro, 0, .c, .none⟩, ⟨1, 1, .ro, 0, .c, .none⟩, ⟨2, 1, .ro, 0, .c, .none⟩]⟩,
  ⟨0x300104, [(0x40, 2)], [⟨0, 32, .ro, 0, .c, .none⟩]⟩]

def orbRows1 : List RegRow := [
  ⟨0x300108, [(0x40, 2)], [⟨0, 32, .ro, 0, .c, .none⟩]⟩,
  ⟨0x30010C, [(0x40, 2)], [⟨0, 32, .ro, 0, .c, .none⟩]⟩,
  ⟨0x300110, [(0x40, 2)], [⟨0, 32, .ro, 0, .c, .none⟩]⟩,
  ⟨0x300114, [(0x40, 2)], [⟨0, 32, .ro, 0, .c, .none⟩]⟩,
  ⟨0x300118, [(0x40, 2)], [⟨0, 32, .ro, 0, .c, .none⟩]⟩,
  ⟨0x30011C, [(0x40, 2)], [⟨0, 32, .ro, 0, .c, .none⟩]⟩,
  ⟨0x300120, [(0x40, 2)], [⟨0, 32, .ro, 0, .c, .none⟩]⟩,
  ⟨0x300124, [(0x40, 2)], [⟨0, 32, .ro, 0, .c, .none⟩]⟩,
  ⟨0x300128, [(0x40, 2)], [⟨0, 32, .ro, 0, .c, .none⟩]⟩,
  ⟨0x30012C, [(0x40, 2)], [⟨0, 32, .ro, 0, .c, .none⟩]⟩,
  ⟨0x300200, [], [⟨0, 16, .rw, 200, .w, .none⟩, ⟨16, 1, .rw, 0, .w, .none⟩]⟩,
  ⟨0x300204, [], [⟨0, 18, .ro, 0, .c, .none⟩, ⟨18, 14, .ro, 0, .c, .none⟩]⟩,
  ⟨0x300208, [], [⟨0, 32, .ro, 0, .c, .none⟩]⟩,
  ⟨0x30020C, [], [⟨0, 32, .ro, 0, .c, .none⟩]⟩,
  ⟨0x300210, [], [⟨0, 32, .ro, 0, .c, .none⟩]⟩,
  ⟨0x300214, [], [⟨0, 24, .ro, 0, .c, .none⟩]⟩,
  ⟨0x300218, [], [⟨0, 28, .ro, 0, .c, .none⟩]⟩,
  ⟨0x300240, [(0x10, 2)], [⟨0, 18, .rw, 0, .w, .none⟩, ⟨18, 2, .rw, 0, .w, .none⟩, ⟨20, 4, .rw, 15, .w, .none⟩, ⟨24, 1, .wo, 0, .w, .none⟩, ⟨25, 1, .rw, 0, .w, .none⟩]⟩,
  ⟨0x300244, [(0x10, 2)], [⟨0, 3, .ro, 0, .w, .none⟩, ⟨3, 4, .ro, 0, .w, .none⟩]⟩,
  ⟨0x300248, [(0x10, 2)], [⟨0, 28, .ro, 0, .w, .none⟩]⟩,
  ⟨0x300260, [], [⟨0, 32, .ro, 0, .c, .none⟩]⟩,
  ⟨0x300264, [], [⟨0, 32, .ro, 0, .c, .none⟩]⟩,
  ⟨0x300280, [], [⟨0, 32, .ro, 0, .c, .none⟩]⟩,
  ⟨0x300284, [], [⟨0, 32, .ro, 0, .c, .none⟩]⟩,
  ⟨0x300288, [], [⟨0, 32, .ro, 0, .c, .none⟩]⟩,
  ⟨0x30028C, [], [⟨0, 32, .ro, 0, .c, .none⟩]⟩,
  ⟨0x300290, [], [⟨0, 32, .ro, 0, .c, .none⟩]⟩,
  ⟨0x300300, [], [⟨0, 10, .rw, 0, .w, .none⟩]⟩,
  ⟨0x300304, [], [⟨0, 32, .ro, 0, .c, .none⟩]⟩,
  ⟨0x300308, [], [⟨0, 32, .ro, 0, .c, .none⟩]⟩]

def orbRows2 : List RegRow := [
  ⟨0x30030C, [], [⟨0, 10, .wo, 0, .c, .none⟩, ⟨10, 4, .wo, 0, .c, .none⟩, ⟨31, 1, .wo, 0, .c, .none⟩]⟩,
  ⟨0x300310, [], [⟨0, 16, .rw, 0, .c, .none⟩]⟩,
  ⟨0x300314, [], [⟨0, 4, .ro, 0, .c, .none⟩, ⟨4, 10, .ro, 0, .c, .none⟩]⟩,
  ⟨0x300318, [], [⟨0, 32, .ro, 0, .c, .none⟩]⟩,
  ⟨0x30031C, [], [⟨0, 16, .ro, 0, .c, .none⟩]⟩]

def orbRows : List RegRow := orbRows0 ++ orbRows1 ++ orbRows2

def thmRows : List RegRow := [
  ⟨0x390000, [], [⟨0, 12, .ro, 0, .a, .none⟩, ⟨16, 12, .ro, 0, .a, .none⟩]⟩,
  ⟨0x390004, [], [⟨0, 16, .ro, 0, .a, .none⟩, ⟨16, 9, .ro, 0, .a, .none⟩]⟩,
  ⟨0x390008, [], [⟨0, 4, .sp, 0, .a, .none⟩, ⟨4, 1, .sp, 0, .a, .none⟩, ⟨5, 1, .sp, 0, .a, .none⟩, ⟨6, 1, .sp, 0, .a, .none⟩, ⟨7, 1, .sp, 0, .a, .none⟩, ⟨8, 1, .sp, 0, .a, .none⟩]⟩,
  ⟨0x39000C, [], [⟨0, 8, .ro, 95, .n, .settings⟩, ⟨8, 4, .ro, 5, .n, .settings⟩, ⟨12, 4, .ro, 4, .n, .settings⟩]⟩,
  ⟨0x390010, [], [⟨0, 8, .ro, 100, .n, .settings⟩, ⟨8, 8, .ro, 110, .n, .settings⟩]⟩,
  ⟨0x390014, [], [⟨0, 6, .ro, 12, .n, .settings⟩]⟩,
  ⟨0x390018, [], [⟨0, 12, .ro, 0, .a, .none⟩, ⟨16, 12, .ro, 0, .a, .none⟩]⟩,
  ⟨0x39001C, [], [⟨0, 3, .ro, 0, .a, .none⟩, ⟨4, 12, .ro, 0, .a, .none⟩, ⟨31, 1, .ro, 0, .a, .none⟩]⟩,
  ⟨0x390020, [(0x4, 16)], [⟨0, 32, .ro, 0, .a, .none⟩]⟩]

def nvsRows : List RegRow := [
  ⟨0x3A0000, [], [⟨0, 1, .sp, 0, .a, .none⟩, ⟨1, 1, .sp, 0, .a, .none⟩, ⟨2, 1, .spmc, 0, .a, .none⟩, ⟨3, 1, .spmc, 0, .a, .none⟩, ⟨4, 1, .sp, 0, .a, .none⟩, ⟨5, 1, .spmc, 0, .a, .none⟩]⟩,
  ⟨0x3A0004, [], [⟨0, 11, .ro, 0, .a, .none⟩, ⟨11, 5, .ro, 0, .a, .none⟩, ⟨16, 16, .ro, 0, .a, .none⟩]⟩,
  ⟨0x3A0008, [], [⟨0, 6, .wo, 0, .a, .none⟩, ⟨31, 1, .wo, 0, .a, .none⟩]⟩,
  ⟨0x3A000C, [], [⟨0, 32, .ro, 0, .a, .none⟩]⟩,
  ⟨0x3A0010, [], [⟨0, 32, .ro, 0, .a, .none⟩]⟩,
  ⟨0x3A0014, [], [⟨0, 32, .ro, 0, .a, .none⟩]⟩,
  ⟨0x3A0018, [], [⟨0, 32, .ro, 0, .a, .none⟩]⟩,
  ⟨0x3A001C, [], [⟨0, 5, .ro, 0, .a, .none⟩, ⟨8, 5, .ro, 0, .a, .none⟩]⟩,
  ⟨0x3A0020, [(0x4, 8)], [⟨0, 1, .ro, 0, .a, .none⟩, ⟨1, 1, .ro, 0, .a, .none⟩, ⟨2, 1, .ro, 0, .a, .none⟩, ⟨3, 1, .ro, 0, .a, .none⟩, ⟨4, 1, .ro, 0, .a, .none⟩]⟩,
  ⟨0x3A0040, [(0x4, 8)], [⟨0, 32, .ro, 0, .a, .none⟩]⟩,
  ⟨0x3A0060, [], [⟨0, 16, .ro, 0, .a, .none⟩]⟩,
  ⟨0x3A0064, [], [⟨0, 12, .ro, 2048, .a, .none⟩, ⟨12, 9, .ro, 256, .a, .none⟩]⟩,
  ⟨0x3A0068, [], [⟨0, 32, .ro, 0, .a, .none⟩]⟩,
  ⟨0x3A006C, [], [⟨0, 32, .ro, 0, .a, .none⟩]⟩,
  ⟨0x3A0070, [], [⟨0, 32, .ro, 0, .a, .none⟩]⟩,
  ⟨0x3A0074, [], [⟨0, 16, .ro, 0, .a, .none⟩]⟩,
  ⟨0x3A0078, [], [⟨0, 16, .ro, 0, .a, .none⟩, ⟨16, 1, .ro, 0, .a, .none⟩]⟩,
  ⟨0x3A007C, [], [⟨0, 16, .ro, 0, .a, .none⟩]⟩]

def evrRows : List RegRow := [
  ⟨0x3B0000, [], [⟨0, 1, .ro, 0, .a, .none⟩, ⟨1, 1, .ro, 0, .a, .none⟩, ⟨2, 1, .ro, 0, .a, .none⟩, ⟨3, 4, .ro, 0, .a, .none⟩]⟩,
  ⟨0x3B0004, [], [⟨0, 32, .ro, 0, .a, .none⟩]⟩,
  ⟨0x3B0008, [], [⟨0, 32, .ro, 0, .a, .none⟩]⟩,
  ⟨0x3B000C, [], [⟨0, 13, .ro, 0, .a, .none⟩]⟩,
  ⟨0x3B0010, [], [⟨0, 17, .ro, 0, .a, .none⟩]⟩,
  ⟨0x3B0014, [], [⟨0, 32, .ro, 0, .a, .none⟩]⟩,
  ⟨0x3B0018, [], [⟨0, 32, .ro, 0, .a, .none⟩]⟩,
  ⟨0x3B001C, [], [⟨0, 32, .ro, 0, .a, .none⟩]⟩,
  ⟨0x3B0020, [], [⟨0, 16, .wo, 0, .a, .none⟩, ⟨31, 1, .wo, 0, .a, .none⟩]⟩,
  ⟨0x3B0024, [], [⟨0, 32, .spm, 0, .a, .none⟩]⟩,
  ⟨0x3B0028, [], [⟨0, 8, .ro, 0, .a, .none⟩, ⟨8, 8, .ro, 0, .a, .none⟩]⟩,
  ⟨0x3B002C, [], [⟨0, 16, .ro, 0, .a, .none⟩]⟩,
  ⟨0x3B0030, [], [⟨0, 7, .ro, 0, .a, .none⟩, ⟨8, 7, .ro, 0, .a, .none⟩]⟩,
  ⟨0x3B0034, [], [⟨0, 13, .ro, 0, .a, .none⟩, ⟨16, 1, .ro, 0, .a, .none⟩]⟩,
  ⟨0x3B0038, [], [⟨0, 32, .ro, 0, .a, .none⟩]⟩,
  ⟨0x3B003C, [], [⟨0, 32, .ro, 0, .a, .none⟩]⟩]

def kvcRows : List RegRow := [
  ⟨0x3C0000, [], [⟨0, 2, .spm, 0, .c, .none⟩]⟩,
  ⟨0x3C0004, [], [⟨0, 4, .spm, 0, .c, .none⟩, ⟨4, 4, .spm, 0, .c, .none⟩, ⟨8, 1, .wo, 0, .c, .none⟩]⟩,
  ⟨0x3C0008, [], [⟨0, 13, .spm, 0, .c, .none⟩, ⟨16, 13, .spm, 0, .c, .none⟩]⟩,
  ⟨0x3C000C, [], [⟨0, 1, .sp, 0, .c, .none⟩, ⟨1, 1, .sp, 0, .c, .none⟩, ⟨2, 3, .sp, 0, .c, .none⟩]⟩,
  ⟨0x3C0010, [(0x4, 3)], [⟨0, 32, .spm, 0, .c, .none⟩]⟩,
  ⟨0x3C001C, [(0x4, 4)], [⟨0, 32, .spm, 0, .c, .none⟩]⟩,
  ⟨0x3C002C, [(0x4, 4)], [⟨0, 32, .ro, 0, .c, .none⟩]⟩,
  ⟨0x3C003C, [], [⟨0, 1, .ro, 0, .c, .none⟩, ⟨1, 16, .ro, 0, .c, .none⟩]⟩,
  ⟨0x3C0040, [], [⟨0, 12, .ro, 60, .n, .settings⟩, ⟨12, 8, .ro, 16, .n, .settings⟩, ⟨20, 1, .ro, 0, .n, .settings⟩]⟩,
  ⟨0x3C0044, [], [⟨0, 16, .ro, 0, .c, .none⟩]⟩,
  ⟨0x3C0048, [], [⟨0, 7, .ro, 0, .a, .none⟩, ⟨7, 2, .ro, 0, .a, .none⟩]⟩,
  ⟨0x3C004C, [], [⟨0, 16, .ro, 0, .a, .none⟩]⟩,
  ⟨0x3C0050, [], [⟨0, 32, .ro, 0, .a, .none⟩]⟩,
  ⟨0x3C0054, [], [⟨0, 32, .ro, 0, .a, .none⟩]⟩,
  ⟨0x3C0058, [], [⟨0, 8, .ro, 0, .a, .none⟩, ⟨16, 16, .ro, 0, .a, .none⟩]⟩,
  ⟨0x3C005C, [], [⟨0, 20, .ro, 0, .c, .none⟩]⟩]

def seqRows : List RegRow := [
  ⟨0x380000, [], [⟨0, 1, .ro, 1, .n, .settings⟩, ⟨1, 1, .ro, 0, .n, .settings⟩, ⟨2, 1, .ro, 1, .n, .settings⟩, ⟨3, 8, .ro, 98, .n, .settings⟩, ⟨11, 1, .ro, 0, .c, .none⟩, ⟨12, 16, .ro, 30, .n, .settings⟩]⟩,
  ⟨0x380004, [], [⟨0, 3, .sp, 0, .a, .none⟩, ⟨3, 8, .sp, 0, .a, .none⟩, ⟨11, 5, .sp, 0, .a, .none⟩, ⟨16, 1, .sp, 0, .a, .none⟩, ⟨17, 1, .sp, 0, .a, .none⟩, ⟨18, 1, .sp, 0, .a, .none⟩, ⟨19, 1, .sp, 0, .a, .none⟩]⟩,
  ⟨0x380008, [], [⟨0, 1, .wo, 0, .c, .none⟩, ⟨1, 1, .wo, 0, .c, .none⟩, ⟨2, 1, .wo, 0, .c, .none⟩]⟩,
  ⟨0x38000C, [], [⟨0, 5, .sp, 0, .a, .powerrec⟩, ⟨5, 8, .sp, 0, .a, .powerrec⟩, ⟨13, 3, .sp, 0, .a, .powerrec⟩, ⟨31, 1, .sp, 0, .a, .powerrec⟩]⟩,
  ⟨0x380010, [], [⟨0, 32, .ro, 0, .a, .none⟩]⟩,
  ⟨0x380014, [], [⟨0, 32, .ro, 0, .a, .none⟩]⟩,
  ⟨0x380018, [], [⟨0, 24, .ro, 0, .a, .none⟩]⟩,
  ⟨0x38001C, [], [⟨0, 24, .ro, 0, .a, .none⟩, ⟨24, 1, .ro, 0, .a, .none⟩, ⟨25, 1, .ro, 0, .a, .none⟩, ⟨26, 1, .ro, 0, .a, .none⟩, ⟨27, 1, .ro, 0, .a, .none⟩]⟩,
  ⟨0x380020, [], [⟨0, 24, .ro, 0, .a, .none⟩]⟩,
  ⟨0x380024, [], [⟨0, 4, .ro, 0, .a, .none⟩, ⟨4, 4, .ro, 0, .a, .none⟩]⟩,
  ⟨0x380028, [], [⟨0, 28, .ro, 0, .a, .none⟩]⟩,
  ⟨0x38002C, [], [⟨0, 28, .ro, 0, .a, .none⟩]⟩,
  ⟨0x380030, [], [⟨0, 32, .ro, 0, .c, .none⟩]⟩,
  ⟨0x380034, [], [⟨0, 16, .ro, 0, .a, .none⟩, ⟨16, 16, .ro, 0, .a, .none⟩]⟩,
  ⟨0x380038, [], [⟨0, 16, .ro, 0, .a, .none⟩]⟩,
  ⟨0x38003C, [], [⟨0, 8, .spm, 0, .c, .none⟩]⟩,
  ⟨0x380040, [], [⟨0, 32, .ro, 0, .c, .none⟩]⟩,
  ⟨0x380044, [], [⟨0, 24, .ro, 0, .a, .none⟩]⟩,
  ⟨0x380048, [], [⟨0, 16, .ro, 0, .a, .none⟩]⟩,
  ⟨0x380080, [(0x4, 24)], [⟨0, 16, .ro, 0, .a, .none⟩, ⟨16, 16, .ro, 0, .a, .none⟩]⟩,
  ⟨0x380100, [], [⟨0, 8, .ro, 220, .n, .settings⟩, ⟨8, 8, .ro, 204, .n, .settings⟩, ⟨16, 4, .ro, 4, .n, .settings⟩]⟩,
  ⟨0x380104, [], [⟨0, 8, .ro, 40, .n, .settings⟩]⟩,
  ⟨0x380108, [], [⟨0, 1, .sp, 0, .a, .none⟩, ⟨1, 1, .sp, 0, .a, .none⟩, ⟨2, 1, .sp, 0, .a, .none⟩, ⟨3, 1, .sp, 0, .a, .none⟩, ⟨4, 1, .sp, 0, .a, .none⟩, ⟨8, 8, .sp, 0, .a, .none⟩]⟩,
  ⟨0x38010C, [], [⟨0, 16, .ro, 0, .a, .none⟩, ⟨16, 16, .ro, 0, .a, .none⟩]⟩,
  ⟨0x380110, [], [⟨0, 16, .ro, 0, .a, .none⟩, ⟨16, 16, .ro, 0, .a, .none⟩]⟩]

def modeRows : List RegRow := [
  ⟨0x000000, [], [⟨0, 2, .sp, 2, .a, .none⟩, ⟨2, 3, .sp, 0, .a, .none⟩, ⟨5, 2, .sp, 0, .a, .none⟩, ⟨7, 1, .sp, 0, .a, .none⟩, ⟨8, 4, .sp, 0, .a, .none⟩]⟩,
  ⟨0x000004, [], [⟨0, 1, .wo, 0, .c, .none⟩, ⟨1, 1, .wo, 0, .c, .none⟩, ⟨2, 1, .spm, 0, .c, .none⟩, ⟨3, 1, .wo, 0, .c, .none⟩, ⟨4, 1, .wo, 0, .c, .none⟩, ⟨16, 16, .wo, 0, .c, .none⟩]⟩,
  ⟨0x000008, [], [⟨0, 4, .ro, 0, .a, .none⟩, ⟨16, 16, .ro, 0, .a, .none⟩]⟩,
  ⟨0x00000C, [], [⟨0, 1, .ro, 1, .n, .settings⟩, ⟨1, 1, .ro, 0, .n, .settings⟩]⟩,
  ⟨0x000010, [], [⟨0, 1, .sp, 1, .c, .none⟩, ⟨1, 1, .sp, 1, .c, .none⟩, ⟨2, 1, .sp, 0, .c, .none⟩, ⟨3, 1, .sp, 0, .c, .none⟩, ⟨4, 1, .sp, 0, .w, .none⟩, ⟨5, 1, .sp, 0, .c, .none⟩]⟩,
  ⟨0x000014, [], [⟨0, 28, .ro, 0, .a, .none⟩]⟩,
  ⟨0x000018, [], [⟨0, 24, .ro, 0, .a, .none⟩]⟩,
  ⟨0x00001C, [], [⟨0, 32, .ro, 0, .c, .none⟩]⟩,
  ⟨0x000020, [], [⟨0, 20, .spm, 20, .w, .none⟩]⟩,
  ⟨0x000024, [], [⟨0, 20, .spm, 50, .w, .none⟩]⟩,
  ⟨0x000028, [], [⟨0, 20, .spm, 10, .w, .none⟩]⟩,
  ⟨0x00002C, [], [⟨0, 20, .spm, 1000, .w, .none⟩]⟩,
  ⟨0x000030, [], [⟨0, 20, .spm, 1000, .w, .none⟩]⟩,
  ⟨0x000034, [], [⟨0, 20, .spm, 100, .w, .none⟩]⟩,
  ⟨0x000038, [], [⟨0, 1, .ro, 0, .c, .none⟩, ⟨1, 1, .ro, 0, .c, .none⟩, ⟨8, 6, .ro, 0, .c, .none⟩, ⟨14, 4, .ro, 0, .c, .none⟩]⟩,
  ⟨0x00003C, [], [⟨0, 3, .ro, 0, .a, .none⟩, ⟨16, 16, .ro, 0, .a, .none⟩]⟩,
  ⟨0x000040, [(0x4, 12)], [⟨0, 32, .ro, 0, .a, .none⟩]⟩,
  ⟨0x000080, [(0x4, 12)], [⟨0, 32, .ro, 0, .a, .none⟩]⟩,
  ⟨0x0000C0, [(0x4, 8)], [⟨0, 4, .ro, 0, .a, .none⟩, ⟨4, 4, .ro, 0, .a, .none⟩, ⟨8, 4, .ro, 0, .a, .none⟩, ⟨12, 8, .ro, 0, .a, .none⟩]⟩]

def bootRows : List RegRow := [
  ⟨0x040000, [], [⟨0, 1, .ro, 0, .c, .none⟩, ⟨1, 1, .ro, 0, .c, .none⟩, ⟨2, 1, .ro, 0, .c, .none⟩, ⟨3, 1, .ro, 0, .c, .none⟩, ⟨4, 1, .ro, 0, .c, .none⟩, ⟨5, 1, .ro, 0, .w, .none⟩, ⟨8, 4, .ro, 0, .c, .none⟩, ⟨12, 4, .ro, 0, .c, .none⟩]⟩,
  ⟨0x040004, [], [⟨0, 1, .wo, 0, .c, .none⟩, ⟨1, 1, .wo, 0, .c, .none⟩, ⟨16, 16, .wo, 0, .c, .none⟩]⟩,
  ⟨0x040008, [], [⟨0, 2, .ro, 0, .n, .settings⟩]⟩,
  ⟨0x04000C, [], [⟨0, 4, .ro, 0, .c, .none⟩, ⟨4, 4, .ro, 0, .c, .none⟩]⟩,
  ⟨0x040010, [], [⟨0, 5, .ro, 0, .c, .none⟩, ⟨5, 1, .ro, 0, .c, .none⟩, ⟨6, 1, .ro, 0, .c, .none⟩]⟩,
  ⟨0x040014, [], [⟨0, 32, .ro, 0, .c, .none⟩]⟩,
  ⟨0x040018, [], [⟨0, 10, .ro, 0, .c, .none⟩]⟩,
  ⟨0x04001C, [], [⟨0, 32, .ro, 0, .c, .none⟩]⟩,
  ⟨0x040020, [(0x4, 12)], [⟨0, 32, .ro, 0, .c, .none⟩]⟩,
  ⟨0x040050, [], [⟨0, 24, .ro, 0, .c, .none⟩]⟩,
  ⟨0x040054, [], [⟨0, 24, .ro, 0, .c, .none⟩]⟩,
  ⟨0x040058, [], [⟨0, 3, .wo, 0, .c, .none⟩, ⟨3, 1, .wo, 0, .c, .none⟩]⟩,
  ⟨0x04005C, [], [⟨0, 28, .spm, 0, .c, .none⟩]⟩,
  ⟨0x040060, [], [⟨0, 1, .ro, 0, .c, .none⟩, ⟨1, 3, .ro, 0, .c, .none⟩]⟩,
  ⟨0x040064, [], [⟨0, 1, .wo, 0, .c, .none⟩, ⟨1, 1, .wo, 0, .c, .none⟩, ⟨16, 16, .wo, 0, .c, .none⟩]⟩,
  ⟨0x040068, [], [⟨0, 1, .ro, 0, .c, .none⟩, ⟨1, 4, .ro, 0, .c, .none⟩, ⟨5, 10, .ro, 0, .c, .none⟩]⟩,
  ⟨0x04006C, [], [⟨0, 10, .rw, 0, .c, .none⟩]⟩,
  ⟨0x040070, [], [⟨0, 10, .ro, 0, .c, .none⟩, ⟨10, 10, .ro, 0, .c, .none⟩, ⟨20, 1, .ro, 0, .c, .none⟩]⟩,
  ⟨0x040074, [], [⟨0, 16, .wo, 0, .w, .none⟩]⟩,
  ⟨0x040078, [], [⟨0, 16, .ro, 0, .a, .none⟩, ⟨16, 16, .ro, 0, .a, .none⟩]⟩,
  ⟨0x04007C, [(0x4, 4)], [⟨0, 32, .rwl, 0, .w, .none⟩]⟩,
  ⟨0x04008C, [], [⟨0, 28, .ro, 0, .c, .none⟩]⟩,
  ⟨0x040090, [], [⟨0, 16, .ro, 0, .c, .none⟩]⟩,
  ⟨0x040094, [], [⟨0, 6, .ro, 0, .c, .none⟩, ⟨8, 24, .ro, 0, .c, .none⟩]⟩,
  ⟨0x040098, [], [⟨0, 32, .ro, 0, .a, .none⟩]⟩,
  ⟨0x04009C, [], [⟨0, 32, .ro, 0, .a, .none⟩]⟩]

def idRows : List RegRow := [
  ⟨0x3F0000, [], [⟨0, 16, .ro, 19282, .c, .none⟩, ⟨16, 16, .ro, 22, .c, .none⟩]⟩,
  ⟨0x3F0004, [], [⟨0, 8, .ro, 160, .c, .none⟩]⟩,
  ⟨0x3F0008, [], [⟨0, 32, .ro, 91319, .c, .none⟩]⟩,
  ⟨0x3F000C, [], [⟨0, 32, .ro, 0, .c, .none⟩]⟩,
  ⟨0x3F0010, [], [⟨0, 32, .ro, 0, .c, .none⟩]⟩,
  ⟨0x3F0014, [], [⟨0, 6, .ro, 32, .c, .none⟩, ⟨6, 5, .ro, 16, .c, .none⟩, ⟨11, 4, .ro, 8, .c, .none⟩, ⟨15, 4, .ro, 8, .c, .none⟩, ⟨19, 3, .ro, 4, .c, .none⟩]⟩,
  ⟨0x3F0018, [], [⟨0, 16, .ro, 256, .c, .none⟩, ⟨16, 16, .ro, 3104, .c, .none⟩]⟩,
  ⟨0x3F001C, [], [⟨0, 1, .w1c, 0, .c, .none⟩, ⟨1, 4, .w1c, 0, .c, .none⟩, ⟨5, 1, .w1c, 0, .c, .none⟩]⟩,
  ⟨0x3F0020, [], [⟨0, 16, .ro, 0, .c, .none⟩]⟩,
  ⟨0x3F0024, [], [⟨0, 26, .ro, 0, .c, .none⟩, ⟨30, 1, .ro, 0, .c, .none⟩, ⟨31, 1, .ro, 0, .c, .none⟩]⟩,
  ⟨0x3F0028, [], [⟨0, 1, .ro, 0, .a, .none⟩, ⟨1, 1, .ro, 0, .a, .none⟩, ⟨2, 1, .ro, 0, .a, .none⟩, ⟨3, 1, .ro, 0, .a, .none⟩]⟩,
  ⟨0x3F002C, [], [⟨0, 4, .ro, 0, .c, .none⟩]⟩]

/-- The offset of element `d` past a row's first register is one the row's indexes give. -/
def dimsHit : List (Nat × Nat) → Nat → Bool
  | [], d => d == 0
  | (stride, count) :: ds, d =>
    match ds with
    | [] => d % stride == 0 && d / stride < count
    | _ => d / stride < count && dimsHit ds (d % stride)

def RegRow.hit (r : RegRow) (off : Nat) : Bool :=
  decide (r.off ≤ off) && dimsHit r.dims (off - r.off)

/-- The register blocks (R422); a host port's block and a media channel's frame carry their number. -/
inductive Block where
  | mode | boot | hp (n : Nat) | key | qos | map | med (n : Nat) | eng | stq | orb | seq | thm | nvs | evr | kvc | id
deriving DecidableEq, Repr

/-- The block an offset lies in (R422). -/
def blockOf (off : Nat) : Option Block :=
  if off < 0x040000 then some .mode
  else if off < 0x080000 then some .boot
  else if off < 0x100000 then some (.hp ((off - 0x080000) / 0x10000))
  else if off < 0x140000 then some .key
  else if off < 0x180000 then some .qos
  else if off < 0x1C0000 then some .map
  else if off < 0x1E0000 then some (.med ((off - 0x1C0000) / 0x1000))
  else if off < 0x200000 then none
  else if off < 0x280000 then some .eng
  else if off < 0x300000 then some .stq
  else if off < 0x380000 then some .orb
  else if off < 0x390000 then some .seq
  else if off < 0x3A0000 then some .thm
  else if off < 0x3B0000 then some .nvs
  else if off < 0x3C0000 then some .evr
  else if off < 0x3F0000 then some .kvc
  else if off < 0x400000 then some .id
  else none

def blockRows : Block → List RegRow
  | .mode => modeRows
  | .boot => bootRows
  | .hp _ => hpRows
  | .key => keyRows
  | .qos => qosRows
  | .map => mapRows
  | .med _ => medRows
  | .eng => engRows
  | .stq => stqRows
  | .orb => orbRows
  | .seq => seqRows
  | .thm => thmRows
  | .nvs => nvsRows
  | .evr => evrRows
  | .kvc => kvcRows
  | .id => idRows

/-- MED_HEALTH, MED_DRIFT_CLK and MED_UNPOWERED are one register each, seen in the frame of every media channel
(R191): the offset in frame 0 is the register's home. -/
def homeOff (off : Nat) : Nat :=
  match blockOf off with
  | some (.med _) =>
    let o := off % 0x1000
    if o = 0x11C ∨ o = 0x120 ∨ o = 0x124 then 0x1C0000 + o else off
  | _ => off

/-- The row of the register at an offset, if a register lies there (R422). -/
def rowOf (off : Nat) : Option RegRow :=
  match blockOf (homeOff off) with
  | some b => (blockRows b).find? (fun r => r.hit (homeOff off))
  | none => none

def RegField.mask (f : RegField) : Nat := (2 ^ f.len - 1) * 2 ^ f.lo

/-- The reset value of a register: its fields' reset values in their places; reserved bits 0 (R8, R10). -/
def RegRow.resetVal (r : RegRow) : BitVec 32 :=
  BitVec.ofNat 32 ((r.fields.map (fun f => f.reset * 2 ^ f.lo)).sum)

/-- The bits of a register that fields occupy; the rest is reserved and reads as 0 (R8). -/
def RegRow.used (r : RegRow) : BitVec 32 :=
  BitVec.ofNat 32 ((r.fields.map RegField.mask).sum)

/-- What an offset reads after POR as the tables give it: its reset value, and 0 where no register lies. -/
def regReset (off : Nat) : BitVec 32 :=
  match rowOf off with
  | some r => r.resetVal
  | none => 0

end Sys2Proof.Machine
end

