-- ==== Sys2Proof/Machine/SMap.lean ====
section
/-! DEFINITION. Sparse storage by number: lists of (key, value) pairs with strictly rising keys. A total store also
has a default for each key, and lists no key at its default, so that equal stores are equal lists. -/

namespace Sys2Proof.Machine

/-- A store keyed by numbers. -/
abbrev SMap (V : Type) := List (Nat × V)

/-- The listed value of a key. -/
def mapGet? {V : Type} : SMap V → Nat → Option V
  | [], _ => none
  | (k, v) :: m, i => if i = k then some v else mapGet? m i

/-- Lists `v` at key `i`, in place. -/
def mapPut {V : Type} : SMap V → Nat → V → SMap V
  | [], i, v => [(i, v)]
  | (k, w) :: m, i, v =>
    if i < k then (i, v) :: (k, w) :: m
    else if i = k then (i, v) :: m
    else (k, w) :: mapPut m i v

/-- Unlists key `i`. -/
def mapDel {V : Type} : SMap V → Nat → SMap V
  | [], _ => []
  | (k, w) :: m, i => if i = k then mapDel m i else (k, w) :: mapDel m i

/-- Reads a total store with default `d`. -/
def mapGet {V : Type} (d : Nat → V) (m : SMap V) (i : Nat) : V := (mapGet? m i).getD (d i)

/-- Writes a total store with default `d`: writing the default unlists the key. -/
def mapSet {V : Type} [DecidableEq V] (d : Nat → V) (m : SMap V) (i : Nat) (v : V) : SMap V :=
  if v = d i then mapDel m i else mapPut m i v

/-- Keys strictly rising, all above the bound. -/
def mapSorted {V : Type} : Option Nat → SMap V → Bool
  | _, [] => true
  | lo, (k, _) :: m => (match lo with | none => true | some b => decide (b < k)) && mapSorted (some k) m

/-- The canonical form of a partial store. -/
def mapWf {V : Type} (m : SMap V) : Bool := mapSorted none m

/-- The canonical form of a total store. -/
def mapWfD {V : Type} [DecidableEq V] (d : Nat → V) (m : SMap V) : Bool :=
  mapSorted none m && m.all (fun p => decide (p.2 ≠ d p.1))

/-- Applies `f` to every listed value of a total store and unlists what becomes the default. -/
def mapMapD {V : Type} [DecidableEq V] (d : Nat → V) (f : Nat → V → V) : SMap V → SMap V
  | [] => []
  | (k, v) :: m => if f k v = d k then mapMapD d f m else (k, f k v) :: mapMapD d f m

/-- Keeps the listed pairs that `p` accepts. -/
def mapFilter {V : Type} (p : Nat → V → Bool) (m : SMap V) : SMap V := m.filter (fun q => p q.1 q.2)

end Sys2Proof.Machine
end

