-- ==== Sys2Proof/Machine/State.lean ====
section
/-! DEFINITION. The machine's state as plain data: every register and every other piece of state the manual gives the
N16 (INVENTORY.md, State), the queue of commands that wait, and State.reset. -/

namespace Sys2Proof.Machine

/-- Reasons a step stops with a fault. None is raised: every command the manual describes has an effect or is turned
away with none, so no command of this model faults. Safe: a stop would hide no effect. -/
inductive Fault where
  /-- Kept for a command the manual gives no effect at all; raised by no meaning. Safe. -/
  | noEffectGiven
deriving DecidableEq, Repr

/-- Reasons a step has no meaning. -/
inductive Refusal where
  /-- A command whose meaning is not written; raised only by an arm of exec. Safe: the machine stops. -/
  | notModelled (mnemonic : String)
deriving DecidableEq, Repr

/-! ### Lines and the storage of the data plane (chapters 03, 05) -/

/-- A media line as the data plane handles it: the plaintext, the carry checks and what META and the MAC hold
(R79, R80, R81). -/
structure LineImg where
  data : LineData
  cc : BitVec 64
  poison : BitVec 4
  keyTag : KeyId
  kgen : BitVec 2
  integ : Bool
  mac : BitVec 64
deriving DecidableEq, Repr

/-- A filled way of the vault or of the DDR5 read cache, with its metadata block (R132, R133). -/
structure VaultWay where
  img : LineImg
  line : Nat
  dirty : Bool
  dmr : Bool
  stamp : Word
deriving DecidableEq, Repr

/-- A Halo index entry (R138); `line` is meaningful while `valid`. -/
structure HaloEnt where
  line : Nat
  valid : Bool
  bad : Bool
  seq : Word
deriving DecidableEq, Repr

/-- A tile map entry (R141). -/
structure MapEnt where
  pos : Nat
  epoch : BitVec 12
  haloCnt : Nat
  mapped : Bool
  folding : Bool
  lowMargin : Bool
deriving DecidableEq, Repr

/-- A drain in flight (R135): the Halo slot, the vault location, what step 1 read and what will be programmed. -/
structure DrainRec where
  slot : Nat
  loc : Nat
  way : VaultWay
  stored : Stored
deriving DecidableEq, Repr

/-- A source line of a fold (R146). -/
inductive FoldSrc where
  | halo (slot : Nat) (seq : Word)
  | bulk (mpa : Nat)
  | vault (loc : Nat) (way : VaultWay)
  | erased
deriving DecidableEq, Repr

/-- Why a tile is folded (R145, R150, R173, R175). -/
inductive FoldWhy where
  | ordinary | urgent | gc | refresh | deadBucket
deriving DecidableEq, Repr

/-- A fold in flight: the map entry when it began, its 256 sources, and the position taken (R146). -/
structure FoldRec where
  tile : Nat
  entry : MapEnt
  src : List FoldSrc
  why : FoldWhy
  pos : Option Nat
  /-- The tile has been unmapped since it began (R148). -/
  gone : Bool := false
  /-- The 5 ns cycle at which it began (R147). -/
  began : Nat := 0
deriving DecidableEq, Repr

/-- States of a tile group (R128, R143, R149, R187). `asFormat`: as the media format left it. -/
inductive GroupSt where
  | asFormat | free | opened | closed | reclaimable | resetting | reserve | metadata | retired
deriving DecidableEq, Repr

/-- A group table entry (R149, R150): data positions by die, and the order in which groups closed. -/
structure GroupEnt where
  st : GroupSt
  live : BitVec 16
  dead : BitVec 16
  void : BitVec 16
  retired : BitVec 16
  parityDie : Nat
  closeOrder : Nat
  /-- Write generation (R178). -/
  gen : Nat
deriving DecidableEq, Repr

/-- A record of the map delta log (R151, R153). -/
inductive DeltaRec where
  | mapSet (tile : Nat) (e : MapEnt)
  | mapClear (tile : Nat)
  | groupClosed (g : Nat)
  | groupReclaimable (g : Nat)
  | groupFree (g : Nat) (gen : Nat)
  | posRetired (mpa : Nat)
  | descriptor (region : Nat) (d : BitVec 512)
deriving DecidableEq, Repr

/-- A map checkpoint copy with its descriptor mirror (R152, R153). -/
structure Checkpoint where
  seq : Nat
  logPos : Nat
  map : SMap MapEnt
  descs : SMap (BitVec 512)
deriving DecidableEq, Repr

/-- Live metering counters of a region (R121). -/
structure MetLive where
  bytesRd : BitVec 64
  bytesWr : BitVec 64
  tileTicks : BitVec 64
  engCycles : BitVec 64
  wrFail : BitVec 64
  rdPoison : BitVec 64
deriving DecidableEq, Repr

/-- A metering buffer of a region (R123). -/
structure MetBuf where
  epoch : BitVec 64
  tick : BitVec 64
  live : MetLive
  gen : Word
  flags : BitVec 5
deriving DecidableEq, Repr

/-- The metering state of a region: live counters, both buffers, and what the next latch is to flag (R123 to R125). -/
structure MetSt where
  live : MetLive
  buf0 : MetBuf
  buf1 : MetBuf
  restored : Bool
  lost : Bool
  /-- The first epoch the next latch is to account for (R123, SKIPPED). -/
  since : Nat
  finalDue : Bool
deriving DecidableEq, Repr

/-- A deferred merge record (R85). -/
structure DmrRec where
  line : Nat
  region : Nat
  key : KeyId
  kgen : BitVec 2
  shadow : Option (Fin 4)
  data : LineData
  mask : BitVec 256
  cc : BitVec 64
deriving DecidableEq, Repr

/-- An Eclipse image in a band (R154, R155): its header and sections. -/
structure Image where
  seq : Nat
  drift : Nat
  vGib : Nat
  h64 : Nat
  l64m : Nat
  geometry : Nat
  ckptB : Bool
  ckptSeq : Nat
  clean : Bool
  complete : Bool
  vault : SMap VaultWay
  halo : SMap HaloEnt
  delta : List DeltaRec
  dmr : List DmrRec
  met : SMap MetLive
  /-- P of the checkpoint that the image names, as its header holds it (R155). -/
  logPos : Nat := 0
deriving DecidableEq, Repr

/-- The format record (R159, R160). -/
structure FormatRec where
  v : Nat
  h : Nat
  integ : Bool
  fresh : Bool
deriving DecidableEq, Repr

/-- An open group of a channel and plane (R143): its group, the dies placed or passed over, the parity of the positions programmed,
and the 5 ns cycle of the last placement. -/
structure OpenGroup where
  group : Nat
  placed : List Nat
  parity : SMap Stored
  last : Nat := 0
deriving DecidableEq, Repr

/-- Vault, Halo, map, groups, log and images (chapter 05). -/
structure StoreSt where
  vault : SMap VaultWay
  cache : SMap VaultWay
  /-- Use order of the read cache, most recent first (R133). -/
  cacheUse : List Nat
  /-- The vault record area as last written (R127). -/
  recArea : List DmrRec
  halo : SMap HaloEnt
  drains : List DrainRec
  map : SMap MapEnt
  folds : List FoldRec
  urgent : List Nat
  /-- Tiles whose fold takes vault lines of dead buckets (R175). -/
  deadTiles : List Nat
  /-- Drain runs by occupancy, and until nothing is left (R134). -/
  drainRun : Bool
  drainAll : Bool
  /-- Channel and plane at which fold places next, 4 channels' planes in rotation (R143). -/
  nextKey : Nat
  /-- Channels on which garbage collection runs (R150). -/
  gcRun : List Nat
  groups : SMap GroupEnt
  /-- Resets of each role that the format places, 0 to 3, and of the reserve, 4 (R128, R178, R187): the generation of their groups
  that are not listed. -/
  roleGens : SMap Nat
  opened : SMap OpenGroup
  closeCount : Nat
  delta : List DeltaRec
  deltaBase : Nat
  ckptA : Option Checkpoint
  ckptB : Option Checkpoint
  ckptRun : Option Checkpoint
  /-- The AON tick of the last checkpoint, or of the start (R152). -/
  ckptAt : Nat := 0
  bandA : Option Image
  bandB : Option Image
  imageSeq : Nat
  imageRun : Option Bool
  fmt : Option FormatRec
  fmtRun : Bool
  bandResetDue : Bool
  cells : SMap Stored
  /-- The poison list: host lines DPA[43:6], with whether they were injected (R60). -/
  poison : SMap Bool
  /-- Sets of the DDR5 read cache, fixed at each start (R133). -/
  cacheSets : Nat
  /-- DDR5 fitted, in GiB. -/
  ddrGib : Nat
  /-- The DDR5 metadata array of the vault as tag entries were written back to it, by vault location (R87, R127). -/
  metaArr : SMap (BitVec 256)
deriving DecidableEq, Repr

/-- A key slot's contents (R71). -/
structure KeySlot where
  k1 : BitVec 256
  k2 : BitVec 256
  k3 : BitVec 256
  kgen : BitVec 2
deriving DecidableEq, Repr

/-- Which write an import in progress makes (R76, R77). -/
structure ImportRun where
  inArea : Bool
  blob : BitVec 1024
  shadow : Bool
  engine : Nat
deriving DecidableEq, Repr

/-- A terminator record of the NV store (R102). -/
structure TrmRec where
  region : Nat
  engine : Nat
  mode : Nat
  key : Nat
  kgen : Nat
  bound : Nat
  /-- The re-key was stopped by a commit: reads of the region follow R51 alone (R103). -/
  cut : Bool
deriving DecidableEq, Repr

/-- An entry of the tag store (R87): the line, whether the metadata array lacks it, and its metadata block (R132). -/
structure TagEnt where
  line : Nat
  dirty : Bool
  block : BitVec 256
deriving DecidableEq, Repr

/-- Keys, the counter/tag cache and the HALT line (chapter 03, R27). -/
structure KeySt where
  slots : SMap KeySlot
  /-- Shadow slots by engine, each with the slot it is for (R95). -/
  shadows : SMap (Nat × KeySlot)
  keks : SMap (BitVec 256)
  importRun : Option ImportRun
  halt : Bool
  haltedRun : Bool
  dmr : List DmrRec
  /-- The tag store by set, each set's entries most recent first (R87). -/
  tags : SMap (List TagEnt)
  trmRecs : List TrmRec
  /-- The region that each terminator engine was started on (R103). -/
  trmRun : SMap Nat
deriving DecidableEq, Repr

/-- The region commit port (R19). -/
structure RcSt where
  region : Nat
  staging : BitVec 512
  busy : Bool
  /-- The commit that runs: the contents it commits and its COMMIT_STATUS. -/
  run : Option (BitVec 512 × Nat)
  status : Nat
  keyErr : Bool
deriving DecidableEq, Repr

/-- Regions (R16 to R19, R47, R121, R234, R299, R300). -/
structure RegionSt where
  rc : RcSt
  descs : SMap (BitVec 512)
  draining : SMap Word
  met : SMap MetSt
  epoch : Nat
  /-- The last epoch that was not latched (R124). -/
  skipLast : Option Nat
  sweepPending : Nat
  dirtyMap : SMap (List Nat)
  rseq : SMap Word
  /-- Released ranges of tiles with their regions, each kept whole until its walk ends (R234). -/
  releases : List (Nat × Nat × Nat)
  /-- Regions whose re-key a commit stopped: their reads follow R51 alone (R103). -/
  trmCut : List Nat
  /-- The AON tick of the next epoch boundary; none before boundary 0 (R122). -/
  nextBoundary : Option Nat
  /-- Tiles walked of a released range, by its first tile (R234). -/
  walked : SMap Nat := []
deriving DecidableEq, Repr

/-- Who sent an access to the data plane: a host, an engine's home load or store by its place in program order, its device load or
store, which only waits for admission here, the queue loop of an engine, a LOCK_FILL of a cluster, or a peer (R46, R214, R217, R223,
R265, R305). -/
inductive AccOwner where
  | host
  | engine (e tag : Nat)
  | device (e tag : Nat)
  | ring (e : Nat)
  | fill (k : Nat)
  | remote (peer : Nat) (tag : Word)
deriving DecidableEq, Repr

/-- Atomic operations (R227). -/
inductive AmoOp where
  | add | swap | cas | and | or | xor | minu | maxu
deriving DecidableEq, Repr

/-- An atomic at the data plane: its operation, the value AMO.CAS compares with, its operand, and its byte offset in the host
line (R227). -/
structure AmoReq where
  op : AmoOp
  cmp : Xlen
  src : Xlen
  off : Nat
deriving DecidableEq, Repr

/-- The stages of a host access after its request has been decoded (R34, R37, R38). -/
inductive AccStage where
  | waiting
  | lookup
  | media (mpa : Nat) (halo : Bool)
  | recon (mpa : Nat)
  | deep (mpa : Nat)
  | forming (img : LineImg)
  | reflecting (rseq : Word)
deriving DecidableEq, Repr

/-- The key material a write takes under R97: the key ID, and the shadow slot when that one applies. -/
structure Material where
  key : KeyId
  shadow : Option (Fin 4)
deriving DecidableEq, Repr

/-- An access in flight, with all that R17 fixes at its decoding; `port` is meaningful for a host's. -/
structure Access where
  id : Nat
  own : AccOwner
  port : Fin 8
  write : Bool
  dpa : Nat
  region : Nat
  desc : BitVec 512
  key : KeyId
  data : HostLine
  be : BitVec 64
  cc : BitVec 16
  stage : AccStage
  order : Nat
  material : Material
  amo : Option AmoReq
  poisonAll : Bool
  silent : Bool
  /-- The 5 ns cycle of its trigger: the request's arrival, or the end of its hold (R105, R119). -/
  born : Nat
  /-- It issued the media read of its line; another access shares one in progress (R111). -/
  lead : Bool := false
  /-- Its read is the one in progress on its die (R108). -/
  reading : Bool := false
  /-- A reconstruction was issued together with its read (R110). -/
  spec : Bool := false
  /-- It is served by read-around, and whether that failed (R109). -/
  around : Bool := false
  forced : Bool := false
  /-- It has been counted as held by a full record pool (R119 code 0x32). -/
  poolHeld : Bool := false
deriving DecidableEq, Repr

/-- A committed HDM decoder (R45, R49). -/
structure Decoder where
  base : Nat
  size : Nat
  ways : Nat
  gran : Nat
  dpaBase : Nat
  kidw : Nat
deriving DecidableEq, Repr

/-- A record of a CXL event log (R64), with its AON tick; `exts` holds the extents of a Dynamic Capacity record (R54). -/
structure CxlEvent where
  kind : String
  arg : Nat
  time : Nat
  exts : List (Nat × Nat)
deriving DecidableEq, Repr

/-- A CXL event log of 64 records, with how many it lost and the AON ticks of the first and the last of those (R64). -/
structure CxlLog where
  recs : List CxlEvent
  overflow : Nat
  first : Nat
  last : Nat
deriving DecidableEq, Repr

/-- A host port's state outside its registers (chapter 02). -/
structure PortSt where
  linkUp : Bool
  retired : Bool
  resetting : Bool
  decs : SMap Decoder
  commitErr : SMap Bool
  ideKeyed : Bool
  ideBad : Bool
  /-- Accepted extents, extents whose release the device has asked for, and released ranges not yet zeroed, as (base, length) in
  16 MiB blocks (R54, R55). -/
  dcAccepted : List (Nat × Nat)
  dcAsked : List (Nat × Nat)
  dcUsed : List (Nat × Nat)
  partNext : Option Nat
  partVolatile : Nat
  lsa : SMap Byte
  /-- The Release Dynamic Capacity in progress: its extent, and whether an FLR discards its result (R55, R67). -/
  mbox : Option (Nat × Nat × Bool)
  info : CxlLog
  warn : CxlLog
  failure : CxlLog
  fatal : CxlLog
  /-- When a failed host write of a region was last reported (R189). -/
  roAt : SMap Nat
  /-- Resets since the last read of HPn_RST_STAT: bit 0 conventional, bit 1 FLR (R68). -/
  rstSeen : Nat
  /-- MSI-X vectors raised since the function's last reset: mailbox, event log, DOE, error (R43, R67). -/
  msix : BitVec 4
  /-- The AON tick at which the poison list overflowed (R60). -/
  poisonAt : Option Nat
  /-- The 5 ns cycle since which flit replays of a link that has been up are not counted yet (R68). -/
  replayFrom : Option Nat
  /-- An uncorrectable error stands in AER and CXL RAS (R43, R63). -/
  rasErr : Bool
  /-- What the host has set through the mailbox: the event interrupt policy of the four logs, the alert configuration, whether the
  shutdown state is dirty, and the response message limit (R65). -/
  intPolicy : List Byte
  alerts : List Byte
  dirty : Bool
  respLimit : Option Byte
deriving DecidableEq, Repr

/-- A performance counter: the count, its event, filter and address range (R117, R118). -/
structure PmcSt where
  count : BitVec 48
  evt : BitVec 8
  filt : Word
  baseLo : Word
  baseHi : Word
  limLo : Word
  limHi : Word
deriving DecidableEq, Repr

/-- Buckets and counters of chapter 04. Bandwidth levels are in 1/64 B, media-read levels in 1/200 of a read, the power level in
nJ: the refill of one 5 ns cycle is a whole number of each. -/
structure AdmSt where
  cls : SMap Int
  mread : SMap Int
  power : Int
  halo : Int
  pwrHeld : Bool
  nextId : Nat
  nextOrder : Nat
  /-- Lines whose deep recovery runs (R38, R59), with a region that asked for it. -/
  deep : List (Nat × Nat)
  pmc : SMap PmcSt
  /-- When each access that waits began to, in 5 ns cycles (R105). -/
  heldSince : SMap Nat
  /-- Cycles with an access of a class held that QOS_Cc_HELD does not count yet, fewer than 200 (R105, R126). -/
  heldAcc : SMap Nat
deriving DecidableEq, Repr
/-! ### The safety partition's recorder (chapter 13) -/

/-- An event on its way to the ring (R337, R338): class, code, TIME, SUBJECT, DETAIL, the extension, the 5 ns cycle of its
detection, and whether it keeps its place among the events of that cycle (R339). -/
structure EventRec where
  cls : Nat
  code : Nat
  time : BitVec 64
  subject : BitVec 64
  detail : BitVec 64
  ext : List Byte
  born : Nat
  bar : Bool
deriving DecidableEq, Repr

/-- A record of the ring (R341, R344): its SEQ, the index of its first record group among the ring's 15,872, and its groups; one
that cannot be located stands for the groups between its neighbours. -/
structure RingRec where
  seq : Nat
  pos : Nat
  groups : Nat
  located : Bool
deriving DecidableEq, Repr

/-- The event recorder (R341 to R347). -/
structure EvrSt where
  queue : List EventRec
  dropWait : Nat
  ring : List RingRec
  nextPos : Nat
  nextSeq : Nat
  clearRun : Option (Nat × Nat)
deriving DecidableEq, Repr

/-! ### The NV store (chapter 12) -/

/-- What a page write of the NV store completes (R327). -/
inductive NvsDone where
  | plain
  | ring (born : Nat)
  | counter (c : Nat) (v : Nat)
  | part (type : Nat)
  | record (type : Nat) (copyB : Bool) (seq : Word)
deriving DecidableEq, Repr

/-- A page write in the store's queue (R327): the page, and the data of the groups it writes. -/
structure NvsWrite where
  page : Nat
  groups : List (Nat × BitVec 64)
  done : NvsDone
deriving DecidableEq, Repr

/-- The NV store (R324 to R332). A group is 64 data bits with its 8-bit code above them. -/
structure NvsSt where
  groups : SMap (BitVec 72)
  queue : List NvsWrite
  /-- Copy in use of each record TYPE: none while blank, else whether it is copy B (R330). -/
  inUse : SMap Bool
  /-- Torn reads since the last record, with the last group (R325), while the second runs. -/
  tornRun : Option (Nat × Nat)
deriving DecidableEq, Repr

/-! ### The unit-state board (R23, R307, R308) -/

/-- An entry of the board: its generation and STATE. -/
structure UnitEnt where
  gen : BitVec 16
  st : Nat
deriving DecidableEq, Repr

/-- An entry of the published view: what the management plane read, and the AON tick at which it read it. -/
structure UnitView where
  gen : BitVec 16
  st : Nat
  tick : Word
deriving DecidableEq, Repr

/-- The board, its view, and the entries changed since the last audit (R310). -/
structure BoardSt where
  ents : SMap UnitEnt
  views : SMap UnitView
  changed : List Nat
deriving DecidableEq, Repr


/-! ### Engine clusters (chapters 08, 09) -/

/-- A line of a cluster cache: its host line number DPA[43:6], the key ID of its fill and the plaintext (R255, R256). -/
structure CcLine where
  hl : Nat
  key : KeyId
  data : HostLine
deriving DecidableEq, Repr

/-- What an engine's memory operation does (R223, R227, R242): a load into registers from `rd` on, a store, an atomic
with its two operands, the two writes that end a descriptor, and a read that a debugger makes (R393). -/
inductive MemKind where
  | load (width : Nat) (sgn : Bool) (rd : Nat) (acq : Bool)
  | store
  | amo (op : AmoOp) (cmp src : Xlen) (rd : Nat)
  | completion
  | cons
  | debug
deriving DecidableEq, Repr

/-- What the data plane gave an engine read. -/
inductive FillRes where
  | data (d : HostLine) (poison : Bool)
  | noKey
deriving DecidableEq, Repr

/-- How far a memory operation has come (R240): held back by an ordering rule, a device access issued that waits in its class queue
(R214), sent, performed with its data on the way, or complete at the data plane. -/
inductive MemStage where
  | held
  | queued
  | sent
  | back (r : FillRes)
  | done (stored : Bool)
deriving DecidableEq, Repr

/-- What a memory operation waits for: earlier loads performed, earlier stores issued, earlier stores complete, and
earlier device stores complete, each for operations below a place in program order (R246, R247, R250, R251). -/
structure MemGate where
  loads : Nat
  issued : Nat
  stores : Nat
  dev : Nat
deriving DecidableEq, Repr

/-- A memory operation of an engine, in the store buffer or a load in flight (R242, R244): its place in program order,
its address, its bytes within the host line, an atomic's old value, and whether the fill may no longer be installed (R259). -/
structure MemOp where
  tag : Nat
  ea : Nat
  kind : MemKind
  dev : Bool
  data : HostLine
  be : BitVec 64
  gate : MemGate
  stage : MemStage
  old : Xlen
  hl : Nat
  key : KeyId
  drop : Bool
  /-- The region it reaches and the descriptor under which it was decoded (R17, R217, R235). -/
  region : Nat := 0
  desc : BitVec 512 := 0
  /-- The 5 ns cycle at which its timer runs out, once that runs (R252). -/
  due : Option Nat := none
  /-- What the codes of the cluster cache find where the load hits (R261). -/
  ecc : CellErr := .none
  /-- A device store that was admitted before its cluster was reset: no engine waits for it (R237). -/
  left : Bool := false
deriving DecidableEq, Repr

/-- Where an engine is in its queue loop (R220, R223, R230, R237, R238). -/
inductive EngPhase where
  | off
  | readCons
  | readProd
  | idle
  | badCons
  | keyCons
  | held
  | readDesc
  | running
  | ended
  | completing
  | keyProd
  | keyDesc
  | queueErr
  | stopped
deriving DecidableEq, Repr

/-- An engine (R223, R224): its registers, PC, queue loop, memory operations and gates for those to come. -/
structure EngSt where
  x : SMap Xlen
  pc : Nat
  phase : EngPhase
  /-- First slot of the program that runs (R222). -/
  prog : Nat
  prod : Word
  /-- What the queue loop's read in flight returned. -/
  ring : Option FillRes
  /-- The descriptor under which that read was sent (R17, R235). -/
  ringDesc : BitVec 512
  /-- A doorbell came since PROD was last read (R223). -/
  bell : Bool
  /-- Code, RET and cycles of the descriptor in hand. -/
  code : Nat
  ret : Xlen
  cycles : Nat
  wrFailed : Bool
  ops : List MemOp
  nextTag : Nat
  ldGate : MemGate
  stGate : MemGate
  /-- The engine unbinds when the descriptor in hand is complete (R220). -/
  leaving : Bool
  /-- Halted by a debugger, and a store lost meanwhile (R236, R253). -/
  dbg : Bool
  dbgLost : Option Nat
  /-- When the engine last recorded a fault event (R229). -/
  evtAt : Option Nat
  /-- It stalls on a full store buffer (R242). -/
  stall : Bool := false
  /-- Cycles of the descriptor in hand that its region and the counters have been charged (R235). -/
  charged : Nat := 0
deriving DecidableEq, Repr

/-- A program load in progress (R231). -/
structure LoadRun where
  clusters : Nat
  slot : Nat
  n : Nat
deriving DecidableEq, Repr

/-- The fill that a LOCK_FILL has in hand (R265): none, sent, or what the data plane gave. -/
inductive FillHand where
  | none
  | sent
  | back (r : FillRes)
deriving DecidableEq, Repr

/-- A cache maintenance operation in progress, with the media lines that changed since its fill in hand was sent (R265). A LOCK_FILL
makes one fill at a time, of each host line for each cluster named in turn: fill `next` of len × 4 is the one in hand, or the next. -/
structure MaintRun where
  op : Nat
  clusters : Nat
  first : Nat
  len : Nat
  key : KeyId
  region : Nat
  changed : List Nat
  next : Nat := 0
  hand : FillHand := .none
deriving DecidableEq, Repr

/-- The four clusters: cache lines keyed by cluster × 65,536 + set × 16 + way with their use order, most recent first;
scratchpad bytes by engine × 2^19 + offset; program slots by cluster × 64 + slot, and the first slots of programs with
their lengths; and the engines. -/
structure CluSt where
  lines : SMap CcLine
  use : List Nat
  pads : SMap Byte
  prog : SMap (List Word)
  progs : SMap Nat
  loadRun : Option LoadRun
  maint : Option MaintRun
  engs : SMap EngSt
deriving DecidableEq, Repr

/-! ### Stream queues (chapter 10) -/

/-- A stream queue (R268 to R281): its registers of offsets 0x040 to 0x07B, its items, oldest first, and the enqueue
stores that wait, as engine and place in program order. -/
structure QueueSt where
  cfg : Word
  bind : Word
  dest : Word
  base : Word
  st : Nat
  code : Nat
  headPart : Bool
  inPkt : Bool
  dropping : Bool
  epoch : Nat
  credit : Nat
  lost : Nat
  dropped : Nat
  idle : Nat
  enq : BitVec 64
  deq : BitVec 64
  items : List HostLine
  waiting : List (Nat × Nat × HostLine)
deriving DecidableEq, Repr
/-! ### M32 dies (chapter 07) -/

/-- An array operation of a plane (R198). -/
inductive ArrOp where
  | read1 (tile line thr : Nat)
  | read4 (tile line : Nat) (thr : BitVec 256)
  | soft (ref : Bool) (tile line quarter : Nat)
  | prog1 (tile line : Nat) (data : Stored)
  | prog4 (tile strip pass : Nat)
  | reset (tile : Nat)
  | calibrate (j : Nat)
deriving DecidableEq, Repr

/-- A plane (R194, R200, R204): its running, suspended and queued operations, its buffers, the place in the pass order with the
tile it is for, and its STATUS bits. -/
structure PlaneSt where
  run : Option ArrOp
  susp : Option ArrOp
  queued : Option ArrOp
  order : Nat
  orderTile : Nat
  fail : Bool
  bufValid : Bool
  done : Bool
  soft : Bool
  buf : BitVec 9728
  tileBuf : SMap Stored
  /-- How often its operation has been suspended (R109). -/
  susps : Nat
  /-- A suspension has raised attention and STATUS with CLR has not been read since (R205). -/
  halted : Bool := false
  /-- The operation that last ended, until the N16 has taken the die's attention (R203). -/
  last : Option ArrOp := none
deriving DecidableEq, Repr

/-- A die (R198, R200, R201). -/
structure DieSt where
  planes : SMap PlaneSt
  err : Nat
  wasReset : Bool
  temp : BitVec 12
  tempValid : Bool
  standby : Bool
  /-- The N16 has sent it RESET-DIE since the last STATUS with CLR (R207). -/
  ownReset : Bool := false
  /-- The 5 ns cycle at which the N16 last found DIE_RESET set without that (R207). -/
  strayAt : Option Nat := none
  /-- It is overdue: it gets STATUS, RESUME and DATA-OUT alone until its other planes have reported and RESET-DIE is sent (R208). -/
  overdue : Bool := false
  /-- Work that a RESET-DIE ended, to be repeated after a correct READ-ID: the plane and the operation (R208, R209). -/
  again : List (Nat × ArrOp) := []
  /-- The phase setting of its data strobes, of the 64 that training sweeps (R210, R211). -/
  phase : Nat := 0
deriving DecidableEq, Repr

/-! ### Clock domains (R30, R31) -/

/-- Domains that run, and sleeping ones whose wake has begun, by number (`domNum`). -/
structure DomSt where
  awake : List Nat
  waking : List Nat
  /-- The 5 ns cycle at which each was last seen in use; 0 where not listed (R30). -/
  used : SMap Nat := []
deriving DecidableEq, Repr

/-! ### Orbit (chapter 11) -/

/-- The messages that Orbit frames carry (R285, R286). -/
inductive OrbMsg where
  | hello (role : Nat) (planetEn : Bool) (planet : Option Nat) (dirgen : Nat)
  | candidate (dirgen : Nat)
  | vote (term : Nat) (granted : Bool)
  | planet (dirgen : Nat) (standby : Option Nat)
  | dirNote (dirgen : Nat) (grns : List Word)
  | dirQuery (grns : List Word)
  | dirEntries (es : List DirEntry)
  | dirChange (es : List DirEntry)
  | dirCopy (dirgen : Nat) (es : List DirEntry)
  | dirAck (grns : List Word)
  | unitViews (items : List UnitItem)
  | unitCommand (unit gen op : Nat)
  | unitResult (unit code : Nat)
  | rwrite (rseq : Word) (region off : Nat) (l : MLine)
  | rack (rseq : Word) (region code : Nat)
  | mdata (region tile : Nat) (unmapped : Bool) (first : Nat) (lines : List MLine)
  | mack (region tile code : Nat)
  | items (dstQ srcQ epoch : Nat) (its : List HostLine)
  | grant (txQ rxQ epoch value : Nat)
  | ret (txQ rxQ epoch value : Nat)
  | rread (tag : Word) (region off : Nat) (be : BitVec 64) (devRegion : Nat)
  | rdata (tag : Word) (code : Nat) (data : HostLine)
  | rstore (tag : Word) (region off : Nat) (be : BitVec 64) (data : HostLine) (devRegion : Nat)
  | rstack (tag : Word) (code : Nat)
  | nak (expected : Nat)
  | ackOnly
deriving DecidableEq, Repr

/-- A sequenced frame that no ACK covers yet (R289): SEQ, what it carries, and the 5 ns cycle at which it was last sent. -/
structure SentFrame where
  seq : Nat
  msg : OrbMsg
  sent : Nat
deriving DecidableEq, Repr

/-- One channel to a peer (R284, R289, R290): the last SEQ sent, frames sent and not acknowledged, messages that wait
for credits, the last SEQ taken in order, credits held for sending, and credits to return. -/
structure ChanSt where
  txSeq : Nat
  unacked : List SentFrame
  waiting : List OrbMsg
  rxSeq : Nat
  credits : Nat
  owed : Nat
  resends : Nat
deriving DecidableEq, Repr

/-- A peer (R287 to R292, R311): CFG is ORB_PEER_CFG, `planetEn` what its HELLO said, INIT the credits of ORB_PEER_CRED. -/
structure PeerSt where
  cfg : Word
  planetEn : Bool
  init : Nat
  reachable : Bool
  port : Nat
  seqWarn : Bool
  lastHeard : Nat
  rtt : Nat
  nctr : Nat
  chans : SMap ChanSt
  tagEvent : Option Nat
deriving DecidableEq, Repr

/-- A reflected or migrated write awaiting its RACK (R298): the peer, the region, RSEQ, the line and the 5 ns cycle at which it
was sent; the access or store it completes is found by `owner`. -/
structure ReflWait where
  peer : Nat
  region : Nat
  rseq : Word
  line : Nat
  sent : Nat
  owner : Nat
deriving DecidableEq, Repr

/-- A remote access in flight at the requester (R305). -/
structure RemoteReq where
  tag : Word
  peer : Nat
  store : Bool
  eng : Nat
  ref : Nat
deriving DecidableEq, Repr

/-- A change of the directory that waits for the standby (R295). -/
structure DirWait where
  entry : DirEntry
deriving DecidableEq, Repr

/-- A tile that a migration engine holds while it awaits MACK (R302). -/
structure MigHold where
  tile : Nat
deriving DecidableEq, Repr

/-- Orbit's state outside its registers. -/
structure OrbSt where
  peers : SMap PeerSt
  dir : SMap DirEntry
  dirWait : List DirWait
  votes : List Nat
  votedTerm : Nat
  /-- The candidate was the standby (R293). -/
  fromStandby : Bool
  /-- The moon to be named standby once it has acknowledged these entries (R293). -/
  standbyDue : Option (Nat × List Word)
  refl : List ReflWait
  /-- Next RSEQ that each secondary region takes (R299). -/
  applied : SMap Word
  /-- Lines placed of the tile that a migration target is receiving, by region (R302). -/
  mdataAt : SMap (Nat × Nat)
  hold : SMap MigHold
  remote : List RemoteReq
  nextTag : Nat
  /-- Links that an operator holds or has retired (R309). -/
  linkHeld : List Nat
deriving DecidableEq, Repr

/-! ### Requester paths (R424) -/

/-- The event cursor of a path (R345, R346): the SEQ asked for while a load runs, and the bytes of the record loaded. -/
structure CursorSt where
  seq : Word
  off : Nat
  stat : Word
  bytes : List Byte
  loading : Option Nat
deriving DecidableEq, Repr

/-- What is kept separately for a path: the latch of R7 with its counter, the high bits of PMC_HI, its selectors, its
MODE_STORE staging window and its cursor. -/
structure PathSt where
  latch : Option (Nat × Word)
  pmcHi : Nat
  stqSel : Nat
  stqWin : Word
  orbPeer : Nat
  orbUnit : Nat
  msLen : Nat
  msStat : Word
  msWin : SMap Word
  cur : CursorSt
deriving DecidableEq, Repr

/-! ### The thermal watch (chapter 12) -/

/-- The filter of R314 and what R318, R320, R321 and R313 remember: the last temperatures in 0.25 °C and the last values of T
in 1/48 °C, newest first. -/
structure ThmSt where
  temps : List Int
  means : List Int
  /-- The last sample that gave a temperature was critical (R320). -/
  crit : Bool
  /-- When a refused power-up was last recorded (R321). -/
  refusedAt : Option Nat
  /-- When the safety cores last disagreed (R313). -/
  strikeAt : Option Nat
  /-- Step 15 is forced by R313. -/
  forced : Bool
deriving DecidableEq, Repr

/-! ### Power sequencing (chapter 14) -/

/-- What a step of a run waits for (R364, R366). -/
inductive SeqWait where
  | none
  | time
  | check (input : Nat) (level : Bool)
  | discharge (rail : Nat)
  | sync (s : Nat)
deriving DecidableEq, Repr

/-- The stages of a start (R388): the NV store's scan, the validation, the load, and none. -/
inductive StartStage where
  | none | scan | validate | load
deriving DecidableEq, Repr

/-- The sequencer, shutdowns and resets (R364 to R381, R397, R398). -/
structure SeqSt where
  /-- POR is held (R438). -/
  por : Bool
  /-- The program in force; a step not listed is the ROM program's (R363). -/
  prog : SMap Word
  /-- The program of the run in progress (R419). -/
  runProg : SMap Word
  /-- A run in progress: false power-up, true shutdown. -/
  run : Option Bool
  wait : SeqWait
  steps : Nat
  /-- Mirror step of the last MARK passed (R373, R375). -/
  mirror : Option Nat
  /-- The run is shortened (R380). -/
  fast : Bool
  /-- SEQ_LAST off cause of the shutdown in progress; 0 when there is none. -/
  off : Nat
  /-- An orderly shutdown waits for the hosts (R373 step 2). -/
  hosts : Bool
  /-- An orderly shutdown drains the vault (R373 step 5). -/
  drain : Bool
  /-- A cold reset waits for its image: its MODE_RST_STAT.LAST (R371, R397). -/
  cold : Option Nat
  /-- The cold reset is held until MRST_N is high (R371). -/
  held : Bool
  stage : StartStage
  /-- The reset that the start follows, as MODE_RST_STAT.LAST shows it. -/
  src : Nat
  /-- A warm reset runs (R398). -/
  warm : Bool
  /-- The configuration Hold came after a warm reset (R412). -/
  afterWarm : Bool
  /-- The service axis has left Hold since the last start (R372, R380). -/
  left : Bool
  /-- The last power-up faulted, or its AUTO_ON waits for the input (R374, R381). -/
  noAuto : Bool
  autoWait : Bool
  /-- FAULT_N is low by R374 or R444, and by R313 until POR. -/
  faultN : Bool
  faultLock : Bool
  /-- Key slots are to be zeroised when the image ends (R29, R157). -/
  zeroDue : Bool
  /-- Lowest input of the Penumbra in progress, in mV (R379). -/
  penLow : Nat
  /-- An Eclipse band holds an image without its trailer (R159). -/
  half : Bool
  /-- The drift clock is to be estimated at the next start (R177). -/
  unpowered : Bool
deriving DecidableEq, Repr

/-! ### The key vault cipher (chapter 13) -/

/-- A vault cipher operation in progress (R356, R358): whether its check passes, the bytes and tag it puts out, and for the modes
that store the record the slot's new contents with the copy and SEQ written. `release`: the authorisation closed meanwhile (R359). -/
structure KvcRun where
  mode : Nat
  ok : Bool
  data : List Byte
  tag : Option (BitVec 128)
  slot : Option (Nat × Option (BitVec 256))
  want : Option (Bool × Nat)
  release : Bool
  /-- Cycles that the engine takes for it (R355). -/
  cycles : Nat := 0
deriving DecidableEq, Repr

/-- A token check in progress (R352, R354): its purpose, the RESULT it ends with, and for a change of owner that passed the new key
with the copy and SEQ of the record stored. -/
structure TokRun where
  purpose : Nat
  code : Nat
  owner : Option (BitVec 256)
  want : Option (Bool × Nat)
deriving DecidableEq, Repr

/-- The vault, the engine's buffer and the token port (R350 to R360). -/
structure KvcSt where
  slots : SMap (BitVec 256)
  buf : SMap Word
  run : Option KvcRun
  tok : Option TokRun
  /-- RESULT of TP_STAT. -/
  result : Nat
  /-- Dwords of the token port at 0x08 to 0x3C. -/
  port : SMap Word
  chal : Option (BitVec 128)
deriving DecidableEq, Repr

/-! ### The configuration image (chapter 16) -/

/-- The configuration flash (R403): log2 of its size, whether one answers, whether SFDP describes octal mode, and its bytes; a
byte not listed is erased. -/
structure FlashSt where
  log2 : Nat
  fitted : Bool
  octal : Bool
  bytes : SMap Byte
deriving DecidableEq, Repr

/-- Boot (R403 to R416, R419). -/
structure BootSt where
  flash : FlashSt
  /-- A validation in progress, and whether of slot B. -/
  val : Option Bool
  /-- The slot that the last start accepted. -/
  lastB : Bool
  /-- Sections loaded into the working area, by offset (R406). -/
  area : List (Nat × List Byte)
  /-- The control cores run firmware. -/
  cores : Bool
  /-- The flash window's dwords, and the operation in progress with its address (R415). -/
  win : SMap Word
  op : Option (Nat × Nat)
  /-- A MODE_STORE in progress: the path's number, with the copy and SEQ written (R419). -/
  store : Option (Nat × Bool × Nat)
deriving DecidableEq, Repr

/-! ### Wear, drift and spare tiles (chapter 06) -/

/-- An entry of a die's level table (R167): THR1 to THR15, or THR1 alone in the 1-bit row, and MEASURED. -/
structure LevelEnt where
  thr : List Nat
  measured : Bool
deriving DecidableEq, Repr

/-- A scrub pass of a channel (R171): when it began on the drift clock, its lines as media positions read so far, the
hottest class it has met, and whether it is phase 2 of the catch-up scrub (R176). -/
structure ScrubSt where
  began : Nat
  seen : List Nat
  cls : Nat
  catchUp : Bool
deriving DecidableEq, Repr

/-- Wear, retirement, drift and scrub. Groups hold their own generations and retired positions. -/
structure WearSt where
  /-- Lifetime count of PROGRAM-1 lines (R178). -/
  prog1 : Nat
  /-- Largest count of corrected bits by logical tile (R172). -/
  corrected : SMap Nat
  /-- Positions that retire at their group's next reset (R180). -/
  retireNext : List Nat
  /-- Halo slots to be marked BAD when a fold frees them (R174). -/
  badAtFold : List Nat
  /-- Logical tiles that Halo slot health sends to a refresh fold (R174). -/
  refresh : List Nat
  /-- 1-bit tiles that retire: the first slot of each (R174). -/
  haloTiles : List Nat
  /-- Retired planes (64 ch + 4 die + plane), dies (16 ch + die) and channels. -/
  planesOut : List Nat
  diesOut : List Nat
  chansOut : List Nat
  /-- Evacuating or rebuilding units: planes as above, dies from 2,048 on (R182). -/
  evac : List Nat
  /-- Temperature of each die in 0.25 °C, and its consecutive misses (R170). -/
  temps : SMap Nat
  miss : SMap Nat
  /-- Level tables: die × 512 + age bin × 8 + temperature bin, and from 256 the 1-bit row (R167). -/
  levels : SMap LevelEnt
  /-- Program times of ladder steps, die × 16 + step; step 12 is the 1-bit lines (R168). -/
  ladder : SMap Nat
  scrub : SMap ScrubSt
  /-- Start of the last completed pass of a channel (R191). -/
  lastPass : SMap Nat
  /-- Roles of metadata groups that have moved: place in R128's order, and the group that has it (R179). -/
  roles : SMap Nat
  /-- Roles that move at their next reset (R179). -/
  roleDue : List Nat
  /-- Health warnings issued: the highest WARN so far (R186). -/
  warned : Nat
  /-- Free positions have run out, until F reaches G + 481 (R188). -/
  roFree : Bool
  /-- Data positions of each channel that were retired at the last format (R185, R191). -/
  retiredAtFormat : SMap Nat := []
  /-- Channels whose catch-up scrub has not yet begun its phase 2 since the start (R176). -/
  catchDue : List Nat := []
  /-- The reference lines, plane × 64 + line, with planes as above (R168, R192); erased where none is listed. -/
  refs : SMap Stored := []
  /-- The die of a channel at which the next periodic retrain looks for its turn; 0 where not listed (R211). -/
  trainTurn : SMap Nat := []
  /-- The dies of a channel that MEDn_CTL.RETRAIN has still to train (R213). -/
  retrainDue : SMap (List Nat) := []
  /-- Groups of a channel's reserve still to take the place of metadata positions that retired (R187, R190). -/
  metaOwed : SMap Nat := []
deriving DecidableEq, Repr

/-! ### Answers -/

/-- What the block has answered to the world outside. -/
inductive Response where
  | regData (p : Path) (v : Word)
  | mgmt (code : Byte) (data : List Word)
  | readData (n : Fin 8) (id : Nat) (data : HostLine) (poison : Bool)
  | writeDone (n : Fin 8) (id : Nat) (stored : Bool)
  | mbox (n : Fin 8) (opcode : Nat) (code : Nat) (payload : List Nat)
  /-- The DSMAS entries of CDAT, the static capacity as none and DC regions by number, with the latencies in ns and the
  trained rate and width that every one of them reports (R44). -/
  | cdat (n : Fin 8) (dsmas : List (Option Nat)) (readNs : Nat) (writeNs : Nat) (rate : Nat) (width : Nat)
  | spdm (n : Fin 8) (digests : List (Nat × List Byte)) (signature : BitVec 768)
  /-- What a debugger's read returned; `bad` where it could not be had. -/
  | debug (v : Xlen) (bad : Bool)
  | gpfDone (n : Fin 8) (phase : Nat)
  /-- A PFC frame sent on a stream port: pause, or go on (R282). -/
  | pfcSent (link : Nat) (pause : Bool)
  | uncorrectable (n : Fin 8)
  | viral (n : Fin 8)
  | pmcIrq (i : Nat)
  | die (ch : Nat) (die : Nat) (data : List Byte)
  /-- A read that the N16 sends to a die for its own use: the media position and the thresholds that go with it (R167). -/
  | mediaRead (mpa : Nat) (thr : List Nat)
  /-- A frame sent, its parts and, in `wire`, its bytes (R283 to R287). -/
  | orbFrame (link : Nat) (peer : Nat) (chan : Nat) (seq : Nat) (ack : Nat) (nctr : Nat) (credit : Nat) (term : Word) (m : OrbMsg)
      (wire : List Byte)
deriving DecidableEq, Repr

/-! ### The machine -/

structure State where
  regs : SMap Word
  settings : SMap Word
  aonTick : BitVec 48
  aonPhase : Nat
  now : Nat
  freeCtr : Nat
  rgn : RegionSt
  ports : SMap PortSt
  accesses : List Access
  key : KeySt
  adm : AdmSt
  store : StoreSt
  evr : EvrSt
  nvs : NvsSt
  board : BoardSt
  clu : CluSt
  stq : SMap QueueSt
  dom : DomSt
  orb : OrbSt
  paths : SMap PathSt
  wear : WearSt
  dies : SMap DieSt
  thm : ThmSt
  seq : SeqSt
  kvc : KvcSt
  boot : BootSt
  /-- AON ticks spent in each mode, by m of MODE_TIMEm (R402), at each dimming step as 16 + k (R323), and in Hold since the last
  start as 40. -/
  modeTicks : SMap Nat
  /-- When durations that registers show began, in 5 ns cycles. -/
  marks : SMap Nat
  out : List Response
  pending : List Instr
deriving DecidableEq, Repr

/-! ### The machine right after reset -/

def adm0 : AdmSt := ⟨[], [], 0, 0, false, 0, 0, [], [], [], []⟩
def orb0 : OrbSt := ⟨[], [], [], [], 0, false, none, [], [], [], [], [], 0, []⟩
def clu0 : CluSt := ⟨[], [], [], [], [], none, none, []⟩
def rc0 : RcSt := ⟨0, 0, false, none, 0, false⟩
def rgn0 : RegionSt := ⟨rc0, [], [], [], 0, none, 0, [], [], [], [], none, []⟩
def key0 : KeySt := ⟨[], [], [], none, false, false, [], [], [], []⟩
def thm0 : ThmSt := ⟨[], [], false, none, none, false⟩
def kvc0 : KvcSt := ⟨[], [], none, none, 0, [], none⟩
def evr0 : EvrSt := ⟨[], 0, [], 0, 1, none⟩
def nvs0 : NvsSt := ⟨[], [], [], none⟩
def wear0 : WearSt := ⟨0, [], [], [], [], [], [], [], [], [], [], [], [], [], [], [], [], [], 0, false, [], [], [], [], [], []⟩

/-- Never formatted, with 128 GiB of DDR5 fitted (log 1). -/
def store0 : StoreSt where
  vault := []
  cache := []
  cacheUse := []
  recArea := []
  halo := []
  drains := []
  map := []
  folds := []
  urgent := []
  deadTiles := []
  drainRun := false
  drainAll := false
  nextKey := 0
  gcRun := []
  groups := []
  roleGens := []
  opened := []
  closeCount := 0
  delta := []
  deltaBase := 0
  ckptA := none
  ckptB := none
  ckptRun := none
  bandA := none
  bandB := none
  imageSeq := 0
  imageRun := none
  fmt := none
  fmtRun := false
  bandResetDue := false
  cells := []
  poison := []
  cacheSets := 0
  ddrGib := 128
  metaArr := []

/-- POR is held; no run, no shutdown, no start. -/
def seq0 : SeqSt where
  por := true
  prog := []
  runProg := []
  run := none
  wait := .none
  steps := 0
  mirror := none
  fast := false
  off := 0
  hosts := false
  drain := false
  cold := none
  held := false
  stage := .none
  src := 1
  warm := false
  afterWarm := false
  left := false
  noAuto := false
  autoWait := false
  faultN := false
  faultLock := false
  zeroDue := false
  penLow := 0
  half := false
  unpowered := false

/-- A 64 MiB octal flash, erased (log 1). -/
def boot0 : BootSt := ⟨⟨26, true, true, []⟩, none, false, [], false, [], none, none⟩

/-- POR held with the supplies about to come up (R438): the power axis Dark and the service axis in Hold (R396), every register at
the reset value of its row, the NV store as at manufacture, no media written, no command waiting. -/
def State.reset : State where
  regs := []
  settings := []
  aonTick := 0
  aonPhase := 0
  now := 0
  freeCtr := 0
  rgn := rgn0
  ports := []
  accesses := []
  key := key0
  adm := adm0
  store := store0
  evr := evr0
  nvs := nvs0
  board := ⟨[], [], []⟩
  clu := clu0
  stq := []
  dom := ⟨[], [], []⟩
  orb := orb0
  paths := []
  wear := wear0
  dies := []
  thm := thm0
  seq := seq0
  kvc := kvc0
  boot := boot0
  modeTicks := []
  marks := []
  out := []
  pending := []

end Sys2Proof.Machine
end

