-- ==== Sys2Proof/Machine/Ops.lean ====
section
/-! DEFINITION. The operations every family uses: registers and their fields, counters, resets by retention class
(R10), access permissions (R9, R422 to R426), events (R339, R343) and the free values. -/

namespace Sys2Proof.Machine

/-! ### Fields of a word -/

/-- Ones in `len` bits from bit `lo`. -/
def fieldMask (lo len : Nat) : Word := BitVec.ofNat 32 ((2 ^ len - 1) * 2 ^ lo)

/-- The value of a field of a word. -/
def fieldGet (w : Word) (lo len : Nat) : Nat := w.toNat / 2 ^ lo % 2 ^ len

/-- The word with the field set to `v` modulo its width. -/
def fieldPut (w : Word) (lo len v : Nat) : Word :=
  (w &&& ~~~ fieldMask lo len) ||| (BitVec.ofNat 32 (v % 2 ^ len) <<< lo)

/-! ### Registers -/

/-- The contents of the register at an offset; one never written holds its reset value (R10). -/
def State.rd (s : State) (off : Nat) : Word := mapGet regReset s.regs off

/-- The state with the register at an offset holding `v`. -/
def State.wr (s : State) (off : Nat) (v : Word) : State := { s with regs := mapSet regReset s.regs off v }

/-- A field's value. -/
def State.get (s : State) (f : Fld) : Nat := fieldGet (s.rd f.off) f.lo f.len

/-- A one-bit field as a truth value. -/
def State.flag (s : State) (f : Fld) : Bool := s.get f != 0

/-- The state with a field set. -/
def State.put (s : State) (f : Fld) (v : Nat) : State := s.wr f.off (fieldPut (s.rd f.off) f.lo f.len v)

/-- The field's value in a word being written to its register. -/
def Fld.of (f : Fld) (v : Word) : Nat := fieldGet v f.lo f.len

/-- The field is not zero in a word being written. -/
def Fld.on (f : Fld) (v : Word) : Bool := f.of v != 0

/-- Adds to a field and stops at its greatest value. -/
def State.sat (s : State) (f : Fld) (k : Nat) : State := s.put f (min (s.get f + k) (2 ^ f.len - 1))

/-- Adds to a whole 32-bit register and stops at its greatest value. -/
def State.satReg (s : State) (off k : Nat) : State :=
  s.wr off (BitVec.ofNat 32 (min ((s.rd off).toNat + k) (2 ^ 32 - 1)))

/-- The 64-bit value of a counter whose low word is at `lo` and whose high word follows (R7). -/
def State.rd64 (s : State) (lo : Nat) : Nat := (s.rd lo).toNat + 2 ^ 32 * (s.rd (lo + 4)).toNat

def State.wr64 (s : State) (lo v : Nat) : State :=
  (s.wr lo (BitVec.ofNat 32 v)).wr (lo + 4) (BitVec.ofNat 32 (v / 2 ^ 32))

/-- Advances a 64-bit counter, which wraps at 2^64. -/
def State.add64 (s : State) (lo k : Nat) : State := s.wr64 lo ((s.rd64 lo + k) % 2 ^ 64)

/-- Advances port n's counter i (R68). -/
def State.hpCount (s : State) (n i k : Nat) : State := s.add64 (R.HP_CNT_LO n i) k

/-- Answers the world outside. -/
def State.say (s : State) (r : Response) : State := { s with out := r :: s.out }

/-- A free value and the state in which the next one is fresh (log 7). -/
def State.fresh (s : State) : BitVec 512 × State := (Config.freeValue s.freeCtr, { s with freeCtr := s.freeCtr + 1 })

/-! ### Resets by retention class (R10) -/

/-- What a reset does to fields: which classes take their defaults, and whether class N reloads. -/
structure ResetKind where
  clears : Cls → Bool
  reload : Bool

/-- A register's word after a reset; `set` is the settings record's word for it. -/
def RegRow.resetWord (r : RegRow) (kind : ResetKind) (set w : Word) : Word :=
  r.fields.foldl (fun w f =>
    if f.cls = .n then (if kind.reload then fieldPut w f.lo f.len (fieldGet set f.lo f.len) else w)
    else if kind.clears f.cls then fieldPut w f.lo f.len f.reset else w) w

/-- The settings record's word for a register (R417): what the record says, or the blank value. -/
def State.settingOf (s : State) (off : Nat) : Word := mapGet regReset s.settings off

/-- Resets the registers whose offset is in scope: those listed, and those the settings record names. -/
def State.resetRegs (s : State) (kind : ResetKind) (scope : Nat → Bool) : State :=
  let one := fun (off : Nat) (w : Word) =>
    if scope off then (match rowOf off with
      | some r => r.resetWord kind (s.settingOf off) w
      | none => w) else w
  let regs := mapMapD regReset one s.regs
  { s with regs := s.settings.foldl (fun m p => mapSet regReset m p.1 (one p.1 (mapGet regReset m p.1))) regs }

def porKind : ResetKind := ⟨fun _ => true, true⟩
def coldKind : ResetKind := ⟨fun c => match c with | .a => false | _ => true, true⟩
def warmKind : ResetKind := ⟨fun c => match c with | .w => true | .p => true | .k => true | _ => false, false⟩
def portKind : ResetKind := ⟨fun c => c == .p, false⟩
def clusterKind : ResetKind := ⟨fun c => c == .k, false⟩

/-! ### Modes (R383) -/

def State.power (s : State) : Nat := s.get F.MODE_STAT_POWER
def State.service (s : State) : Nat := s.get F.MODE_STAT_SERVICE
def State.trust (s : State) : Nat := s.get F.MODE_STAT_TRUST
def pwLit : Nat := 0
def pwDim : Nat := 1
def pwDark : Nat := 2
def pwEclipse : Nat := 3
def svHold : Nat := 0
def svNormal : Nat := 1
def svDegraded : Nat := 2
def svReadOnly : Nat := 3
def svHalted : Nat := 4
def trSealed : Nat := 0
def trOwner : Nat := 1
def trVendor : Nat := 2

/-- The power axis is Lit or Dim. -/
def State.lit (s : State) : Bool := s.power == pwLit || s.power == pwDim

/-- The N16 is in Halted, or its HALT line has risen (R27, R91). -/
def State.halted (s : State) : Bool := s.service == svHalted || s.key.halt

/-! ### Who may reach a register (R9, R422 to R426, R312) -/

/-- The configuration Hold of R412: CONFIG is 1, and not after a warm reset. -/
def State.configHold (s : State) : Bool := s.flag F.MODE_HOLD_WHY_CONFIG && !s.seq.afterWarm

/-- A block answers (R426); none does while POR is held (R438). -/
def State.answers (s : State) (b : Block) : Bool :=
  !s.seq.por && match b with
  | .mode | .seq | .thm | .nvs | .evr | .kvc | .id => true
  | .boot => s.power != pwDark
  | _ => s.power != pwDark && !s.configHold

/-- The owner-token authorisation is open (R353). -/
def State.authorised (s : State) : Bool := s.flag F.KVC_AUTH_OPEN

/-- Port n is the odd port of a merged pair and reaches nothing (R41, R422). -/
def State.oddMerged (s : State) (n : Nat) : Bool := n % 2 == 1 && s.flag (F.HP_ID_MERGED (n - 1))

/-- A path may write fields of a block at all (R422). -/
def State.pathWrites (s : State) (p : Path) (b : Block) : Bool :=
  match p with
  | .mgmt => (match b with | .key | .eng | .thm => false | _ => true)
  | .cc => (match b with | .mode | .seq | .thm | .nvs | .evr | .kvc => false | _ => true)
  | .host n => !s.oddMerged n.val && (match b with | .hp m => m == n.val | .id => true | _ => false)
  | .cluster _ => (match b with | .id => true | _ => false)

/-- One field of a register after a permitted write of `v`, by its access code (R9). -/
def RegField.write (f : RegField) (mgmtAuth locked : Bool) (v w : Word) : Word :=
  let old := fieldGet w f.lo f.len
  let new := fieldGet v f.lo f.len
  match f.acc with
  | .ro | .wo | .sp => w
  | .rw => fieldPut w f.lo f.len new
  | .w1c => fieldPut w f.lo f.len (old - (old &&& new))
  | .rwl => if locked then w else fieldPut w f.lo f.len new
  | .spm => if mgmtAuth then fieldPut w f.lo f.len new else w
  | .spmc => if mgmtAuth then fieldPut w f.lo f.len (old - (old &&& new)) else w

/-- A register's word after a permitted write of `v`; reserved bits are not written (R8, R9). -/
def RegRow.writeWord (r : RegRow) (mgmtAuth locked : Bool) (v w : Word) : Word :=
  r.fields.foldl (fun w f => f.write mgmtAuth locked v w) w

/-- The odd port of a merged pair has its block's writes discarded (R41). -/
def State.inertBlock (s : State) : Block → Bool
  | .hp n => s.oddMerged n
  | _ => false

/-- The path may write registers at this offset now (R422, R425, R426). -/
def State.mayWrite (s : State) (p : Path) (off : Nat) : Bool :=
  match blockOf off with
  | some b => s.answers b && s.pathWrites p b && !s.inertBlock b
  | none => false

/-- The write that the access codes alone make (R9), with no further effect. -/
def State.plainWrite (s : State) (p : Path) (off : Nat) (v : Word) : State :=
  match rowOf off with
  | some r =>
    if s.mayWrite p off then
      s.wr (homeOff off) (r.writeWord (p == .mgmt && s.authorised) (s.flag F.BOOT_STAT_SEALED) v (s.rd (homeOff off)))
    else s
  | none => s

/-! ### Events (R337 to R343) -/

/-- Classes that an append queue never drops for another (R343). -/
def keptClass (c : Nat) : Bool := c == 1 || c == 5 || c == 7

/-- Value of a spread counter: the highest among its groups that verify and name it (R332). -/
def State.spread (s : State) (c : Nat) : Nat :=
  (List.range 128).foldl (fun m i =>
    let g := mapGet (fun _ => (64#72 <<< 64)) s.nvs.groups ((512 + 4 * c) * 32 + i)
    let d := (g.extractLsb' 0 64).toNat
    let zeros := (List.range 64).countP (fun b => !g.getLsbD b)
    if (g.extractLsb' 64 8).toNat = zeros ∧ d / 2 ^ 32 % 256 = c then max m (d % 2 ^ 32) else m) 0

/-- TIME of an event detected now (R338). -/
def State.evTime (s : State) : BitVec 64 :=
  BitVec.ofNat 64 (s.aonTick.toNat + 2 ^ 48 * (s.spread 0 % 2 ^ 16))

/-- The youngest queued record of a class that may be dropped, removed; none where all are kept (R343). -/
def dropYoungest : List EventRec → Option (List EventRec)
  | [] => none
  | e :: es =>
    match dropYoungest es with
    | some r => some (e :: r)
    | none => if keptClass e.cls then none else some es

/-- Counts an event dropped (R343). -/
def State.dropEvent (s : State) : State :=
  { s.satReg R.EVR_DROPPED 1 with evr.dropWait := s.evr.dropWait + 1 }

/-- The order of events of one safety-core cycle: ascending class, then code (R339); of mode changes, power comes first (R384). -/
def eventRank (e : EventRec) : Nat := 256 * e.cls + (if e.cls = 7 ∧ e.code = 2 then 0 else e.code)

/-- The queue, youngest first, with one more event in its place. -/
def orderEvents (e : EventRec) : List EventRec → List EventRec
  | [] => [e]
  | x :: xs =>
    if x.born = e.born ∧ !e.bar ∧ !x.bar ∧ eventRank e < eventRank x then
      x :: orderEvents e xs
    else e :: x :: xs

def queueEvent (q : List EventRec) (e : EventRec) : List EventRec := (orderEvents e q.reverse).reverse

/-- Puts an event into the append queue (R343). -/
def State.postRec (s : State) (e : EventRec) : State :=
  let n := s.evr.queue.length
  if n < 64 then
    let t : State := { s with evr.queue := queueEvent s.evr.queue e }
    (t.put F.EVR_PENDING_records (n + 1)).put F.EVR_PENDING_most (max (n + 1) (s.get F.EVR_PENDING_most))
  else if keptClass e.cls then
    match dropYoungest s.evr.queue with
    | some q => State.dropEvent { s with evr.queue := queueEvent q e }
    | none => s.dropEvent
  else s.dropEvent

/-- Records an event detected now (R338, R339). -/
def State.post (s : State) (cls code subject detail : Nat) : State :=
  s.postRec ⟨cls, code, s.evTime, BitVec.ofNat 64 subject, BitVec.ofNat 64 detail, [], s.now, false⟩

/-- Records an event of a later step of a sequence, after those already detected (R339). -/
def State.postNext (s : State) (cls code subject detail : Nat) : State :=
  s.postRec ⟨cls, code, s.evTime, BitVec.ofNat 64 subject, BitVec.ofNat 64 detail, [], s.now, true⟩

/-! ### Marks in time -/

/-- Remembers the present moment as mark k. -/
def State.mark (s : State) (k : Nat) : State := { s with marks := mapPut s.marks k s.now }

/-- Whole µs since a mark; a cycle of `now` is 5 ns. -/
def State.usSince (s : State) (k : Nat) : Nat := (s.now - (mapGet? s.marks k).getD s.now) / 200

/-- So many cycles of 5 ns have passed since a mark, or it was never set. -/
def State.passed (s : State) (k cycles : Nat) : Bool :=
  match mapGet? s.marks k with
  | some t => decide (t + cycles ≤ s.now)
  | none => true

/-- Forgets mark k. -/
def State.unmark (s : State) (k : Nat) : State := { s with marks := mapDel s.marks k }

/-- Mark k is set, and so many cycles of 5 ns have passed since. -/
def State.lasted (s : State) (k cycles : Nat) : Bool := (mapGet? s.marks k).isSome && s.passed k cycles

/-- 100 ms and 1 s in cycles of 5 ns. -/
def ms100 : Nat := 20000000
def oneSecond : Nat := 200000000

/-- Two's complement of an integer in n bits. -/
def twos (n : Nat) (i : Int) : Nat := (i % (2 ^ n : Nat)).toNat

/-! ### Requester paths and ports -/

/-- The number of a path, as ID_PATH reads (R424). -/
def Path.num : Path → Nat
  | .mgmt => 0
  | .host n => 1 + n.val
  | .cluster k => 9 + k.val
  | .cc => 13

def cursorInit : CursorSt := ⟨0, 0, 0, [], none⟩

def pathInit : PathSt := ⟨none, 0, 0, 0, 0, 0, 0, 0, [], cursorInit⟩

def State.path (s : State) (p : Path) : PathSt := mapGet (fun _ => pathInit) s.paths (Path.num p)

def State.setPath (s : State) (p : Path) (x : PathSt) : State :=
  { s with paths := mapSet (fun _ => pathInit) s.paths (Path.num p) x }

/-- What path number i latched from low words goes with the path's reset (R7, R120): a conventional reset of its port, the
reset of its cluster (log 63). -/
def State.clearLatch (s : State) (i : Nat) : State :=
  { s with paths := mapSet (fun _ => pathInit) s.paths i { mapGet (fun _ => pathInit) s.paths i with
      latch := none
      pmcHi := 0 } }

/-- An empty event log. -/
def cxlLog0 : CxlLog := ⟨[], 0, 0, 0⟩

def portInit : PortSt where
  linkUp := false
  retired := false
  resetting := false
  decs := []
  commitErr := []
  ideKeyed := false
  ideBad := false
  dcAccepted := []
  dcAsked := []
  dcUsed := []
  partNext := none
  partVolatile := 0
  lsa := []
  mbox := none
  info := cxlLog0
  warn := cxlLog0
  failure := cxlLog0
  fatal := cxlLog0
  roAt := []
  rstSeen := 0
  msix := 0
  poisonAt := none
  replayFrom := none
  rasErr := false
  intPolicy := [1, 1, 1, 1]
  alerts := List.replicate 12 0
  dirty := false
  respLimit := none

def State.port (s : State) (n : Nat) : PortSt := mapGet (fun _ => portInit) s.ports n

def State.setPort (s : State) (n : Nat) (p : PortSt) : State :=
  { s with ports := mapSet (fun _ => portInit) s.ports n p }

/-- Adds a record to an event log of 64; a full log counts what it loses, up to 65,535 as the CXL standard has it, and keeps
the time of the first and of the last (R64). -/
def CxlLog.add (l : CxlLog) (e : CxlEvent) : CxlLog :=
  if l.recs.length < 64 then { l with recs := l.recs ++ [e] }
  else { l with
    overflow := min 65535 (l.overflow + 1)
    first := if l.overflow = 0 then e.time else l.first
    last := e.time }

/-- Raises an MSI-X vector of port n: 0 mailbox, 1 event log, 2 DOE, 3 error (R43). -/
def State.msix (s : State) (n v : Nat) : State :=
  s.setPort n { s.port n with msix := (s.port n).msix ||| (1#4 <<< v) }

/-- Shows the sizes of a port's event logs (R68). -/
def State.showLogs (s : State) (n : Nat) : State :=
  let p := s.port n
  (((s.put (F.HP_EVT_STAT_INFO n) p.info.recs.length).put (F.HP_EVT_STAT_WARN n) p.warn.recs.length).put
    (F.HP_EVT_STAT_FAIL n) p.failure.recs.length).put (F.HP_EVT_STAT_FATAL n) p.fatal.recs.length

/-- A port's event log. -/
def PortSt.log (p : PortSt) : EvLog → CxlLog
  | .info => p.info
  | .warn => p.warn
  | .failure => p.failure
  | .fatal => p.fatal

def PortSt.setLog (p : PortSt) (l : EvLog) (v : CxlLog) : PortSt :=
  match l with
  | .info => { p with info := v }
  | .warn => { p with warn := v }
  | .failure => { p with failure := v }
  | .fatal => { p with fatal := v }

def evLogNum : EvLog → Nat
  | .info => 0
  | .warn => 1
  | .failure => 2
  | .fatal => 3

/-- The host's policy lets records of a log raise the event vector (R43, R65): MSI-X is setting 1, which every log has until the host
sets another (log 84). -/
def PortSt.interrupts (p : PortSt) (l : EvLog) : Bool := (p.intPolicy.getD (evLogNum l) 0).toNat % 4 == 1

/-- Records a CXL event with its extents in one port's log (R54, R64). -/
def State.cxlEventExts (s : State) (n : Nat) (l : EvLog) (kind : String) (arg : Nat) (exts : List (Nat × Nat)) : State :=
  let e : CxlEvent := ⟨kind, arg, s.aonTick.toNat, exts⟩
  let t := (s.setPort n ((s.port n).setLog l (((s.port n).log l).add e))).showLogs n
  if (s.port n).interrupts l then t.msix n 1 else t

/-- Records a CXL event in one port's log (R64). -/
def State.cxlEvent (s : State) (n : Nat) (l : EvLog) (kind : String) (arg : Nat) : State :=
  s.cxlEventExts n l kind arg []

/-- Records a device-wide event on every port with a link up (R64). -/
def State.cxlEventAll (s : State) (l : EvLog) (kind : String) (arg : Nat) : State :=
  (List.range 8).foldl (fun s n => if (s.port n).linkUp then s.cxlEvent n l kind arg else s) s

/-- Records an event tied to a region on every port its PORTS names (R64). -/
def State.cxlEventPorts (s : State) (ports : Nat) (l : EvLog) (kind : String) (arg : Nat) : State :=
  (List.range 8).foldl (fun s n => if ports.testBit n then s.cxlEvent n l kind arg else s) s

/-! ### Mode changes (R384) -/

/-- Sets an axis, records the change and counts it: `code` 1 service, 2 power, 3 trust (R384, R402). -/
def State.setAxis (s : State) (f : Fld) (code new cause : Nat) : State :=
  if s.get f = new then s
  else
    let old := s.get f
    let t := s.put f new
    let m := (if code = 2 then 0 else if code = 1 then 4 else 9) + new
    let t := t.satReg (R.MODE_ENTRY m) 1
    let k := if t.get F.MODE_HIST_IDX_mode = 0 then 0 else (t.get F.MODE_HIST_IDX_index + 1) % 8
    let t := (t.put F.MODE_HIST_IDX_index k).sat F.MODE_HIST_IDX_mode 1
    let t := t.wr (R.MODE_HIST k) (BitVec.ofNat 32 (code + 16 * old + 256 * new + 4096 * cause))
    t.post 0x07 code (old + 256 * cause) (new + 2 ^ 32 * (t.rd R.MODE_STAT).toNat)

def State.setService (s : State) (new cause : Nat) : State := s.setAxis F.MODE_STAT_SERVICE 1 new cause
def State.setPower (s : State) (new cause : Nat) : State := s.setAxis F.MODE_STAT_POWER 2 new cause
def State.setTrust (s : State) (new cause : Nat) : State := s.setAxis F.MODE_STAT_TRUST 3 new cause

end Sys2Proof.Machine
end

