-- ==== Sys2Proof/Machine/NvStore.lean ====
section
/-! DEFINITION. The NV store (R324 to R336): groups and their codes, the page-write queue, records with two copies, and
the spread counters. -/

namespace Sys2Proof.Machine

/-! ### Groups (R325) -/

/-- A group as left at manufacture: zeros with code 64. -/
def nvBlank : BitVec 72 := 64#72 <<< 64

/-- Zero bits among the 64 data bits. -/
def zeroCount (d : BitVec 64) : Nat := (List.range 64).countP (fun b => !d.getLsbD b)

def nvData (g : BitVec 72) : BitVec 64 := g.extractLsb' 0 64
def nvCode (g : BitVec 72) : Nat := (g.extractLsb' 64 8).toNat

/-- A group with its code. -/
def nvGroup (d : BitVec 64) : BitVec 72 := BitVec.ofNat 72 (d.toNat + zeroCount d * 2 ^ 64)

/-- A group that fails its code; its data is never read (log 6). -/
def nvTorn : BitVec 72 := BitVec.allOnes 72

def nvVerifies (g : BitVec 72) : Bool := nvCode g == zeroCount (nvData g)

def State.nvGroupAt (s : State) (page k : Nat) : BitVec 72 := mapGet (fun _ => nvBlank) s.nvs.groups (page * 32 + k)

def State.setNvGroup (s : State) (page k : Nat) (g : BitVec 72) : State :=
  { s with nvs.groups := mapSet (fun _ => nvBlank) s.nvs.groups (page * 32 + k) g }

/-- What a read of a group returns: eight bytes of ones when it is torn. -/
def State.nvRead (s : State) (page k : Nat) : BitVec 64 :=
  let g := s.nvGroupAt page k
  if nvVerifies g then nvData g else BitVec.allOnes 64

/-- A torn group was read: the registers show it, the first is recorded at once and the next are counted for the record at
the end of the second. -/
def State.noteTorn (s : State) (page k : Nat) : State :=
  let t := (s.put F.NVS_STATUS_TORN 1).sat F.NVS_LAST_TORN_torn 1
  let t := (t.put F.NVS_LAST_TORN_page page).put F.NVS_LAST_TORN_group k
  match t.nvs.tornRun with
  | none => State.mark { t.post 0x0C 0x01 (page + 2048 * k) 1 with nvs.tornRun := some (0, 0) } 80
  | some (n, _) => { t with nvs.tornRun := some (n + 1, page + 2048 * k) }

/-- The second after a torn read, which mark 80 began, ends: those counted in it share one record. -/
def State.tornReport (s : State) : State :=
  if !s.passed 80 oneSecond then s
  else match s.nvs.tornRun with
  | none => s
  | some (0, _) => { s with nvs.tornRun := none }
  | some (n, where_) => { s.post 0x0C 0x01 where_ n with nvs.tornRun := none }

/-! ### The queue (R327) -/

/-- Shows the queue and whether a write is in progress. -/
def State.showNvQueue (s : State) : State :=
  let n := min 16 s.nvs.queue.length
  let t := (s.put F.NVS_QUEUE_page n).put F.NVS_QUEUE_most (max n (s.get F.NVS_QUEUE_most))
  t.put F.NVS_STATUS_BUSY (if s.flag F.NVS_STATUS_READY && n != 0 then 1 else 0)

def State.nvEnqueue (s : State) (w : NvsWrite) : State :=
  State.showNvQueue { s with nvs.queue := s.nvs.queue ++ [w] }

/-! ### Records (R329 to R331) -/

/-- First pages of copies A and B and the pages of a copy, by TYPE (R324). -/
def recPages : Nat → Nat × Nat × Nat
  | 1 => (768, 896, 128)
  | 2 => (1024, 1025, 1)
  | 3 => (1026, 1027, 1)
  | 4 => (1028, 1029, 1)
  | 5 => (1032, 1096, 64)
  | _ => (0, 0, 0)

def recPage (type : Nat) (copyB : Bool) : Nat := if copyB then (recPages type).2.1 else (recPages type).1

/-- The groups of a record copy. -/
def State.recGroup (s : State) (type : Nat) (copyB : Bool) (i : Nat) : BitVec 64 :=
  s.nvRead (recPage type copyB + i / 32) (i % 32)

/-- A copy's SEQ and its bytes, when it verifies (R329). -/
def State.recCopy (s : State) (type : Nat) (copyB : Bool) : Option (Nat × List Byte) :=
  let p := recPage type copyB
  let h := s.recGroup type copyB 0
  let len := h.toNat / 2 ^ 16 % 2 ^ 16
  let groups := (List.range len).map (s.recGroup type copyB)
  let bytes := groups.flatMap (toBytes 8)
  let body := bytes.take (8 * (len - 1))
  let tail := bytes.drop (8 * (len - 1))
  let seq := h.toNat / 2 ^ 32
  let g1 := groups.getD 1 0
  if h.toNat % 2 ^ 16 = type ∧ 2 ≤ len ∧ len ≤ 32 * (recPages type).2.2 then
    if (List.range len).all (fun i => nvVerifies (s.nvGroupAt (p + i / 32) (i % 32))) &&
        crc32 body == ofBytes 32 (tail.take 4) && leNat (tail.drop 4) == seq &&
        (type != 1 || (g1.toNat % 256 == 1 && len == g1.toNat / 2 ^ 16 % 2 ^ 10 + 3)) &&
        (type != 5 || g1.toNat % 256 == 1) then some (seq, bytes)
    else none
  else none

/-- The contents of the copy in use: groups 1 to LENGTH - 2; none while the record is blank. -/
def State.recUsed (s : State) (type : Nat) : Option (List Byte) :=
  match mapGet? s.nvs.inUse type with
  | none => none
  | some b => (s.recCopy type b).map (fun c => (c.2.drop 8).take (c.2.length - 16))

/-- The copy and SEQ that the next store of a record writes, counting stores still queued (R331). -/
def State.recNext (s : State) (type : Nat) : Bool × Nat :=
  let queued := s.nvs.queue.filterMap (fun w => match w.done with
    | .record ty b q => if ty = type then some (b, q.toNat) else none
    | _ => none)
  match queued.getLast? with
  | some (b, q) => (!b, (q + 1) % 2 ^ 32)
  | none => match mapGet? s.nvs.inUse type with
    | none => (false, 1)
    | some b => (!b, (s.rd (R.NVS_REC_SEQ type)).toNat + 1)

/-- Requests the store of a record's contents as one write of several pages (R329, R331). -/
def State.storeRecord (s : State) (type : Nat) (content : List Byte) : State :=
  let (copyB, seq) := s.recNext type
  let content := content ++ List.replicate ((8 - content.length % 8) % 8) 0
  let len := content.length / 8 + 2
  let body := leBytes 2 type ++ leBytes 2 len ++ leBytes 4 seq ++ content
  let all := body ++ toBytes 4 (crc32 body) ++ leBytes 4 seq
  let groups := (chunks 8 len all).map (ofBytes 64)
  let pages := (len + 31) / 32
  let t := (List.range pages).foldl (fun (s : State) i =>
    s.nvEnqueue ⟨recPage type copyB + i,
      ((groups.drop (32 * i)).take 32).zipIdx.map (fun g => (g.2, g.1)),
      if i + 1 = pages then .record type copyB (BitVec.ofNat 32 seq) else .part type⟩) s
  if copyB then t.put (F.NVS_REC_STAT_B type) 0 else t.put (F.NVS_REC_STAT_A type) 0

/-! ### Spread counters (R332, R333) -/

def satBitReg (c : Nat) : Nat := if c < 32 then R.NVS_CNT_SAT_LO else R.NVS_CNT_SAT_HI

def State.isSat (s : State) (c : Nat) : Bool := (s.rd (satBitReg c)).getLsbD (c % 32)

def State.markSat (s : State) (c : Nat) (record : Bool) : State :=
  if s.isSat c then s
  else
    let t := (s.wr (satBitReg c) (s.rd (satBitReg c) ||| (1#32 <<< (c % 32)))).put F.NVS_STATUS_SAT 1
    if record then t.post 0x0C 0x05 c 0xFFFFFFFF else t

/-- The counter's value with the increments still queued. -/
def State.spreadDue (s : State) (c : Nat) : Nat :=
  s.nvs.queue.foldl (fun m w => match w.done with
    | .counter k v => if k = c then max m v else m
    | _ => m) (s.spread c)

/-- An increment of counter c: v + 1 goes to group (v + 1) mod 128. -/
def State.bump (s : State) (c : Nat) : State :=
  let v := s.spreadDue c
  if v ≥ 2 ^ 32 - 1 then s.markSat c true
  else
    let n := v + 1
    let g := n % 128
    s.nvEnqueue ⟨512 + 4 * c + g / 32, [(g % 32, BitVec.ofNat 64 (n + 2 ^ 32 * c))], .counter c n⟩

/-! ### Page writes (R326, R327) -/

/-- What a page write completes. -/
def State.nvDone (s : State) : NvsDone → State
  | .plain => s
  | .part _ => s
  | .ring born =>
    s.put F.EVR_APPEND_US_longest (min 65535 (max (s.get F.EVR_APPEND_US_longest) ((s.now - born) / 200)))
  | .counter c v => if v = 2 ^ 32 - 1 then s.markSat c true else s
  | .record ty b q =>
    let t : State := { s with nvs.inUse := mapPut s.nvs.inUse ty b }
    let t := ((t.put (F.NVS_REC_STAT_copy ty) (if b then 1 else 0)).put (F.NVS_REC_STAT_BLANK ty) 0).wr
      (R.NVS_REC_SEQ ty) q
    let t := if b then t.put (F.NVS_REC_STAT_B ty) 1 else t.put (F.NVS_REC_STAT_A ty) 1
    let t := t.add64 R.NVS_STORE_CNT_LO 1
    (t.put F.NVS_LAST_STORE_TYPE ty).put F.NVS_LAST_STORE_copy (if b then 1 else 0)

/-- The pages of an abandoned record write that still wait go with it. -/
def dropParts (ty : Nat) : List NvsWrite → List NvsWrite
  | [] => []
  | w :: ws => match w.done with
    | .part t => if t = ty then dropParts ty ws else w :: ws
    | .record t _ _ => if t = ty then ws else w :: ws
    | _ => w :: ws

def NvsDone.part? : NvsDone → Option Nat
  | .part t => some t
  | _ => none

/-- Writes the groups of a page in ascending order, and counts them. -/
def State.nvWriteGroups (s : State) (page : Nat) (gs : List (Nat × BitVec 64)) : State :=
  gs.foldl (fun s g => (s.setNvGroup page g.1 (nvGroup g.2)).add64 R.NVS_WR_GROUPS_LO 1) s

/-- A page write writes all 32 groups (R327), those with nothing new as they read; an increment writes one group (R332). -/
def State.nvWhole (s : State) (w : NvsWrite) : List (Nat × BitVec 64) :=
  match w.done with
  | .counter _ _ => w.groups
  | _ => (List.range 32).map (fun k =>
      (k, match w.groups.find? (fun g => g.1 == k) with | some g => g.2 | none => s.nvRead w.page k))

/-- The page write at the front of the queue ends. `bad` is a group that reads back torn three times: the write is
abandoned there (R326). -/
def State.nvPageWrite (s : State) (bad : Option Nat) : State :=
  if !s.flag F.NVS_STATUS_READY then s
  else match s.nvs.queue with
    | [] => s
    | w :: ws =>
      let all := s.nvWhole w
      match bad.filter (fun k => all.any (fun g => g.1 == k)) with
      | none =>
        let t : State := { s.nvWriteGroups w.page all with nvs.queue := ws }
        (t.nvDone w.done).showNvQueue
      | some k =>
        let rest := match w.done.part? with | some ty => dropParts ty ws | none => ws
        let t : State := { s.nvWriteGroups w.page (all.filter (fun g => g.1 < k)) with nvs.queue := rest }
        let t := (t.setNvGroup w.page k nvTorn).add64 R.NVS_WR_GROUPS_LO 4
        let t := (t.satReg R.NVS_FAIL 1).put F.NVS_STATUS_FAIL 1
        (t.post 0x0C 0x06 (w.page + 2048 * k) 0).showNvQueue

/-! ### The scan (R328, R330) -/

/-- The pages that the scan reads: the ring, the counters and the records. -/
def scanPage (p : Nat) : Bool := decide (p < 1030) || (decide (1032 ≤ p) && decide (p < 1160))

/-- Copy A is the newer (R330). -/
def newerA (a b : Nat) : Bool :=
  let d := (a + 2 ^ 32 - b) % 2 ^ 32
  decide (1 ≤ d) && decide (d ≤ 2 ^ 31)

/-- Chooses a record's copy (R330). -/
def State.chooseCopy (s : State) (ty : Nat) : State :=
  let a := s.recCopy ty false
  let b := s.recCopy ty true
  let s := (s.put (F.NVS_REC_STAT_A ty) (if a.isSome then 1 else 0)).put (F.NVS_REC_STAT_B ty) (if b.isSome then 1 else 0)
  let s := s.put (F.NVS_REC_STAT_tie ty) 0
  let use := fun (s : State) (copyB : Bool) (seq : Nat) =>
    let t : State := { s with nvs.inUse := mapPut s.nvs.inUse ty copyB }
    ((t.put (F.NVS_REC_STAT_copy ty) (if copyB then 1 else 0)).put (F.NVS_REC_STAT_BLANK ty) 0).wr (R.NVS_REC_SEQ ty)
      (BitVec.ofNat 32 seq)
  match a, b with
  | some x, some y =>
    if x.1 = y.1 then
      if x.2 = y.2 then use s false x.1
      else
        let t := ((use s false x.1).put F.NVS_STATUS_TIE 1).put (F.NVS_REC_STAT_tie ty) 1
        (t.sat F.NVS_TIE_CNT_ties 1).post 0x0C 0x02 ty x.1
    else if newerA x.1 y.1 then use s false x.1 else use s true y.1
  | some x, none => (use s false x.1).post 0x0C 0x03 ty 1
  | none, some y => (use s true y.1).post 0x0C 0x03 ty 0
  | none, none =>
    let t : State := { s with nvs.inUse := mapDel s.nvs.inUse ty }
    ((t.put (F.NVS_REC_STAT_BLANK ty) 1).wr (R.NVS_REC_SEQ ty) 0).post 0x0C 0x04 ty 0

/-- The scan of the store (R328 steps 2 and 3): torn groups, record copies, and counters found saturated. -/
def State.nvScan (s : State) : State :=
  let torn := s.nvs.groups.filter (fun g => scanPage (g.1 / 32) && !nvVerifies g.2)
  let t := torn.foldl (fun s g => s.noteTorn (g.1 / 32) (g.1 % 32)) s
  let t := t.put F.NVS_SCAN_TORN_torn (min 65535 torn.length)
  let t := [1, 2, 3, 4, 5].foldl (fun s ty => s.chooseCopy ty) t
  (List.range 64).foldl (fun s c => if s.spread c = 2 ^ 32 - 1 then s.markSat c false else s) t

/-- Power fails (R327): the group being written reads old, new or torn, by a free value; nothing later is written. -/
def State.nvPowerLoss (s : State) : State :=
  let t := s.put F.NVS_STATUS_READY 0
  let t : State := { t with
    nvs.queue := []
    nvs.tornRun := none }
  match s.nvs.queue, s.flag F.NVS_STATUS_READY with
  | w :: _, true =>
    let (f, t) := t.fresh
    let k := f.toNat % 33
    let all := s.nvWhole w
    let t := t.nvWriteGroups w.page (all.take k)
    match all[k]? with
    | some g => if f.getLsbD 8 then (if f.getLsbD 9 then t.setNvGroup w.page g.1 nvTorn
        else t.setNvGroup w.page g.1 (nvGroup g.2)) else t
    | none => t
  | _, _ => t

/-- A write of NVS_CNT_INC by the management port after authorisation, with GO, for counters 16 to 63 (R335). -/
def State.nvsCntInc (s : State) (p : Path) (v : Word) : State :=
  if p == .mgmt && s.authorised && F.NVS_CNT_INC_GO.on v && decide (16 ≤ F.NVS_CNT_INC_counter.of v) then
    s.bump (F.NVS_CNT_INC_counter.of v)
  else s

/-! ### The commands -/

def execNvPageWrite (bad : Option (Fin 32)) (s : State) : Host.Outcome State Fault Refusal :=
  .next (s.nvPageWrite (bad.map (·.val)))

def execNvsCntInc (p : Path) (v : Word) (s : State) : Host.Outcome State Fault Refusal := .next (s.nvsCntInc p v)

def execTornReport (s : State) : Host.Outcome State Fault Refusal := .next s.tornReport

end Sys2Proof.Machine
end

