-- ==== Sys2Proof/Machine/Regions.lean ====
section
/-! DEFINITION. Regions: descriptors and their lookup (R47, R50), the region commit port (R16, R19, R48), drain
indications (R18), releases (R234), the live metering counters (R121) and the unit-state board (R23, R307). -/

namespace Sys2Proof.Machine

/-! ### Descriptor fields (R47, R101, R296) -/

/-- Dword i of a descriptor. -/
def dw (d : BitVec 512) (i : Nat) : Word := d.extractLsb' (32 * i) 32

/-- The descriptor with dword i replaced. -/
def setDw (d : BitVec 512) (i : Nat) (w : Word) : BitVec 512 :=
  BitVec.ofNat 512 (d.toNat - (dw d i).toNat * 2 ^ (32 * i) + w.toNat * 2 ^ (32 * i))

def dGen (d : BitVec 512) : Word := dw d 0
def dValid (d : BitVec 512) : Bool := (dw d 1).getLsbD 0
def dType (d : BitVec 512) : Nat := fieldGet (dw d 1) 1 2
def dPart (d : BitVec 512) : Bool := (dw d 1).getLsbD 3
def dDc (d : BitVec 512) : Bool := (dw d 1).getLsbD 4
def dPatient (d : BitVec 512) : Bool := (dw d 1).getLsbD 5
def dClass (d : BitVec 512) : Nat := fieldGet (dw d 1) 6 3
def dKeySrc (d : BitVec 512) : Bool := (dw d 1).getLsbD 9
def dSpan (d : BitVec 512) : Nat := fieldGet (dw d 1) 10 3
def dEngEn (d : BitVec 512) : Bool := (dw d 1).getLsbD 13
def dMetEn (d : BitVec 512) : Bool := (dw d 1).getLsbD 14
def dPorts (d : BitVec 512) : Nat := fieldGet (dw d 1) 16 8
def dKey (d : BitVec 512) : Nat := fieldGet (dw d 2) 0 14
def dBase (d : BitVec 512) : Nat := fieldGet (dw d 3) 0 20
def dSize (d : BitVec 512) : Nat := fieldGet (dw d 4) 0 21
def dDcr (d : BitVec 512) : Nat := fieldGet (dw d 5) 0 3
def dPeer (d : BitVec 512) : Nat := fieldGet (dw d 6) 0 9
def dPeerRegion (d : BitVec 512) : Nat := fieldGet (dw d 6) 9 18
def dRole (d : BitVec 512) : Nat := fieldGet (dw d 6) 27 3
def dOrbBound (d : BitVec 512) : Nat := fieldGet (dw d 7) 0 28
def dBroken (d : BitVec 512) : Bool := (dw d 7).getLsbD 28
def dTrmKey (d : BitVec 512) : Nat := fieldGet (dw d 8) 0 14
def dTrmMode (d : BitVec 512) : Nat := fieldGet (dw d 8) 14 2
def dTrmEngine (d : BitVec 512) : Nat := fieldGet (dw d 8) 16 2
def dTrmKgen (d : BitVec 512) : Nat := fieldGet (dw d 8) 19 2
def dTrmBound (d : BitVec 512) : Nat := (dw d 9).toNat + 2 ^ 32 * fieldGet (dw d 10) 0 5

/-- The bits of dwords 1 to 6 that the descriptor's fields occupy; the rest is reserved (R47, R296, R8). -/
def descUsed : Nat → Word
  | 1 => 0x00FF7FFF#32
  | 2 => 0x00003FFF#32
  | 3 => 0x000FFFFF#32
  | 4 => 0x001FFFFF#32
  | 5 => 0x00000007#32
  | 6 => 0x3FFFFFFF#32
  | _ => 0#32

/-- A region's committed descriptor; one never committed is zero. -/
def State.desc (s : State) (r : Nat) : BitVec 512 := mapGet (fun _ => 0) s.rgn.descs r

def State.setDesc (s : State) (r : Nat) (d : BitVec 512) : State :=
  { s with rgn.descs := mapSet (fun _ => 0) s.rgn.descs r d }

/-- The valid region whose DPA range holds a DPA (R46 step 4). -/
def State.regionAt (s : State) (dpa : Nat) : Option (Nat × BitVec 512) :=
  s.rgn.descs.find? (fun p => dValid p.2 && decide (dBase p.2 ≤ dpa / 2 ^ 24) && decide (dpa / 2 ^ 24 < dBase p.2 + dSize p.2))

/-- The end of the backed range, in 16 MiB units (R48, R130). -/
def State.backedUnits (s : State) : Nat := s.get F.MAP_USER_TILES_user / 256

/-- The line number of a DPA (R78). -/
def lineOf (dpa : Nat) : Nat := dpa / 256

/-- The terminator state of a descriptor, dwords 8 to 10, taken from another (R101). -/
def withTrm (d from_ : BitVec 512) : BitVec 512 :=
  setDw (setDw (setDw d 8 (dw from_ 8)) 9 (dw from_ 9)) 10 (dw from_ 10)

/-- A descriptor as it acts for an access that decoded under `d` (R17, R96). While its generation is in force that is the live
one, whose boundary moves without a commit; under a later generation it is its own, but for a re-key of the same key ID, whose
boundary decides for every access. A re-key that a commit stopped decides nothing (R103). -/
def State.descOf (s : State) (r : Nat) (d : BitVec 512) : BitVec 512 :=
  let l := if s.rgn.trmCut.contains r then withTrm (s.desc r) 0 else s.desc r
  if dGen (s.desc r) = dGen d then l
  else if dTrmMode l ≠ 0 ∧ dKey l = dKey d ∧ dKeySrc l = dKeySrc d ∧ dBase l = dBase d then withTrm d l
  else d

/-- The region's descriptor in force as it acts. -/
def State.liveDesc (s : State) (r : Nat) : BitVec 512 := s.descOf r (s.desc r)

/-- The slots a valid descriptor's key range names (R21). -/
def dNames (d : BitVec 512) (slot : Nat) : Bool :=
  dValid d && decide (dKey d ≤ slot) && decide (slot < dKey d + (if dKeySrc d then 2 ^ dSpan d else 1))

/-- A committed descriptor names the slot (R21). -/
def State.slotNamed (s : State) (slot : Nat) : Bool := s.rgn.descs.any (fun p => dNames p.2 slot)

/-! ### Accesses in flight and drain indications (R17, R18) -/

/-- A memory operation of an engine that the data plane has not served yet. -/
def MemOp.inFlight (o : MemOp) : Bool :=
  match o.stage with
  | .held | .queued | .sent => true
  | _ => false

/-- An access that decoded under an older generation of region r is in flight: one at the data plane, or one of an engine on its way
there or to a device target (R17, R217). -/
def State.oldInFlight (s : State) (r : Nat) : Bool :=
  s.accesses.any (fun a => a.region == r && decide (dGen a.desc ≠ dGen (s.desc r))) ||
  s.clu.engs.any (fun q => q.2.ops.any (fun o => o.inFlight && o.region == r && decide (dGen o.desc ≠ dGen (s.desc r))))

/-- Clears the drain indications of regions with no older access in flight (R18). The number kept for a region is the
generation of its last commit. -/
def State.settleDrains (s : State) : State :=
  { s with rgn.draining := mapFilter (fun r _ => s.oldInFlight r) s.rgn.draining }

/-- Sets a region's drain indication at a commit (R18). -/
def State.startDrain (s : State) (r : Nat) : State :=
  { s with rgn.draining := mapPut s.rgn.draining r (dGen (s.desc r)) }

/-- A region's drain indication is set: since its last commit an older access has been in flight, and one still is (R18). -/
def State.isDraining (s : State) (r : Nat) : Bool := (mapGet? s.rgn.draining r).isSome && s.oldInFlight r

/-- Shows how many drain indications are set. -/
def drainingCount (s : State) : Nat := s.rgn.draining.countP (fun q => s.isDraining q.1)

/-- An access ends: it leaves the list, and drain indications settle. -/
def State.endAccess (s : State) (id : Nat) : State :=
  State.settleDrains { s with
    accesses := s.accesses.filter (fun a => a.id != id)
    adm.heldSince := mapDel s.adm.heldSince id }

/-! ### Metering (R121, R123) -/

def metLive0 : MetLive := ⟨0, 0, 0, 0, 0, 0⟩

/-- A buffer never written: EPOCH all ones, the rest 0 (R121, R123). -/
def metBuf0 : MetBuf := ⟨BitVec.allOnes 64, 0, metLive0, 0, 0⟩

def metInit : MetSt := ⟨metLive0, metBuf0, metBuf0, false, false, 0, false⟩

def State.met (s : State) (r : Nat) : MetSt := mapGet (fun _ => metInit) s.rgn.met r

def State.setMet (s : State) (r : Nat) (m : MetSt) : State :=
  { s with rgn.met := mapSet (fun _ => metInit) s.rgn.met r m }

/-- The live counters a counting point may advance. -/
inductive MetCtr where
  | bytesRd | bytesWr | tileTicks | engCycles | wrFail | rdPoison
deriving DecidableEq, Repr

def MetLive.add (m : MetLive) (c : MetCtr) (k : Nat) : MetLive :=
  let j := BitVec.ofNat 64 k
  match c with
  | .bytesRd => { m with bytesRd := m.bytesRd + j }
  | .bytesWr => { m with bytesWr := m.bytesWr + j }
  | .tileTicks => { m with tileTicks := m.tileTicks + j }
  | .engCycles => { m with engCycles := m.engCycles + j }
  | .wrFail => { m with wrFail := m.wrFail + j }
  | .rdPoison => { m with rdPoison := m.rdPoison + j }

/-- A counting point: region r's counter advances under the descriptor the access decoded under (R121). -/
def State.meter (s : State) (r : Nat) (d : BitVec 512) (c : MetCtr) (k : Nat) : State :=
  if dMetEn d && dValid d && s.flag F.MET_CTL_EN then
    let m := s.met r
    s.setMet r { m with live := m.live.add c k }
  else s

/-! ### The unit-state board (R23, R307) -/

def unitInit : UnitEnt := ⟨0, 0⟩
def viewInit : UnitView := ⟨0, 0, 0⟩

def uPort (n : Nat) : Nat := n
def uDdr (n : Nat) : Nat := 8 + n
def uChan (c : Nat) : Nat := 16 + c
def uDie (c d : Nat) : Nat := 48 + 16 * c + d
def uClu (k : Nat) : Nat := 560 + k
def uLink (p : Nat) : Nat := 564 + p
def ustAbsent : Nat := 0
def ustService : Nat := 1
def ustBringUp : Nat := 2
def ustHeld : Nat := 3
def ustEvac : Nat := 4
def ustRetired : Nat := 5
def ustFailed : Nat := 6
def ustMerged : Nat := 7

def State.unit (s : State) (u : Nat) : UnitEnt := mapGet (fun _ => unitInit) s.board.ents u

/-- A change of a unit's state: the generation advances (R23). -/
def State.setUnit (s : State) (u st : Nat) : State :=
  if (s.unit u).st = st then s
  else { s with
    board.ents := mapSet (fun _ => unitInit) s.board.ents u ⟨(s.unit u).gen + 1, st⟩
    board.changed := if s.board.changed.contains u then s.board.changed else s.board.changed ++ [u] }

/-- A unit in service is held, or one that is held goes back into service (R309): what HOLD and RELEASE do, by whichever register. -/
def State.holdUnit (s : State) (u : Nat) (on : Bool) : State :=
  if on then (if (s.unit u).st = ustService then s.setUnit u ustHeld else s)
  else if (s.unit u).st = ustHeld then s.setUnit u ustService else s

/-- The KIND of a unit (R308). -/
def unitKind (u : Nat) : Nat :=
  if u < 8 then 0 else if u < 16 then 1 else if u < 48 then 2 else if u < 560 then 3 else if u < 564 then 4 else 5

/-- The management plane reads a unit's entry into its view (R308). -/
def State.refreshView (s : State) (u : Nat) : State :=
  let v : UnitView := ⟨(s.unit u).gen, (s.unit u).st, BitVec.ofNat 32 (s.aonTick.toNat / 2 ^ 10)⟩
  { s with board.views := mapSet (fun _ => viewInit) s.board.views u v }

/-! ### Who may read a register (R422, R424, R425) -/

/-- PMC_LOi or PMC_HI that hosts and engines may read (R120). -/
def State.userPmc (s : State) (off : Nat) : Bool :=
  off == R.PMC_HI || (decide (R.PMC_LO 0 ≤ off) && decide (off < R.PMC_LO 512) &&
    (s.rd (R.PMC_USER ((off - R.PMC_LO 0) / 4 / 32))).getLsbD ((off - R.PMC_LO 0) / 4 % 32))

/-- The ENGe_ registers that a host reads: of an engine bound to a region whose PORTS names the port (R422). -/
def State.hostEng (s : State) (n off : Nat) : Bool :=
  (List.range 32).any (fun e => s.flag (F.ENGE_CTX_BIND e) && (dPorts (s.desc (s.get (F.ENGE_CTX_REGION e)))).testBit n &&
    [R.ENGE_STAT e, R.ENGE_CONS e, R.ENGE_FAULT_ADDR_LO e, R.ENGE_FAULT_ADDR_HI e].contains off)

/-- A path may read the register at an offset (R422, R424). -/
def State.pathReads (s : State) (p : Path) (off : Nat) (b : Block) : Bool :=
  match p with
  | .mgmt => true
  | .cc => true
  | .cluster k =>
    (match b with
      | .id => true
      | .qos => s.trust != trSealed && s.userPmc off
      | .eng => s.trust != trSealed && (List.range 8).any (fun i =>
          decide (R.ENGE_CTX (8 * k.val + i) ≤ off) && decide (off < R.ENGE_CTX (8 * k.val + i) + 0x20))
      | _ => false)
  | .host n => !s.oddMerged n.val &&
    (match b with
      | .mode => [R.MODE_STAT, R.MODE_RST_STAT].contains off
      | .boot => [R.BOOT_STAT, R.BOOT_IMG_LEN, R.BOOT_IMG_SV, R.BOOT_IMG_BUILD].contains off ||
          (decide (R.BOOT_FWINFO 0 ≤ off) && decide (off < R.BOOT_FWINFO 4))
      | .hp m => m == n.val
      | .key => [R.KEY_CFG, R.KEY_STATUS, R.KEY_HALT_CAUSE].contains off
      | .qos => s.userPmc off || [R.MET_CFG, R.MET_STAT, R.MET_EPOCH_LO, R.MET_EPOCH_HI, R.MET_TICK_LO,
          R.MET_TICK_HI].contains off
      | .map => [R.MAP_STAT, R.MAP_USER_TILES, R.HALO_STAT].contains off
      | .med _ => off % 0x1000 == R.MED_HEALTH % 0x1000
      | .eng => s.hostEng n.val off
      | .thm => [R.THM_TEMP, R.THM_STAT].contains off
      | .id => true
      | _ => false)

/-- The path may read the register at this offset now (R422, R425, R426). -/
def State.mayRead (s : State) (p : Path) (off : Nat) : Bool :=
  match blockOf off with
  | some b => s.answers b && s.pathReads p off b
  | none => false

/-! ### The region commit port (R19) -/

def rcBase : Nat := 0x3004000

/-- A terminator engine carries out a re-key of region r: running or paused. -/
def State.trmActive (s : State) (r : Nat) : Bool :=
  s.key.trmRun.any (fun p => p.2 == r && [2, 3, 4].contains (s.get (F.TRM_STAT_STATE p.1)))

/-- An import or unload into a slot, or another region's re-key of it, stands in a commit's way (R21). -/
def State.slotBusy (s : State) (r slot : Nat) : Bool :=
  (s.flag F.KEY_LOAD_STAT_BUSY && s.get F.KEY_LOAD_STAT_SLOT == slot) ||
  s.rgn.descs.any (fun p => p.1 != r && dTrmMode p.2 != 0 && dTrmKey p.2 == slot && s.trmActive p.1)

/-- Two ranges overlap; an empty range overlaps nothing. -/
def overlap (a n b m : Nat) : Bool := decide (0 < n) && decide (0 < m) && decide (a < b + m) && decide (b < a + n)

/-- COMMIT_STATUS 0x7: the Orbit state is refused (R297). -/
def State.orbitRefused (s : State) (old new : BitVec 512) : Bool :=
  let role := dRole new
  role == 3 || (role == 6 && dType new != 1) || ([1, 2, 4, 5, 7].contains role && dType new == 1) ||
  ((role == 2 || role == 5) && (dPorts new != 0 || dEngEn new)) ||
  (role != 0 && dPeer new == s.get F.ORB_ID_MOON) ||
  (dValid old && dRole old == 1 && role == 4) || (role == 4 && dTrmMode old != 0)

/-- COMMIT_STATUS of committing `new` over `old` to region r: the first check that fails (R48). -/
def State.commitStatus (s : State) (r : Nat) (old new : BitVec 512) : Nat :=
  if !dValid new then 0
  else if dType new ≥ 2 || dSpan new == 7 then 1
  else if dKey new == 0 || dKey new + (if dKeySrc new then 2 ^ dSpan new else 1) > 16384 then 2
  else if s.rgn.descs.any (fun p => p.1 != r && dValid p.2 && overlap (dBase new) (dSize new) (dBase p.2) (dSize p.2)) ||
      s.rgn.releases.any (fun p => overlap (dBase new * 256) (dSize new * 256) p.2.1 (p.2.2 - p.2.1)) then 3
  else if dBase new + dSize new > s.backedUnits then 4
  else if dSize new == 0 then 5
  else if (List.range (if dKeySrc new then 2 ^ dSpan new else 1)).any (fun i => s.slotBusy r (dKey new + i)) then 6
  else if s.orbitRefused old new then 7
  else 0

/-- The descriptor a commit makes of the staging copy: GEN advanced, dwords 7 to 11 live, reserved bits 0 (R19). -/
def commitDesc (old staging : BitVec 512) : BitVec 512 :=
  [1, 2, 3, 4, 5, 6].foldl (fun d i => setDw d i (dw staging i &&& descUsed i))
    (setDw (setDw (setDw (setDw (setDw old 0 (dGen old + 1)) 12 0) 13 0) 14 0) 15 0)

/-- The logical tiles a commit releases (R234), as ranges [first, end): those that lay in the region before and do not after. -/
def releasedTiles (old new : BitVec 512) : List (Nat × Nat) :=
  if !dValid old then []
  else
    let a := dBase old * 256
    let b := (dBase old + dSize old) * 256
    if !dValid new then [(a, b)]
    else
      let c := dBase new * 256
      let e := (dBase new + dSize new) * 256
      ([(a, min b c)] ++ [(max a e, b)]).filter (fun p => decide (p.1 < p.2)) |>.eraseDups

/-- The 16 MiB units of a region, for the dirty map (R300). -/
def allUnits (d : BitVec 512) : List Nat := List.range (dSize d)

/-- The Orbit state that a commit leaves in dword 7 and the dirty map (R300): a new ROLE 0b001 starts broken with every
unit marked, but for one that follows a finished migration to the same peer. -/
def State.commitOrbit (s : State) (r : Nat) (old new : BitVec 512) : State :=
  if dRole new = 1 ∧ dRole old ≠ 1 then
    let finished := dRole old = 4 ∧ dw old 6 &&& 0x07FFFFFF#32 = dw new 6 &&& 0x07FFFFFF#32 ∧
      ([0, 1].any fun m => s.get (F.ORB_MIG_STAT_STATE m) == 3 && s.get (F.ORB_MIG_CTL_REGION m) == r) = true
    if finished then s
    else
      let t := s.setDesc r (setDw new 7 (fieldPut (dw new 7) 28 1 1))
      { t with rgn.dirtyMap := mapPut t.rgn.dirtyMap r (allUnits new) }
  else if dRole new ≠ 1 ∧ dRole old = 1 then
    { s with rgn.dirtyMap := mapDel s.rgn.dirtyMap r }
  else s

/-- TRM_PAUSED of a region's descriptor (R101). -/
def State.setPaused (s : State) (r : Nat) (on : Bool) : State :=
  let d := s.desc r
  s.setDesc r (setDw d 8 (fieldPut (dw d 8) 18 1 (if on then 1 else 0)))

/-- The terminator records as they stand: one for each region with terminator state (R102). -/
def State.trmNow (s : State) : List TrmRec :=
  (s.rgn.descs.filter (fun p => dTrmMode p.2 != 0)).map (fun p =>
    ⟨p.1, dTrmEngine p.2, dTrmMode p.2, dTrmKey p.2, dTrmKgen p.2, dTrmBound p.2, s.rgn.trmCut.contains p.1⟩)

/-- The bytes of a terminator record: two groups. The manual names the fields and gives no layout (log 13); that a commit stopped the
re-key is kept beside them (log 64). -/
def TrmRec.bytes (r : TrmRec) : List Byte :=
  leBytes 8 (r.region + 2 ^ 18 * r.engine + 2 ^ 20 * r.mode + 2 ^ 22 * r.key + 2 ^ 36 * r.kgen +
    (if r.cut then 2 ^ 38 else 0)) ++ leBytes 8 r.bound

def TrmRec.ofBytes (bs : List Byte) : TrmRec :=
  let x := leNat (bs.take 8)
  ⟨x % 2 ^ 18, x / 2 ^ 18 % 4, x / 2 ^ 20 % 4, x / 2 ^ 22 % 2 ^ 14, x / 2 ^ 36 % 4, leNat ((bs.drop 8).take 8), x.testBit 38⟩

/-- Writes the terminator records to the NV store (R102). -/
def State.storeTrm (s : State) : State :=
  let l := s.trmNow
  if l = s.key.trmRecs then s
  else State.storeRecord { s with key.trmRecs := l } 3 (l.flatMap TrmRec.bytes)

/-- The commit changes what a re-key of the region rests on (R103). -/
def trmDisturbed (old new : BitVec 512) : Bool :=
  dKey old != dKey new || dKeySrc old != dKeySrc new || dSpan old != dSpan new || dBase old != dBase new ||
  dSize old != dSize new

/-- A commit stops a re-key when it changes what the re-key rests on (R103): the descriptor keeps the terminator state (R101),
no longer advancing, and R51 alone decides the region's reads (log 64). -/
def State.commitTrm (s : State) (r : Nat) (old new : BitVec 512) : State :=
  if s.trmActive r && trmDisturbed old new then
    let k := dTrmEngine old
    let t := (((s.put (F.TRM_STAT_STATE k) 7).put (F.TRM_STAT_CODE k) 8).post 0x06 0x02 r 8).setPaused r true
    State.storeTrm { t with
      key.trmRun := mapDel t.key.trmRun k
      rgn.trmCut := if t.rgn.trmCut.contains r then t.rgn.trmCut else t.rgn.trmCut ++ [r] }
  else s

/-- Accesses that decoded under the descriptor in force, engines' memory operations among them, keep it as it stands, before a commit
replaces it (R17). -/
def State.freeze (s : State) (r : Nat) : State :=
  { s with
    accesses := s.accesses.map (fun a =>
      if a.region = r ∧ dGen a.desc = dGen (s.desc r) then { a with desc := s.liveDesc r } else a)
    clu.engs := s.clu.engs.map (fun q => (q.1, { q.2 with ops := q.2.ops.map (fun o =>
      if o.region = r ∧ dGen o.desc = dGen (s.desc r) then { o with desc := s.liveDesc r } else o) })) }

/-! ### The delta log (R151) -/

/-- Record positions of 16 B that a record takes (R151, R153). -/
def DeltaRec.units : DeltaRec → Nat
  | .descriptor _ _ => 5
  | _ => 1

def State.deltaUnits (s : State) : Nat := s.store.delta.foldl (fun n r => n + r.units) 0

/-- Appends to the delta log and shows its use: bytes in use divided by 64, rounded up (R161, log 65). -/
def State.logDelta (s : State) (r : DeltaRec) : State :=
  let t : State := { s with store.delta := s.store.delta ++ [r] }
  t.wr R.MAP_DELTA_USED (BitVec.ofNat 32 ((t.deltaUnits * 16 + 63) / 64))

/-- The log has room for `n` records (R151). -/
def State.deltaRoom (s : State) (n : Nat) : Bool :=
  decide ((s.deltaUnits + n) * 16 ≤ s.get F.MAP_CFG_DELTA_64M * 2 ^ 26)

/-- Shows the ranges still to walk (R239). -/
def State.showReleases (s : State) : State :=
  (s.put F.ENG_ZERO_STAT_ranges (min s.rgn.releases.length (2 ^ 20 - 1))).put F.ENG_ZERO_STAT_BUSY
    (if s.rgn.releases.isEmpty then 0 else 1)

/-- Commits a descriptor that passed the checks, as one indivisible change (R16, R18, R153, R234, R121). -/
def State.commitNow (s : State) (r : Nat) (staging : BitVec 512) : State :=
  let old := s.desc r
  let new := commitDesc old staging
  let entry := DeltaRec.descriptor r ((List.range 9).foldl (fun d i => setDw d (i + 7) 0) new)
  let s1 := (s.freeze r).logDelta entry
  let s2 := ((s1.setDesc r new).commitOrbit r old new).commitTrm r old new
  let s3 := if dValid new && !dValid old then
      s2.setMet r { metInit with since := s2.rgn.epoch }
    else if !dValid new && dValid old then s2.setMet r { s2.met r with finalDue := true }
    else s2
  let rel := (releasedTiles old new).map (fun p => (r, p.1, p.2))
  let s4 : State := { s3 with rgn.releases := s3.rgn.releases ++ rel }
  (s4.startDrain r).settleDrains.showReleases

end Sys2Proof.Machine
end

