-- ==== Sys2Proof/Machine/Cipher.lean ====
section
/-! DEFINITION. Key slots and the cipher on a media line: which keys apply (R51, R97), META, the MAC and the spare
(R78 to R82), the carry checks (R89, R90) and the raising of the HALT line (R27, R91). -/

namespace Sys2Proof.Machine

/-! ### Key slots -/

def State.slot (s : State) (k : Nat) : Option KeySlot := mapGet? s.key.slots k

/-- The shadow slot of engine k, when filled (R95). -/
def State.shadow (s : State) (k : Nat) : Option KeySlot := (mapGet? s.key.shadows k).map (·.2)

/-- KEY_SLOTS_LOADED follows the array (R104). -/
def State.showSlots (s : State) : State := s.wr R.KEY_SLOTS_LOADED (BitVec.ofNat 32 s.key.slots.length)

def State.setSlot (s : State) (k : Nat) (v : KeySlot) : State :=
  State.showSlots { s with key.slots := mapPut s.key.slots k v }

def State.clearSlot (s : State) (k : Nat) : State :=
  State.showSlots { s with key.slots := mapDel s.key.slots k }

/-- The device key of slot 0, derived from the root secret (R72). -/
def deviceKey : KeySlot :=
  let out := kdf (toBytes 32 Config.rootSecret) (asciiBytes "N16 DEVICE KEY") (toBytes 8 Config.serial) 768
  ⟨ofBytes 256 (out.take 32), ofBytes 256 ((out.drop 32).take 32), ofBytes 256 (out.drop 64), 0⟩

/-- Ends an import in progress with code 0x8 (R22, R73). Whether its blob had been read by then the manual leaves open: the
model says it had been when its address lies in the working area, as KEY_LOAD_STAT.SLOT already shows, and leaves SLOT as it
stands (log 28). -/
def State.dropImport (s : State) : State :=
  if s.key.importRun.isSome then
    State.put (State.put { s with key.importRun := none } F.KEY_LOAD_STAT_BUSY 0) F.KEY_LOAD_STAT_CODE 8
  else s

/-- Zeroises every key slot, shadow and KEK; a load in progress ends with code 0x8 (R22, R91 step 8). -/
def State.zeroiseKeys (s : State) : State :=
  let t : State := { s.dropImport with
    key.slots := []
    key.shadows := []
    key.keks := [] }
  let t := t.showSlots
  let t := (t.put F.KEY_STATUS_ZEROISED 1).put F.KEY_STATUS_SLOT0_OK 0
  (t.put F.KEY_KEK_CTL_KEK_VALID 0).sat F.KEY_ZERO_CNT_zeroises 1

/-! ### Key material of a line (R50, R51, R97) -/

/-- What a read finds for a line's KEY_TAG and KGEN: a mismatch (R51), or the slot, empty or filled. -/
inductive KeyFind where
  | mismatch
  | slot (k : Option KeySlot)
deriving DecidableEq, Repr

/-- The key material that a read under key ID `key` takes for a line's tag, by the descriptor as it acts for the access
(`State.descOf`; R97; outside a re-key R51). -/
def State.readKeys (s : State) (d : BitVec 512) (key : Nat) (tag kgen : Nat) : KeyFind :=
  if dTrmMode d = 1 then
    if tag = dKey d ∨ tag = dTrmKey d then .slot (s.slot tag) else .mismatch
  else if tag ≠ key then .mismatch
  else if dTrmMode d = 2 ∧ key = dTrmKey d then
    match s.slot key, s.shadow (dTrmEngine d) with
    | some m, sh =>
      if m.kgen.toNat = kgen then .slot (some m)
      else match sh with
        | some w => if w.kgen.toNat = kgen then .slot (some w) else .mismatch
        | none => .mismatch
    | none, some w => if w.kgen.toNat = kgen then .slot (some w) else .slot none
    | none, none => .slot none
  else .slot (s.slot key)

/-- A media line's offset within its region (R96). -/
def regionLine (d : BitVec 512) (line : Nat) : Nat := line - dBase d * 65536

/-- The material a write of `key` to a line takes, by the boundary of the descriptor as it acts (R97, R98). -/
def writeMaterial (d : BitVec 512) (key line : Nat) : Material :=
  let below := decide (regionLine d line < dTrmBound d)
  if dTrmMode d = 1 ∧ key = dKey d then
    ⟨BitVec.ofNat 14 (if below then dTrmKey d else dKey d), none⟩
  else if dTrmMode d = 2 ∧ key = dTrmKey d then
    ⟨BitVec.ofNat 14 key, if below then some ⟨dTrmEngine d % 4, Nat.mod_lt _ (by decide)⟩ else none⟩
  else ⟨BitVec.ofNat 14 key, none⟩

/-- The keys of a write's material. -/
def State.materialKeys (s : State) (m : Material) : Option KeySlot :=
  match m.shadow with
  | some k => s.shadow k.val
  | none => s.slot m.key.toNat

/-! ### META, MAC and the spare -/

/-- Host line i of a media line. -/
def hostLine (d : LineData) (i : Nat) : HostLine := d.extractLsb' (512 * i) 512

def setHostLine (d : LineData) (i : Nat) (h : HostLine) : LineData :=
  BitVec.ofNat 2048 (d.toNat - (hostLine d i).toNat * 2 ^ (512 * i) + h.toNat * 2 ^ (512 * i))

/-- Carry check i of four. -/
def ccOf (cc : BitVec 64) (i : Nat) : BitVec 16 := cc.extractLsb' (16 * i) 16

def setCc (cc : BitVec 64) (i : Nat) (c : BitVec 16) : BitVec 64 :=
  BitVec.ofNat 64 (cc.toNat - (ccOf cc i).toNat * 2 ^ (16 * i) + c.toNat * 2 ^ (16 * i))

/-- The four carry checks of a media line (R89). -/
def carryChecks (d : LineData) : BitVec 64 :=
  ofBytes 64 ((List.range 4).flatMap (fun i => toBytes 2 (carryCheck (hostLine d i))))

/-- META of a written line (R80). -/
def metaWord (l : LineImg) : Word :=
  BitVec.ofNat 32 (l.keyTag.toNat + l.poison.toNat * 2 ^ 14 + (if l.integ then 2 ^ 18 else 0) +
    l.kgen.toNat * 2 ^ 19 + 2 ^ 21)

/-- The MAC input of a line (R81). -/
def macInput (line : Nat) (l : LineImg) : List Byte :=
  leBytes 5 line ++ leBytes 2 l.keyTag.toNat ++
  [BitVec.ofNat 8 (l.poison.toNat + (if l.integ then 16 else 0) + l.kgen.toNat * 32)] ++
  toBytes 256 l.data ++ toBytes 8 l.cc

/-- The MAC of a line under a slot (R81). -/
def macOf (k : KeySlot) (line : Nat) (l : LineImg) : BitVec 64 := ofBytes 64 ((cmac (toBytes 32 k.k3) (macInput line l)).take 8)

/-- A line with its MAC; none is formed with integrity off. -/
def formMac (k : KeySlot) (line : Nat) (l : LineImg) : LineImg :=
  { l with mac := if l.integ then macOf k line l else 0 }

/-- The XTS tweak (R78). -/
def xtsTweak (line key domain : Nat) : List Byte :=
  leBytes 5 line ++ leBytes 2 key ++ [BitVec.ofNat 8 domain] ++ List.replicate 8 0

/-- The stored form of a line under a slot: ciphertext, META in clear, BCH over the stored bytes (R78, R79). -/
def encodeStored (k : KeySlot) (domain line : Nat) (l : LineImg) : Stored :=
  let body := toBytes 256 l.data ++ toBytes 8 l.cc ++ (if l.integ then toBytes 8 l.mac else [])
  let tag := if domain = 4 then 0 else l.keyTag.toNat
  let ct := xtsEnc (toBytes 32 k.k1) (toBytes 32 k.k2) (xtsTweak line tag domain) body
  let head := ct.take 256 ++ toBytes 4 (metaWord l) ++ ct.drop 256 ++ (if l.integ then [0] else [])
  let n := if l.integ then 27 else 36
  ofBytes 2432 (head ++ toBytes n (Config.bchParity l.integ (ofBytes 2216 head)))

/-- A stored line recomputed after its ciphertext was moved: BCH is formed again over the stored bytes (R78, R146). -/
def reencodeStored (integ : Bool) (st : Stored) : Stored :=
  let m := if integ then 277 else 268
  let n := if integ then 27 else 36
  let head := toBytes m st
  ofBytes 2432 (head ++ toBytes n (Config.bchParity integ (ofBytes 2216 head)))

def storedMeta (st : Stored) : Word := st.extractLsb' 2048 32

/-- The erased state: all 304 B read as ones (R144). -/
def erased : Stored := BitVec.allOnes 2432

def zeroBits (st : Stored) : Nat := (List.range 2432).countP (fun i => !st.getLsbD i)

/-- A bulk line that has never been written (R144). -/
def isUnwritten (st : Stored) : Bool := storedMeta st == BitVec.allOnes 32 && decide (zeroBits st ≤ 32)

def metaTag (m : Word) : Nat := fieldGet m 0 14
def metaPoison (m : Word) : Nat := fieldGet m 14 4
def metaInteg (m : Word) : Bool := m.getLsbD 18
def metaKgen (m : Word) : Nat := fieldGet m 19 2

/-- The plaintext line of a stored line under a slot, unchecked; the integrity mode in force gives its layout (R79, R83). -/
def decryptStored (integ : Bool) (k : KeySlot) (line : Nat) (st : Stored) : LineImg :=
  let m := storedMeta st
  let n := if integ then 16 else 8
  let ct := toBytes 256 st ++ (toBytes 304 st).drop 260 |>.take (256 + n)
  let pt := xtsDec (toBytes 32 k.k1) (toBytes 32 k.k2) (xtsTweak line (metaTag m) 1) ct
  { data := ofBytes 2048 (pt.take 256), cc := ofBytes 64 ((pt.drop 256).take 8), poison := BitVec.ofNat 4 (metaPoison m),
    keyTag := BitVec.ofNat 14 (metaTag m), kgen := BitVec.ofNat 2 (metaKgen m), integ := metaInteg m,
    mac := if integ then ofBytes 64 (pt.drop 264) else 0 }

/-- The MAC of a line verifies; with integrity off no line fails one (R82, R83). -/
def macOk (integ : Bool) (k : KeySlot) (line : Nat) (l : LineImg) : Bool := !integ || macOf k line l == l.mac

/-- The stored carry checks match the data (R90). -/
def ccOk (l : LineImg) : Bool := l.cc == carryChecks l.data

/-- What a decoded media line turns out to be for a user of key ID `key` (R51, R82, R90 CP6, R97, R144). -/
inductive LineRead where
  | unwritten
  | mismatch
  | noKey
  | macFail
  | ccFail
  | ok (l : LineImg)
deriving DecidableEq, Repr

/-- The integrity mode in force (R83). -/
def State.integ (s : State) : Bool := s.flag F.KEY_CFG_INTEG

/-- Reads a decoded stored line under a key ID and the descriptor as it acts; `bulk` lines may be unwritten. -/
def State.readStored (s : State) (d : BitVec 512) (key line : Nat) (bulk : Bool) (st : Stored) : LineRead :=
  if bulk && isUnwritten st then .unwritten
  else
    let m := storedMeta st
    match s.readKeys d key (metaTag m) (metaKgen m) with
    | .mismatch => .mismatch
    | .slot none => .noKey
    | .slot (some k) =>
      let l := decryptStored s.integ k line st
      if !macOk s.integ k line l then .macFail else if !ccOk l then .ccFail else .ok { l with integ := s.integ }

/-- A line's MAC was verified and passed. -/
def LineRead.verified : LineRead → Bool
  | .ok _ => true
  | .ccFail => true
  | _ => false

/-- Counts a MAC that verified, whatever the line was read for (R82, R104). -/
def State.countMac (s : State) (r : LineRead) : State :=
  if s.integ && r.verified then s.add64 R.KEY_MACV_LO 1 else s

/-- Reads a line held in DDR5, whose tag alone is compared with the key ID (R51). -/
def State.readDdr (s : State) (d : BitVec 512) (key : Nat) (l : LineImg) : LineRead :=
  match s.readKeys d key l.keyTag.toNat l.kgen.toNat with
  | .mismatch => .mismatch
  | .slot none => .noKey
  | .slot (some _) => .ok l

/-! ### Forming lines -/

/-- An all-zero line with no poison, as an unwritten line reads (R141, R144). -/
def zeroLine (m : Material) (kgen : BitVec 2) (integ : Bool) : LineImg :=
  { data := 0, cc := carryChecks 0, poison := 0, keyTag := m.key, kgen := kgen, integ := integ, mac := 0 }

/-- A line that the N16 forms wholly poisoned (R59). -/
def poisonLine (m : Material) (kgen : BitVec 2) (integ : Bool) : LineImg :=
  { zeroLine m kgen integ with poison := 0xF }

/-- The bytes of a host line under byte enables: an enabled byte is new, another old (R84 step 3). -/
def mergeBytes {n : Nat} (count : Nat) (old new : BitVec n) (be : Nat) : BitVec n :=
  ofBytes n ((List.range count).map (fun i => if be.testBit i then byteAt new i else byteAt old i))

/-- Applies a partial write to the old line, as R84 steps 3 to 6 with R52 and R59: `old` is none when the line's other
host lines are lost or belong to another key, which poisons them. `mask` has a bit for each of the 256 bytes. -/
def mergeLine (k : KeySlot) (m : Material) (integ : Bool) (line : Nat) (old : Option LineImg)
    (new : LineData) (mask : Nat) : LineImg :=
  let touched := fun i => decide (mask / 2 ^ (64 * i) % 2 ^ 64 ≠ 0)
  let base : LineImg := match old with
    | some l => l
    | none => poisonLine m k.kgen integ
  let data := mergeBytes 256 base.data new mask
  let poison := BitVec.ofNat 4 ((List.range 4).foldl (fun p i =>
    if touched i then p else p + (if base.poison.getLsbD i then 2 ^ i else 0)) 0)
  let cc := (List.range 4).foldl (fun c i =>
    if touched i then setCc c i (carryCheck (hostLine data i)) else c) base.cc
  formMac k line { data := data, cc := cc, poison := poison, keyTag := m.key, kgen := k.kgen, integ := integ, mac := 0 }

/-! ### HALT and mismatches -/

/-- Raises the HALT line: sticky, and the first cause is kept (R27, R91 step 1, R94). -/
def State.raiseHalt (s : State) (cause cp region line : Nat) (metaLine : Bool) : State :=
  if s.key.halt then s
  else
    let t : State := { s with key.halt := true }
    let t := t.put F.KEY_STATUS_HALT 1
    let t := ((((t.put F.KEY_HALT_CAUSE_CAUSE cause).put F.KEY_HALT_CAUSE_CP cp).put F.KEY_HALT_CAUSE_REGION
      (if metaLine then 0 else region)).put F.KEY_HALT_CAUSE_VALID 1).wr R.KEY_HALT_ADDR_LO (BitVec.ofNat 32 line)
    t.wr R.KEY_HALT_ADDR_HI (BitVec.ofNat 32 (line / 2 ^ 32 % 16 + (if metaLine then 16 else 0)))

/-- Counts a carry-check mismatch at point CPn (R90). -/
def State.ccMismatch (s : State) (cp region : Nat) : State :=
  let t := s.satReg (R.KEY_CCM (cp - 2)) 1
  (t.put F.KEY_CCM_LAST_point cp).put F.KEY_CCM_LAST_region region

/-- A carry-check mismatch that is an integrity failure (R90). -/
def State.ccHalt (s : State) (cp region line : Nat) : State := (s.ccMismatch cp region).raiseHalt 8 cp region line false

end Sys2Proof.Machine
end

