-- ==== Sys2Proof/Machine/Store.lean ====
section
/-! DEFINITION. The vault, the read cache, the Halo index, the tile map, tile groups and the delta log as stores
(R127 to R144, R149 to R151), the poison list (R60), deferred merge records (R85) and the order of sources (R37). -/

namespace Sys2Proof.Machine

/-! ### Sizes in force (R128 to R130) -/

/-- The hash value of a line number (R131). -/
def lineHash (line : Nat) : Nat := line * 0x9E3779B97F4A7C15 % 2 ^ 64 / 2 ^ 32

def State.vaultSets (s : State) : Nat := s.get F.MAP_CFG_VAULT_GIB * 2 ^ 18
def State.haloSlots (s : State) : Nat := s.get F.MAP_CFG_HALO_64 * 2 ^ 28
/-- H_T, the Halo tiles of each plane (R128). -/
def State.haloTiles (s : State) : Nat := s.get F.MAP_CFG_HALO_64 * 2048
/-- Groups that the format sets aside for metadata (R128); the model takes them for every configuration (log 11). -/
def metaGroups : Nat := 85029
/-- Bytes of an Eclipse image at most (R129). -/
def saveSize (v h l : Nat) : Nat := v * 2 ^ 30 + h * 2 ^ 36 / 16 + l * 2 ^ 26 + 17 * 2 ^ 20
/-- User tiles of a Halo size (R130). -/
def userTiles (h64 : Nat) : Nat :=
  let p := (131072 - h64 * 2048) * 128 * 15
  (p * 96 / 100 - metaGroups * 15) / 1048576 * 1048576

/-! ### The vault (R131 to R133) -/

def setOf (sets line : Nat) : Nat := lineHash line * sets / 2 ^ 32

/-- The locations of a line's set, in way order. -/
def setLocs (sets line : Nat) : List Nat := (List.range 16).map (fun w => setOf sets line * 16 + w)

/-- The way of a set-associative store that holds a line. -/
def wayOf (m : SMap VaultWay) (sets line : Nat) : Option (Nat × VaultWay) :=
  (setLocs sets line).findSome? (fun loc => match mapGet? m loc with
    | some v => if v.line = line then some (loc, v) else none
    | none => none)

def State.vaultHit (s : State) (line : Nat) : Option (Nat × VaultWay) := wayOf s.store.vault s.vaultSets line

/-- The other lines of a line's set that admitted writes are to place and the vault does not hold yet: each has an empty way
kept for it from its admission on (R133). -/
def State.waysKept (s : State) (line : Nat) : List Nat :=
  ((s.accesses.filter (fun a => a.write && a.stage != .waiting)).map (fun a => lineOf a.dpa)).eraseDups.filter (fun l =>
    l != line && setOf s.vaultSets l == setOf s.vaultSets line && (s.vaultHit l).isNone)

/-- Where a line may be placed: the way that holds it, or the first empty way of its set when more are empty than are kept for
other lines (R133). -/
def State.vaultRoom (s : State) (line : Nat) : Option Nat :=
  match s.vaultHit line with
  | some (loc, _) => some loc
  | none =>
    let free := (setLocs s.vaultSets line).filter (fun loc => (mapGet? s.store.vault loc).isNone)
    if (s.waysKept line).length < free.length then free.head? else none

/-- An engine's device access: it waits for admission beside the accesses of the media, and then goes to its target (R214, R217). -/
def Access.device (a : Access) : Bool := match a.own with | .device _ _ => true | _ => false

/-- A write waits for its set (R133, R161). -/
def State.writeWaits (s : State) : Bool :=
  s.accesses.any (fun a => a.write && !a.device && a.stage == .waiting && (s.vaultRoom (lineOf a.dpa)).isNone)

/-- Vault occupancy in per cent. -/
def State.vaultOcc (s : State) : Nat := s.store.vault.length * 100 / max 1 (s.vaultSets * 16)

def State.drainStart (s : State) : Nat := s.get F.MAP_VAULT_CFG_START
def State.drainStop (s : State) : Nat :=
  if s.get F.MAP_VAULT_CFG_STOP ≥ s.drainStart then s.drainStart - 1 else s.get F.MAP_VAULT_CFG_STOP

/-- Drain runs by occupancy: from START until it falls to STOP (R134). -/
def State.drainByOcc (s : State) : Bool :=
  decide (s.vaultOcc ≥ s.drainStart) || (s.store.drainRun && decide (s.vaultOcc > s.drainStop))

/-- Shows the vault's occupancy, and whether a write waits for a set (R161); drain by occupancy begins and ends with it (R134). -/
def State.showVault (s : State) : State :=
  let t : State := { s with store.drainRun := s.drainByOcc }
  (t.put F.MAP_VAULT_STAT_OCC t.vaultOcc).put F.MAP_VAULT_STAT_WAIT (if t.writeWaits then 1 else 0)

/-- STAMP of now: AON tick [41:10] (R132). -/
def State.stampNow (s : State) : Word := BitVec.ofNat 32 (s.aonTick.toNat / 2 ^ 10)

/-- The metadata block of a way, as 32 bytes (R132). -/
def metaBlock (w : VaultWay) : BitVec 256 :=
  ofBytes 256 (toBytes 4 (metaWord w.img) ++ toBytes 8 w.img.cc ++ toBytes 8 w.img.mac ++ leBytes 5 w.line ++
    [BitVec.ofNat 8 ((if w.dirty then 1 else 0) + (if w.dmr then 2 else 0)), 0, 0] ++ toBytes 4 w.stamp)

/-- The read cache's copy of a line. -/
def State.cacheHit (s : State) (line : Nat) : Option (Nat × VaultWay) := wayOf s.store.cache s.store.cacheSets line

/-- Drops the read-cache copy of a line (R133). -/
def State.cacheDrop (s : State) (line : Nat) : State :=
  match s.cacheHit line with
  | some (loc, _) => { s with
      store.cache := mapDel s.store.cache loc
      store.cacheUse := s.store.cacheUse.filter (· != loc) }
  | none => s

/-- Makes a cache location the most recent. -/
def State.cacheTouch (s : State) (loc : Nat) : State :=
  { s with store.cacheUse := loc :: s.store.cacheUse.filter (· != loc) }

/-- Takes a clean line into the read cache: into the way that holds it already, else an empty way, else the least recently used
one (R133). -/
def State.cacheFill (s : State) (line : Nat) (img : LineImg) : State :=
  if s.store.cacheSets = 0 then s
  else
    let locs := setLocs s.store.cacheSets line
    let loc := match s.cacheHit line with
      | some (l, _) => l
      | none => match locs.find? (fun l => (mapGet? s.store.cache l).isNone) with
        | some l => l
        | none => (s.store.cacheUse.reverse.find? (locs.contains ·)).getD (locs.headD 0)
    State.cacheTouch { s with store.cache := mapPut s.store.cache loc ⟨img, line, false, false, s.stampNow⟩ } loc

/-! ### Cluster caches are invalidated by every change of a line (R258, R259) -/

/-- The locked cache ways of cluster k, counting a line dropped in one (R262). -/
def State.countLockInv (s : State) (k : Nat) : State :=
  let f : Fld := ⟨R.ENG_CC_LOCKINV, 8 * k, 8⟩
  s.sat f 1

/-- Drops a cluster cache location; a locked way's loss is counted (R262). -/
def State.ccDrop (s : State) (loc : Nat) : State :=
  let k := loc / 65536
  let t : State := { s with
    clu.lines := mapDel s.clu.lines loc
    clu.use := s.clu.use.filter (· != loc) }
  if (s.rd (R.ENG_CC_LOCK k)).getLsbD (loc % 16) then t.countLockInv k else t

/-- Drops every copy that `p` names, in the clusters it names (R257, R258, R265). -/
def State.ccDropAll (s : State) (p : Nat → CcLine → Bool) : State :=
  (mapFilter p s.clu.lines).foldl (fun s q => s.ccDrop q.1) s

/-- A load that is filling a host line: it has left for the data plane, and its data has not crossed to the cluster (R259). -/
def MemOp.filling (o : MemOp) : Bool :=
  !o.dev && (match o.kind with | .load .. | .debug => true | _ => false) && (match o.stage with | .sent | .back _ => true | _ => false)

/-- A fill in flight of a host line of this media line. -/
def MemOp.fillOf (o : MemOp) (line : Nat) : Bool := o.filling && o.hl / 4 == line

/-- Fills in flight of media lines that `p` names are not to be installed; a maintenance operation notes the lines
(R259, R265). -/
def State.dropFills (s : State) (p : Nat → Bool) (lines : List Nat) : State :=
  { s with
    clu.engs := s.clu.engs.map (fun q => (q.1, { q.2 with
      ops := q.2.ops.map (fun o => if o.filling && p (o.hl / 4) then { o with drop := true } else o) }))
    clu.maint := s.clu.maint.map (fun m => { m with changed := m.changed ++ lines }) }

/-- A media line's contents changed: every cluster drops every copy, counted where one was found, and fills in flight
are not installed (R258, R259). -/
def State.invalidate (s : State) (line : Nat) : State :=
  let hit := (List.range 4).countP (fun k => s.clu.lines.any (fun q => q.1 / 65536 == k && q.2.hl / 4 == line))
  let t := (s.ccDropAll (fun _ c => c.hl / 4 == line)).add64 R.ENG_CC_INV_LO hit
  t.dropFills (fun l => l == line) [line]

/-! ### The poison list (R59, R60) -/

/-- Notes which host lines of a placed line are poisoned. -/
def State.notePoison (s : State) (line : Nat) (poison : BitVec 4) (injected : Bool) : State :=
  let upd := fun (m : SMap Bool) (i : Nat) =>
    let h := line * 4 + i
    if poison.getLsbD i then (if (mapGet? m h).isSome then m else mapPut m h injected) else mapDel m h
  { s with store.poison := (List.range 4).foldl upd s.store.poison }

/-- Poisoned host lines within a port's reachable regions (R60). -/
def State.poisonOf (s : State) (n : Nat) : List (Nat × Bool) :=
  s.store.poison.filter (fun p => match s.regionAt (p.1 * 64) with
    | some (_, d) => (dPorts d).testBit n
    | none => false)

/-- Shows a port's poison list size and overflow, with the overflow's time stamp while there are more than 4,096 (R60, R68). -/
def State.showPoison (s : State) : State :=
  (List.range 8).foldl (fun s n =>
    let k := (s.poisonOf n).length
    let t := (s.put (F.HP_POISON_STAT_ENTRIES n) (min k 4096)).put (F.HP_POISON_STAT_OVERFLOW n) (if k > 4096 then 1 else 0)
    if k > 4096 then
      (match (t.port n).poisonAt with
        | some _ => t
        | none => t.setPort n { t.port n with poisonAt := some t.aonTick.toNat })
    else if (t.port n).poisonAt.isSome then t.setPort n { t.port n with poisonAt := none } else t) s

/-! ### Deferred merge records (R85 to R88) -/

def State.dmrOf (s : State) (line : Nat) : Option DmrRec := s.key.dmr.find? (fun r => r.line == line)

/-- DMR_LIMIT as it acts (R104). -/
def State.dmrLimit (s : State) : Nat := min 16384 (s.get F.KEY_CTT_CFG_DMR_LIMIT)

/-- A further record may be made (R85). -/
def State.dmrRoom (s : State) : Bool := s.flag F.KEY_CTT_CFG_DMR_EN && decide (s.key.dmr.length < s.dmrLimit)

def State.showDmr (s : State) : State :=
  (s.put F.KEY_CTT_STAT_DMR_USED s.key.dmr.length).put F.KEY_CTT_STAT_DMR_FULL
    (if s.key.dmr.length ≥ s.dmrLimit then 1 else 0)

def State.setDmr (s : State) (l : List DmrRec) : State := State.showDmr { s with key.dmr := l }

/-! ### The tag store (R87) -/

/-- Sets of 16 ways of the tag store. -/
def tagSets : Nat := 38912
def tagEntries : Nat := tagSets * 16

/-- The set of a line in the tag store; the manual gives no rule, and the model takes the form of R131 (log 21). -/
def tagSet (line : Nat) : Nat := setOf tagSets line

def State.tagsOf (s : State) (line : Nat) : List TagEnt := (mapGet? s.key.tags (tagSet line)).getD []

/-- The tag store's entry of a line. -/
def State.tagHit (s : State) (line : Nat) : Option TagEnt := (s.tagsOf line).find? (fun t => t.line == line)

/-- The metadata block of a line held in DDR5, by the way that holds it. -/
def State.tagBlock (s : State) (line : Nat) : BitVec 256 :=
  match s.vaultHit line, s.cacheHit line with
  | some (_, w), _ => metaBlock w
  | none, some (_, w) => metaBlock w
  | none, none => 0

/-- Writes a dirty tag entry back to the metadata array, where the vault still holds its line (R87). -/
def State.tagBack (s : State) (t : TagEnt) : State :=
  match t.dirty, s.vaultHit t.line with
  | true, some (loc, _) => { s with store.metaArr := mapPut s.store.metaArr loc t.block }
  | _, _ => s

/-- Writes every dirty tag entry back (R91 step 7, R156 step 3). -/
def State.tagFlush (s : State) : State :=
  let t := s.key.tags.foldl (fun (s : State) q => q.2.foldl (fun s e => s.tagBack e) s) s
  { t with key.tags := t.key.tags.map (fun q => (q.1, q.2.map (fun e => { e with dirty := false }))) }

/-- Brings a line's metadata block into the tag store, most recent of its set; a full set writes its least recent entry back
and drops it (R87). -/
def State.tagTouch (s : State) (line : Nat) (dirty : Bool) : State :=
  let old := match s.tagHit line with | some t => t.dirty | none => false
  let l := (⟨line, dirty || old, s.tagBlock line⟩ : TagEnt) :: (s.tagsOf line).filter (fun t => t.line != line)
  let s := (l.drop 16).foldl (fun s e => s.tagBack e) s
  let t : State := { s with key.tags := mapPut s.key.tags (tagSet line) (l.take 16) }
  t.put F.KEY_CTT_STAT_TAG_FILL (t.key.tags.foldl (fun n q => n + q.2.length) 0 * 100 / tagEntries)

/-- STATE.DMR of a vault way, and of its block in the tag store, follows whether its line has a record (R87, R132). -/
def State.markDmr (s : State) (line : Nat) : State :=
  match s.vaultHit line with
  | some (loc, w) =>
    if w.dmr = (s.dmrOf line).isSome then s
    else State.tagTouch { s with store.vault := mapPut s.store.vault loc { w with dmr := (s.dmrOf line).isSome } } line true
  | none => s

/-- Retires a line's record, counting it resolved when it was (R86, R88). -/
def State.dmrRetire (s : State) (line : Nat) (resolved : Bool) : State :=
  if (s.dmrOf line).isSome then
    let t := (s.setDmr (s.key.dmr.filter (fun r => r.line != line))).markDmr line
    if resolved then t.add64 R.KEY_DMR_DONE_LO 1 else t
  else s

/-! ### Placing a line in the vault (R35, R133) -/

/-- Places a formed line in the vault as one step: the read-cache copy goes, cluster copies go, the poison list follows,
and a deferred merge record of the line is retired when `retire`. The way must have room. -/
def State.placeAt (s : State) (loc line : Nat) (img : LineImg) : State :=
  let way : VaultWay := ⟨img, line, true, (s.dmrOf line).isSome, s.stampNow⟩
  let t : State := { s.cacheDrop line with store.vault := mapPut s.store.vault loc way }
  (((t.tagTouch line true).invalidate line).notePoison line img.poison false).showPoison.showVault

/-- Places a line when its set has room. -/
def State.place (s : State) (line : Nat) (img : LineImg) : Option State :=
  (s.vaultRoom line).map (fun loc => s.placeAt loc line img)

/-- Empties a vault way without a drain (R56, R135 step 6, R234): its metadata block shows it empty (R132). -/
def State.vaultDrop (s : State) (loc : Nat) : State :=
  State.showVault { s with
    store.vault := mapDel s.store.vault loc
    store.metaArr := mapDel s.store.metaArr loc }

/-! ### Media positions (R4, R136, R141) -/

def mpaOf (ch die plane tile line : Nat) : Nat := ch * 2 ^ 31 + die * 2 ^ 27 + plane * 2 ^ 25 + tile * 2 ^ 8 + line
def mpaCh (m : Nat) : Nat := m / 2 ^ 31 % 32
def mpaDie (m : Nat) : Nat := m / 2 ^ 27 % 16
def mpaPlane (m : Nat) : Nat := m / 2 ^ 25 % 4
def mpaTile (m : Nat) : Nat := m / 2 ^ 8 % 2 ^ 17
def mpaLine (m : Nat) : Nat := m % 256

/-- The media position of a Halo slot (R136). -/
def slotMpa (k : Nat) : Nat := mpaOf (k / 64 % 32) (k / 2048 % 16) (k / 32768 % 4) (k / 131072) (k % 64)

def State.cell (s : State) (mpa : Nat) : Stored := mapGet (fun _ => erased) s.store.cells mpa

def State.setCell (s : State) (mpa : Nat) (v : Stored) : State :=
  { s with store.cells := mapSet (fun _ => erased) s.store.cells mpa v }

/-! ### The Halo index (R137 to R139) -/

def State.haloBuckets (s : State) : Nat := s.get F.MAP_CFG_HALO_64 * 2 ^ 24

def State.bucketSlots (s : State) (line : Nat) : List Nat :=
  (List.range 16).map (fun w => lineHash line * s.haloBuckets / 2 ^ 32 * 16 + w)

/-- The Halo slot that holds a line, with its index entry (R137). -/
def State.haloHit (s : State) (line : Nat) : Option (Nat × HaloEnt) :=
  (s.bucketSlots line).findSome? (fun k => match mapGet? s.store.halo k with
    | some e => if e.valid && e.line == line then some (k, e) else none
    | none => none)

/-- THROTTLE as it acts (R161). -/
def State.haloThrottle (s : State) : Nat :=
  let t := s.get F.HALO_CFG_THROTTLE
  if 50 ≤ t ∧ t ≤ 95 then t else 75

/-- FOLD_START as it acts (R161). -/
def State.foldStartPct (s : State) : Nat := min (s.get F.HALO_CFG_FOLD_START) s.haloThrottle

/-- The cap of the Halo throttle's bucket, 64 KiB in 1/64 B (R140). -/
def haloCap : Int := 64 * 1024 * 64

/-- Shows Halo occupancy, and starts or ends the throttle; its bucket is full when it begins (R140, R161). -/
def State.showHalo (s : State) : State :=
  let occ := s.rd64 R.HALO_VALID_LO * 100 / max 1 s.haloSlots
  let t := s.put F.HALO_STAT_OCC occ
  if occ ≥ s.haloThrottle then
    (if s.flag F.HALO_STAT_THROTTLE then t else { t.put F.HALO_STAT_THROTTLE 1 with adm.halo := haloCap })
  else t.put F.HALO_STAT_THROTTLE 0

def mapEnt0 : MapEnt := ⟨0, 0, 0, false, false, false⟩

def State.tileEnt (s : State) (t : Nat) : MapEnt := mapGet (fun _ => mapEnt0) s.store.map t

def State.setTile (s : State) (t : Nat) (e : MapEnt) : State :=
  { s with store.map := mapSet (fun _ => mapEnt0) s.store.map t e }

def tileOfLine (line : Nat) : Nat := line / 256

/-- Adds to a tile's HALO_CNT (R139). -/
def State.haloCnt (s : State) (tile : Nat) (up : Bool) : State :=
  let e := s.tileEnt tile
  s.setTile tile { e with haloCnt := if up then e.haloCnt + 1 else e.haloCnt - 1 }

/-- Frees a Halo slot (R139, R146). -/
def State.haloFreeSlot (s : State) (k : Nat) : State :=
  match mapGet? s.store.halo k with
  | some e =>
    if e.valid then
      let t : State := { s with store.halo := mapPut s.store.halo k { e with valid := false } }
      ((t.haloCnt (tileOfLine e.line) false).wr64 R.HALO_VALID_LO (t.rd64 R.HALO_VALID_LO - 1)).showHalo
    else s
  | none => s

/-- Writes a Halo slot's index entry after its program (R135 step 5). -/
def State.haloTake (s : State) (k line : Nat) : State :=
  let seq := s.rd R.HALO_SEQ
  let e : HaloEnt := ⟨line, true, false, seq⟩
  let was := match mapGet? s.store.halo k with | some o => o.valid | none => false
  let t : State := { s with store.halo := mapPut s.store.halo k e }
  let t := t.wr R.HALO_SEQ (seq + 1)
  if was then t else ((t.haloCnt (tileOfLine line) true).add64 R.HALO_VALID_LO 1).showHalo

/-! ### Age and margin of tiles (R163, R166, R172, R174) -/

/-- The unit of a SCALE in seconds (R163). -/
def epochUnit (scale : Nat) : Nat := 32 ^ scale

def epochScale (e : BitVec 12) : Nat := e.toNat / 1024
def epochStamp (e : BitVec 12) : Nat := e.toNat % 1024

/-- EPOCH of program time p at a scale (R163). -/
def epochOf (scale : Nat) (p : Nat) : BitVec 12 := BitVec.ofNat 12 (scale * 1024 + p / epochUnit scale % 1024)

/-- The age in seconds of an epoch at drift clock d (R163). -/
def ageOf (d : Nat) (e : BitVec 12) : Nat :=
  let u := epochUnit (epochScale e)
  (d / u % 1024 + 1024 - epochStamp e) % 1024 * u

/-- The age bin of an age (R166). -/
def ageBin (age : Nat) : Nat := if age = 0 then 0 else min 31 (Nat.log2 age + 1)

def State.drift (s : State) : Nat := (s.rd R.MED_DRIFT_CLK).toNat

/-- Age of a mapped tile. -/
def State.tileAge (s : State) (tile : Nat) : Nat := ageOf s.drift (s.tileEnt tile).epoch

/-- BCH t in force (R191): 18 with integrity on, 24 off. -/
def State.bchT (s : State) : Nat := if s.integ then 18 else 24

/-- A threshold of MEDn_WEAR_CFG as it acts (R191). -/
def State.actBits (s : State) (v : Nat) : Nat := min (max 1 v) s.bchT

def State.rewriteBits (s : State) (ch : Nat) : Nat := s.actBits (s.get (F.MED_WEAR_CFG_REWRITE_BITS ch))
def State.retireBits (s : State) (ch : Nat) : Nat := s.actBits (s.get (F.MED_WEAR_CFG_RETIRE_BITS ch))

def addOnce (l : List Nat) (x : Nat) : List Nat := if l.contains x then l else l ++ [x]

/-- Sets LOW_MARGIN in a tile's map entry, a map entry set of the delta log (R151, R172). -/
def State.setLowMargin (s : State) (tile : Nat) : State :=
  let e := s.tileEnt tile
  if e.mapped && !e.lowMargin then
    let e' := { e with lowMargin := true }
    (s.setTile tile e').logDelta (.mapSet tile e')
  else s

/-- What a read of Halo slot k, which holds a line of the tile, says of its health: c corrected bits, or a failed first-pass decode
(R174). -/
def State.noteSlot (s : State) (tile k c : Nat) (failed : Bool) : State :=
  let ch := mpaCh (slotMpa k)
  { s with
    wear.refresh := if failed || decide (c ≥ s.rewriteBits ch) || decide (c ≥ s.retireBits ch) then addOnce s.wear.refresh tile
      else s.wear.refresh
    wear.badAtFold := if failed || decide (c ≥ s.retireBits ch) then addOnce s.wear.badAtFold k else s.wear.badAtFold }

/-- What a read of a line of a bulk tile at a position says of its margin (R172, R180). -/
def State.noteBulk (s : State) (tile pos c : Nat) (failed : Bool) : State :=
  let ch := mpaCh (pos * 256)
  let retires := (failed || decide (c ≥ s.retireBits ch)) && decide (ageBin (s.tileAge tile) ≤ 12)
  let t : State := { s with
    wear.corrected := mapPut s.wear.corrected tile (max c ((mapGet? s.wear.corrected tile).getD 0))
    wear.retireNext := if retires then addOnce s.wear.retireNext pos else s.wear.retireNext }
  if failed || retires || decide (c ≥ s.rewriteBits ch) then t.setLowMargin tile else t

/-- What a read of a media line says of its margin, by any reader (R172, R174, R180). -/
def State.noteRead (s : State) (line mpa : Nat) (halo : Bool) (c : Nat) (failed : Bool) : State :=
  if halo then
    match s.haloHit line with
    | some (k, _) => s.noteSlot (tileOfLine line) k c failed
    | none => s
  else s.noteBulk (tileOfLine line) (mpa / 256) c failed

/-! ### Tile groups (R128, R149, R150) -/

/-- A data position: MPA[35:8]. -/
def posGroup (ht pos : Nat) : Nat := ((pos % 2 ^ 17 - ht) * 4 + pos / 2 ^ 17 % 4) * 32 + pos / 2 ^ 23 % 32
def posDie (pos : Nat) : Nat := pos / 2 ^ 19 % 16

/-- A group's channel and plane as one number: that of their open group (R143). -/
def groupKey (g : Nat) : Nat := g % 128

def groupCh (g : Nat) : Nat := g % 32
def groupPlane (g : Nat) : Nat := g / 32 % 4
def groupTile (ht g : Nat) : Nat := g / 128 + ht

def groupPos (ht g die : Nat) : Nat := groupCh g * 2 ^ 23 + die * 2 ^ 19 + groupPlane g * 2 ^ 17 + groupTile ht g

/-- The first group and the count of what the format places, in R128's order: bands A and B, checkpoint copies A and B, and the
reserve of R187. -/
def rolePlaces : Nat → Nat × Nat
  | 0 => (0, 40414)
  | 1 => (40414, 40414)
  | 2 => (80828, 1827)
  | 3 => (82655, 1827)
  | _ => (metaGroups, 128)

/-- Group g is of what the format places as `role`. -/
def inRole (role g : Nat) : Bool := decide ((rolePlaces role).1 ≤ g) && decide (g < (rolePlaces role).1 + (rolePlaces role).2)

/-- The generation of a group that is not listed: how often its role was reset (R178). -/
def baseGen (gens : SMap Nat) (g : Nat) : Nat :=
  match (List.range 5).find? (fun r => inRole r g) with
  | some r => (mapGet? gens r).getD 0
  | none => 0

/-- A group table entry as the format leaves it: its parity on die t mod 16 (R128). -/
def groupInit (gens : SMap Nat) (ht : Nat) (g : Nat) : GroupEnt := ⟨.asFormat, 0, 0, 0, 0, groupTile ht g % 16, 0, baseGen gens g⟩

def State.group (s : State) (g : Nat) : GroupEnt := mapGet (groupInit s.store.roleGens s.haloTiles) s.store.groups g

def State.setGroup (s : State) (g : Nat) (e : GroupEnt) : State :=
  { s with store.groups := mapSet (groupInit s.store.roleGens s.haloTiles) s.store.groups g e }

def bit16 (d : Nat) : BitVec 16 := 1#16 <<< d

/-! ### Units out of service (R180) -/

def planeId (ch die plane : Nat) : Nat := ch * 64 + die * 4 + plane
def dieIdx (ch die : Nat) : Nat := ch * 16 + die

def State.chanOut (s : State) (c : Nat) : Bool := s.wear.chansOut.contains c

/-- Die d's tiles of a plane on channel c are retired with their plane or die. -/
def State.unitOut (s : State) (c d p : Nat) : Bool :=
  s.wear.planesOut.contains (planeId c d p) || s.wear.diesOut.contains (dieIdx c d)

/-! ### Parity (R142) -/

/-- The dies of a group whose data position has been programmed since the group's last reset: the others count as zero. -/
def GroupEnt.programmed (e : GroupEnt) : List Nat :=
  (List.range 16).filter (fun d => d != e.parityDie && (e.live.getLsbD d || e.dead.getLsbD d))

/-- The parity line of a group: of an open group the accumulator's (R143), else the parity tile's. -/
def State.parityLine (s : State) (g line : Nat) : Stored :=
  match mapGet? s.store.opened (groupKey g) with
  | some o => if o.group = g then mapGet (fun _ => 0) o.parity line
      else s.cell (groupPos s.haloTiles g (s.group g).parityDie * 256 + line)
  | none => s.cell (groupPos s.haloTiles g (s.group g).parityDie * 256 + line)

/-- The parity line of a group lies on media, not in the accumulator. -/
def State.parityStored (s : State) (g : Nat) : Bool :=
  match mapGet? s.store.opened (groupKey g) with
  | some o => o.group != g
  | none => true

/-- A line of a group reconstructed from the parity and the other data positions (R38, R142). -/
def State.reconstruct (s : State) (mpa : Nat) : Stored :=
  let g := posGroup s.haloTiles (mpa / 256)
  let data := (s.group g).programmed.filter (fun d => d != posDie (mpa / 256))
  data.foldl (fun acc d => acc ^^^ s.cell (groupPos s.haloTiles g d * 256 + mpaLine mpa)) (s.parityLine g (mpaLine mpa))

/-- A die that a line's reconstruction needs is retired with its tiles not rebuilt, or the group has no parity to use (R109,
R111). -/
def State.reconBlocked (s : State) (mpa : Nat) : Bool :=
  let g := posGroup s.haloTiles (mpa / 256)
  let out := fun d => d != posDie (mpa / 256) && s.unitOut (groupCh g) d (groupPlane g)
  (s.group g).programmed.any out || (s.parityStored g && out (s.group g).parityDie)

/-! ### The order of sources (R37) -/

/-- Where the newest copy of a line is. -/
inductive LineSrc where
  | vault (loc : Nat) (w : VaultWay)
  | cache (loc : Nat) (w : VaultWay)
  | halo (slot : Nat)
  | bulk (mpa : Nat)
  | unmapped
deriving DecidableEq, Repr

/-- The newest copy below the read cache: Halo, then bulk, then nothing (R37, R141). -/
def State.mediaSource (s : State) (line : Nat) : LineSrc :=
  match s.haloHit line with
  | some (k, _) => .halo k
  | none =>
    let e := s.tileEnt (tileOfLine line)
    if e.mapped then .bulk (e.pos * 256 + line % 256) else .unmapped

/-- The newest copy of a line: vault, read cache, Halo, bulk (R37). -/
def State.source (s : State) (line : Nat) : LineSrc :=
  match s.vaultHit line with
  | some (loc, w) => .vault loc w
  | none => match s.cacheHit line with
    | some (loc, w) => .cache loc w
    | none => s.mediaSource line

/-- The media position a source is read at. -/
def LineSrc.mpa : LineSrc → Option Nat
  | .halo k => some (slotMpa k)
  | .bulk m => some m
  | _ => none

end Sys2Proof.Machine
end

