-- ==== Sys2Proof/Machine/Admission.lean ====
section
/-! DEFINITION. Clock domains (R30 to R32), admission (R112 to R116, R140, R378, R445) and the performance counters
(R117 to R119). -/

namespace Sys2Proof.Machine

/-! ### Clock domains -/

/-- A number for each gated domain. -/
def domNum : Domain → Nat
  | .fabric => 0
  | .cluster k => 1 + k.val
  | .media n => 8 + n.val
  | .ddr n => 40 + n.val
  | .core n => 48 + n.val
  | .stream => 52

def allDomains : List Nat :=
  [0] ++ (List.range 4).map (1 + ·) ++ (List.range 32).map (8 + ·) ++ (List.range 8).map (40 + ·) ++
  (List.range 4).map (48 + ·) ++ [52]

def State.isAwake (s : State) (d : Nat) : Bool := s.dom.awake.contains d

/-- Cluster k's AWAKE bits and channel n's STATE follow their domains (R213, R239). -/
def State.showAwake (s : State) : State :=
  let t := (List.range 4).foldl (fun s k => s.put (F.ENG_CL_STAT_AWAKE k) (if s.isAwake (1 + k) then 1 else 0)) s
  let t := t.put F.ENG_STAT_AWAKE ((List.range 4).foldl (fun n k => if s.isAwake (1 + k) then n + 2 ^ k else n) 0)
  (List.range 32).foldl (fun s n =>
    if [2, 3].contains (s.get (F.MED_STAT_STATE n)) then s.put (F.MED_STAT_STATE n) (if s.isAwake (8 + n) then 2 else 3) else s) t

/-- The listed domains are in use now: their idle times start again (R30). -/
def State.use (s : State) (ds : List Nat) : State :=
  { s with dom.used := ds.foldl (fun m d => mapSet (fun _ => 0) m d s.now) s.dom.used }

/-- Work for the listed domains: the wake of every one that sleeps begins, at the same moment (R30, R31). -/
def State.wake (s : State) (ds : List Nat) : State :=
  State.use { s with
    dom.waking := s.dom.waking ++ ds.filter (fun d => !s.dom.awake.contains d && !s.dom.waking.contains d) } ds

/-- A register access that reaches the data-plane fabric wakes it (R426). -/
def State.touch (s : State) : State := if s.answers .map then s.wake [0] else s

/-- The domains a data-plane lookup depends on: the fabric and the DDR5 channels. -/
def lookupDomains : List Nat := [0] ++ (List.range 8).map (40 + ·)

def State.lookupAwake (s : State) : Bool := lookupDomains.all s.isAwake

/-- The media channel on which an access to a line will read, when its newest copy is on media (R31). -/
def State.mediaDomain (s : State) (line : Nat) : List Nat :=
  match (s.source line).mpa with
  | some m => [8 + mpaCh m]
  | none => []

/-- Every domain that an access to a line depends on (R31). -/
def State.accessDomains (s : State) (line : Nat) : List Nat := lookupDomains ++ s.mediaDomain line

/-- The control cores' domains. -/
def coreDomains : List Nat := (List.range 4).map (48 + ·)

/-- A doorbell, a management command or an interrupt of the data plane wakes the sleeping control cores (R30, R65). -/
def State.wakeCores (s : State) : State := s.wake coreDomains

/-- A Strict media-backed region is reached through an enabled decoder (R32). -/
def State.strictReached (s : State) : Bool :=
  s.rgn.descs.any (fun p => dValid p.2 && dType p.2 == 0 && !dPatient p.2 &&
    (List.range 8).any (fun n => (s.port n).linkUp && (dPorts p.2).testBit n &&
      (s.port n).decs.any (fun q =>
        decide (q.2.dpaBase < (dBase p.2 + dSize p.2) * 2 ^ 24) &&
        decide (dBase p.2 * 2 ^ 24 < q.2.dpaBase + q.2.size / 2 ^ q.2.kidw / max 1 q.2.ways))))

/-- While a Strict region is reached no DDR5 channel stays in self-refresh: sleeping ones wake (R32). The N16 evaluates this at
every decoder commit and uncommit, link change and descriptor commit. -/
def State.keepDdr (s : State) : State := if s.strictReached then s.wake ((List.range 8).map (40 + ·)) else s

/-! ### Buckets -/

/-- A full class bandwidth bucket at the reset depth, in 1/64 B (R112, R445). -/
def clsFull : Int := 1024 * 1024 * 64
/-- A full media-read bucket at the reset depth, in 1/200 of a read (R114, R445). -/
def mreadFull : Int := 1024 * 200

def State.clsLevel (s : State) (c : Nat) : Int := mapGet (fun _ => clsFull) s.adm.cls c
def State.mreadLevel (s : State) (c : Nat) : Int := mapGet (fun _ => mreadFull) s.adm.mread c

def State.setCls (s : State) (c : Nat) (v : Int) : State :=
  { s with adm.cls := mapSet (fun _ => clsFull) s.adm.cls c v }
def State.setMread (s : State) (c : Nat) (v : Int) : State :=
  { s with adm.mread := mapSet (fun _ => mreadFull) s.adm.mread c v }

def State.clsCap (s : State) (c : Nat) : Int := (s.get (F.QOS_C_RATE_BURST c) * 1024 * 64 : Nat)
def State.mreadCap (s : State) (c : Nat) : Int := (s.get (F.QOS_C_MRATE_MBURST c) * 200 : Nat)

/-- Awake engine clusters. -/
def State.awakeClusters (s : State) : Nat := (List.range 4).countP (fun k => s.isAwake (1 + k))

/-- The power bucket's refill in nJ per ns, never below 2 (R115). -/
def State.powerRefill (s : State) : Int :=
  max 2 ((s.get F.QOS_LIMIT_L : Int) - (s.get F.QOS_CFG_BASE_W : Int) - 4 * (s.awakeClusters : Int))

/-- Its cap: 10 µs of the refill (R115). -/
def State.powerCap (s : State) : Int := 10000 * s.powerRefill

/-- Cuts the power level to its cap when the limit changed (R445), and shows the level. -/
def State.cutPower (s : State) : State :=
  let t : State := { s with adm.power := min s.adm.power s.powerCap }
  t.put F.QOS_POWER_power (twos 24 t.adm.power)

/-- Takes a charge in nJ from the power bucket (R115). -/
def State.charge (s : State) (nj : Nat) : State :=
  let t : State := { s with adm.power := s.adm.power - nj }
  t.put F.QOS_POWER_power (twos 24 t.adm.power)

/-- A media read takes one token of its class, down to -MBURST (R114). -/
def State.takeMread (s : State) (c : Nat) : State := s.setMread c (max (-s.mreadCap c) (s.mreadLevel c - 200))

/-- A media read of class c is issued: one token, and 10 nJ (R114, R115). -/
def State.chargeRead (s : State) (c : Nat) : State := (s.takeMread c).charge 10

/-- The class's media-read bucket is below 1: a further read would break the budget (R114). -/
def State.budgetBroken (s : State) (c : Nat) : Bool := decide (s.mreadLevel c < 200)

/-- Every bucket full (R445). -/
def State.fillBuckets (s : State) : State :=
  let t := (List.range 8).foldl (fun s c => (s.setCls c (s.clsCap c)).setMread c (s.mreadCap c)) s
  let t : State := { t with adm.power := t.powerCap }
  t.cutPower

/-- The refill of one 5 ns cycle, eight fabric cycles (R112, R114, R115, R140). -/
def State.refill (s : State) : State :=
  let t := (List.range 8).foldl (fun s c =>
    (s.setCls c (min (s.clsCap c) (s.clsLevel c + s.get (F.QOS_C_RATE_RATE c) * 80))).setMread c
      (min (s.mreadCap c) (s.mreadLevel c + s.get (F.QOS_C_MRATE_MRATE c)))) s
  let held := decide (s.adm.power ≤ 0) && s.accesses.any (fun a => a.stage == .waiting)
  let t : State := { t with
    adm.power := min t.powerCap (t.adm.power + 5 * t.powerRefill)
    adm.halo := min haloCap (t.adm.halo + t.get F.HALO_THR_RATE * 80)
    adm.pwrHeld := held }
  let t := if held then t.add64 R.QOS_PWR_HELD_LO 8 else t
  t.put F.QOS_POWER_power (twos 24 t.adm.power)

/-! ### The limit of R25 -/

/-- The limit in W at a thermal step (R25). -/
def stepWatts (k : Nat) : Nat := 140 - 7 * k

/-- Applies a thermal step to the admission controller (R25, R126). -/
def State.applyStep (s : State) (k : Nat) : State :=
  ((s.put F.QOS_LIMIT_STEP k).put F.QOS_LIMIT_L (stepWatts k)).cutPower

/-- E_have of R378 in µJ. -/
def State.energyHave (s : State) : Nat :=
  if s.flag F.SEQ_IN_STAT_HOLDUP_OK then s.get F.SUP_HOLD_CFG_J_RATED * 1000000 else 0

/-- E_need of R378 in µJ when the vault has a way in use or not. -/
def State.energyNeed (s : State) (vaultUsed : Bool) : Nat :=
  let size := (if vaultUsed then s.get F.MAP_CFG_VAULT_GIB * 2 ^ 30 else 0) + s.get F.MAP_CFG_HALO_64 * 2 ^ 32 +
    s.deltaUnits * 16 + 17 * 2 ^ 20
  215 * (14500 + size / 240000)

/-- The supply cap lets a write place a line in the vault (R378). -/
def State.supplyAllows (s : State) : Bool :=
  !s.flag F.SUP_STAT_PEN || decide (s.energyNeed true ≤ s.energyHave)

/-- Shows whether the supply cap holds writes (R378). -/
def State.showCap (s : State) : State :=
  let c := if s.supplyAllows then 0 else 1
  (s.put F.QOS_LIMIT_CAP c).put F.SUP_STAT_CAP c

/-! ### Performance counters -/

/-- An originator, for the filters (R118). -/
inductive Orig where
  | host (n : Nat) | cluster (k : Nat) | cc | trm | maint | orbit
deriving DecidableEq, Repr

def Orig.bit : Orig → Nat
  | .host n => n
  | .cluster k => 8 + k
  | .cc => 12
  | .trm => 13
  | .maint => 14
  | .orbit => 15

def Orig.tenant : Orig → Bool
  | .host _ => true
  | .cluster _ => true
  | _ => false

def pmcInit : PmcSt := ⟨0, 0, 0x0FFFFFF0, 0, 0, 0xFFFFFF00, 0xFFF⟩

def State.pmcAt (s : State) (i : Nat) : PmcSt := mapGet (fun _ => pmcInit) s.adm.pmc i

def State.setPmc (s : State) (i : Nat) (p : PmcSt) : State :=
  { s with adm.pmc := mapSet (fun _ => pmcInit) s.adm.pmc i p }

/-- Counter i counts now: EN, its enable bit, and no FREEZE (R117). -/
def State.pmcRuns (s : State) (i : Nat) : Bool :=
  s.flag F.PMC_CTL_EN && !s.flag F.PMC_CTL_FREEZE && (s.rd (R.PMC_EN (i / 32))).getLsbD (i % 32)

/-- Counter i advances by k; past 2^48 it wraps, sets its bit of PMC_OVFj and interrupts when OVF_IRQ is 1 (R117). -/
def State.pmcBump (s : State) (i k : Nat) : State :=
  let p := s.pmcAt i
  let n := p.count.toNat + k
  let t := s.setPmc i { p with count := BitVec.ofNat 48 n }
  if n < 2 ^ 48 then t
  else
    let t := t.wr (R.PMC_OVF (i / 32)) (t.rd (R.PMC_OVF (i / 32)) ||| (1#32 <<< (i % 32)))
    if t.flag F.PMC_CTL_OVF_IRQ then (t.say (.pmcIrq i)).wakeCores else t

/-- Which filters an event's row in R119 lists: none, master, master and class, or all. -/
def pmcFilters (code : Nat) : Nat :=
  if code ≤ 0x02 ∨ code = 0x3E ∨ code = 0x40 ∨ 0x50 ≤ code then 0
  else if code = 0x31 then 1
  else if code = 0x30 then 2
  else 3

/-- The event passes the counter's filters (R118). -/
def pmcPass (p : PmcSt) (code : Nat) (o : Orig) (cls : Option Nat) (dpa : Option Nat) : Bool :=
  let lvl := pmcFilters code
  let priv := fieldGet p.filt 0 2
  let privOk := priv == 0 || (priv == 1 && o.tenant) || (priv == 2 && !o.tenant)
  let clsMask := fieldGet p.filt 4 8
  let clsOk := match cls with
    | some c => clsMask.testBit c
    | none => clsMask == 0xFF
  let base := fieldGet p.baseLo 8 24 + 2 ^ 24 * fieldGet p.baseHi 0 12
  let lim := fieldGet p.limLo 8 24 + 2 ^ 24 * fieldGet p.limHi 0 12
  let addrOk := !p.filt.getLsbD 2 || (match dpa with
    | some a => decide (base ≤ a / 256) && decide (a / 256 ≤ lim)
    | none => false)
  (lvl == 0 || (fieldGet p.filt 12 16).testBit o.bit) && (lvl < 2 || clsOk) && (lvl < 3 || (privOk && addrOk))

/-- Every running counter of a code whose filters pass for one of several originators advances once: an event that may be
caused by many at the same time, such as an access held (R117, R119). -/
def State.pmcAny (s : State) (code : Nat) (who : List (Orig × Option Nat × Option Nat)) (k : Nat) : State :=
  s.adm.pmc.foldl (fun s q =>
    if q.2.evt.toNat == code && s.pmcRuns q.1 && who.any (fun w => pmcPass q.2 code w.1 w.2.1 w.2.2) then s.pmcBump q.1 k
    else s) s

/-- An event for the performance counters: every running counter of its code whose filters pass advances (R117). -/
def State.pmc (s : State) (code : Nat) (o : Orig) (cls : Option Nat) (dpa : Option Nat) (k : Nat) : State :=
  if code = 0 then s
  else s.adm.pmc.foldl (fun s q =>
    if q.2.evt.toNat == code && s.pmcRuns q.1 && pmcPass q.2 code o cls dpa then s.pmcBump q.1 k else s) s

/-- A cipher lane is busy for so many cycles of 1.6 GHz: 16 bytes to a cycle, 17 for a media line and 16 for a line of DDR5 (R70,
R104, R119; log 66). -/
def State.laneBusy (s : State) (k : Nat) : State := (s.add64 R.KEY_LANE_BUSY_LO k).pmc 0x40 .maint none none k

end Sys2Proof.Machine
end

