-- ==== Sys2Proof/Machine/Dies.lean ====
section
/-! DEFINITION. Media dies as the rest of the block sees them: their planes, what runs there, and suspension (R109, R192, R194,
R205). -/

namespace Sys2Proof.Machine

/-! ### Dies and planes -/

def planeInit : PlaneSt where
  run := none
  susp := none
  queued := none
  order := 0
  orderTile := 0
  fail := false
  bufValid := false
  done := false
  soft := false
  buf := 0
  tileBuf := []
  susps := 0

def dieInit : DieSt where
  planes := []
  err := 0
  wasReset := false
  temp := 0
  tempValid := false
  standby := false

def DieSt.plane (d : DieSt) (p : Nat) : PlaneSt := mapGet (fun _ => planeInit) d.planes p
def DieSt.setPlane (d : DieSt) (p : Nat) (x : PlaneSt) : DieSt :=
  { d with planes := mapSet (fun _ => planeInit) d.planes p x }

def State.die (s : State) (c d : Nat) : DieSt := mapGet (fun _ => dieInit) s.dies (dieIdx c d)

/-- A die holds an event not yet acknowledged (R200, R205). -/
def DieSt.attention (d : DieSt) : Bool :=
  d.err != 0 || d.wasReset || (List.range 4).any (fun p => (d.plane p).done || (d.plane p).halted)

/-- Shows attention and suspension on a channel (R213). -/
def State.showChan (s : State) (c : Nat) : State :=
  let ds := (List.range 16).map (fun d => s.die c d)
  (s.put (F.MED_STAT_ATN c) (if ds.any (·.attention) then 1 else 0)).put (F.MED_STAT_SUSP c)
    (if ds.any (fun d => (List.range 4).any (fun p => (d.plane p).susp.isSome)) then 1 else 0)

def State.setDie (s : State) (c d : Nat) (x : DieSt) : State :=
  State.showChan { s with dies := mapSet (fun _ => dieInit) s.dies (dieIdx c d) x } c

/-- Operations of high current (R194). -/
def ArrOp.high : ArrOp → Bool
  | .prog4 .. | .reset _ | .calibrate _ => true
  | _ => false

def ArrOp.suspendable : ArrOp → Bool
  | .prog1 .. | .prog4 .. | .reset _ | .calibrate _ => true
  | _ => false

/-- The dies of media channels whose domains are listed leave standby (R212). -/
def State.leaveStandby (s : State) (ds : List Nat) : State :=
  let woken := s.dies.map (fun q => if ds.contains (8 + q.1 / 16) then (q.1, { q.2 with standby := false }) else q)
  { s with dies := mapFilter (fun _ d => d != dieInit) woken }

/-- High-current operations that run on planes other than p. -/
def DieSt.highOn (d : DieSt) (p : Nat) : Nat :=
  (List.range 4).countP (fun q => q != p && (match (d.plane q).run with | some o => o.high | none => false))

/-- A die runs, suspends or queues an operation. -/
def DieSt.active (d : DieSt) : Bool :=
  (List.range 4).any (fun p => (d.plane p).run.isSome || (d.plane p).susp.isSome || (d.plane p).queued.isSome)

/-- Some die has an operation that has not ended. -/
def State.diesBusy (s : State) : Bool := s.dies.any (fun q => q.2.active)

/-- A plane can take an array operation of the N16's: it runs, holds and queues none, one of high current is at most the second on
the die, and the die is not overdue (R194, R208, R209). -/
def State.planeFree (s : State) (c d p : Nat) (high : Bool) : Bool :=
  let x := (s.die c d).plane p
  x.run.isNone && x.susp.isNone && x.queued.isNone && (!high || decide ((s.die c d).highOn p < 2)) && !(s.die c d).overdue

/-- A plane's operation is suspended: it cannot end before it resumes (R109). -/
def State.planeHeld (s : State) (c d p : Nat) : Bool := ((s.die c d).plane p).susp.isSome

/-- The N16 starts an array operation on a plane (R109, R135, R146, R149). -/
def State.occupy (s : State) (c d p : Nat) (o : ArrOp) : State :=
  let x := s.die c d
  s.setDie c d (x.setPlane p { x.plane p with
    run := some o
    susps := 0 })

/-- The operation of a plane is over. -/
def State.vacate (s : State) (c d p : Nat) : State :=
  let x := s.die c d
  if (x.plane p).run.isNone && (x.plane p).susp.isNone then s
  else s.setDie c d (x.setPlane p { x.plane p with
    run := none
    susp := none })

/-- Suspended operations go on, as far as the die's limit of high-current operations lets them; with `drop`, queued passes are
abandoned (R91, R194, R209). -/
def DieSt.resumeAll (d : DieSt) (drop : Bool) : DieSt :=
  (List.range 4).foldl (fun d p =>
    let x := d.plane p
    let x := if drop then { x with queued := none } else x
    d.setPlane p (match x.run, x.susp with
      | none, some o => if o.high && decide (2 ≤ d.highOn p) then x else { x with
          run := some o
          susp := none }
      | _, _ => x)) d

def State.resumeDies (s : State) (drop : Bool) : State :=
  s.dies.foldl (fun s q => s.setDie (q.1 / 16) (q.1 % 16) (q.2.resumeAll drop)) s

/-! ### Suspension (R109, R205) -/

/-- Operations that the N16 suspends for a read (R109). -/
def ArrOp.yields : ArrOp → Bool
  | .prog1 .. | .prog4 .. | .reset _ => true
  | _ => false

/-- How often the operation that a plane runs, or has suspended, has been suspended; none where a read suspends nothing. -/
def PlaneSt.suspended (x : PlaneSt) : Option Nat :=
  match x.run, x.susp with
  | some o, _ => if o.yields then some x.susps else none
  | none, some o => if o.yields then some x.susps else none
  | none, none => none

/-- The operation that a plane runs is suspended, when it can be and none is (R205, R206). -/
def PlaneSt.suspend (x : PlaneSt) : PlaneSt :=
  match x.run, x.susp with
  | some o, none => if o.suspendable then { x with
      run := none
      susp := some o
      susps := x.susps + 1
      halted := true } else x
  | _, _ => x

/-- A read on a plane finds an operation to suspend there (R109, R194). -/
def PlaneSt.inWay (x : PlaneSt) : Bool :=
  match x.run, x.susp with
  | some o, none => o.yields
  | _, _ => false

/-- A plane's operation has been suspended MAX_SUSP times and AROUND is 1: no limit applies while MAX_SUSP is 0 (R109). -/
def State.suspSpent (s : State) (x : PlaneSt) : Bool :=
  match x.suspended with
  | some n => s.flag F.QOS_SUSP_CFG_AROUND && decide (0 < s.get F.QOS_SUSP_CFG_MAX_SUSP) &&
      decide (s.get F.QOS_SUSP_CFG_MAX_SUSP ≤ n)
  | none => false

/-! ### The bus (R196) -/

/-- An event of the N16's own maintenance (R119). -/
def State.maint (s : State) (code k : Nat) (dpa : Option Nat) : State := s.pmc code .maint none dpa k

/-- The bus is busy for so many cycles of 2.4 GHz: two beats, 4 B, to a cycle (R196). -/
def State.bus (s : State) (c bytes : Nat) : State :=
  let k := (bytes + 3) / 4
  (s.add64 (R.MED_BUSY_LO c) k).maint 0x3E k none

/-! ### Level tables (R166, R167) -/

/-- A temperature of 12 bits, two's complement, in 0.25 °C. -/
def tempInt (t : Nat) : Int := if t < 2048 then (t : Int) else (t : Int) - 4096

/-- The temperature bin (R166). -/
def tempBin (t : Nat) : Nat := min 7 ((tempInt t).toNat / 64)

def State.dieTemp (s : State) (c d : Nat) : Nat := (mapGet? s.wear.temps (dieIdx c d)).getD 0

def levelKey (i entry : Nat) : Nat := i * 512 + entry

def levelInit (k : Nat) : LevelEnt :=
  ⟨(List.range (if k % 512 < 256 then 15 else 1)).map (fun j => (Config.levelThr (k / 512) (k % 512) (j + 1)).toNat), false⟩

/-- A level table entry; one never updated holds what the part was made with. -/
def State.level (s : State) (k : Nat) : LevelEnt := (mapGet? s.wear.levels k).getD (levelInit k)

/-- The thresholds that a READ-4 of a tile takes (R167). -/
def State.thresholds (s : State) (c d age : Nat) : List Nat :=
  (s.level (levelKey (dieIdx c d) (ageBin age * 8 + tempBin (s.dieTemp c d)))).thr

/-- The threshold that a READ-1 takes (R167). -/
def State.threshold1 (s : State) (c d : Nat) : List Nat :=
  (s.level (levelKey (dieIdx c d) (256 + tempBin (s.dieTemp c d)))).thr

/-! ### Reference lines (R168, R192) -/

/-- A line of free values: five draws (log 7). -/
def State.freeLine (s : State) : Stored × State :=
  let (a, s) := s.fresh
  let (b, s) := s.fresh
  let (c, s) := s.fresh
  let (d, s) := s.fresh
  let (e, s) := s.fresh
  (BitVec.ofNat 2432 (a.toNat + 2 ^ 512 * b.toNat + 2 ^ 1024 * c.toNat + 2 ^ 1536 * d.toNat + 2 ^ 2048 * e.toNat), s)

/-- The 4-bit code of a level: the inverted reflected Gray code (R193). -/
def levelCode (l : Nat) : Nat := 15 ^^^ (l ^^^ (l / 2))

/-- The level whose code a 4-bit cell holds (R193). -/
def codeLevel (code : Nat) : Nat := ((List.range 16).find? (fun l => levelCode l == code)).getD 0

/-- A ladder line: every level in 38 cells. In which cells the manual leaves open: the model takes them in rising level order
(log 73). -/
def refPattern : Stored :=
  BitVec.ofNat 2432 ((List.range 608).foldl (fun n c => n + levelCode (c / 38) * 2 ^ (4 * c)) 0)

/-- A reference line of a plane. -/
def State.refLine (s : State) (plane line : Nat) : Stored := mapGet (fun _ => erased) s.wear.refs (plane * 64 + line)

def State.setRef (s : State) (plane line : Nat) (v : Stored) : State :=
  { s with wear.refs := mapSet (fun _ => erased) s.wear.refs (plane * 64 + line) v }

/-- The reference lines of ladder step j; j = 12 is the two lines in 1-bit mode (R198). -/
def stepLines (j : Nat) : List Nat := if j < 12 then (List.range 4).map (4 * j + ·) else [48, 49]

/-- A CALIBRATE of step j has programmed its lines on a plane (R168, R198). What the 1-bit lines hold no rule states: free values
(log 73). -/
def State.writeRefs (s : State) (plane j : Nat) : State :=
  (stepLines j).foldl (fun s l =>
    if j < 12 then s.setRef plane l refPattern
    else
      let (v, t) := s.freeLine
      t.setRef plane l v) s

/-- Program time of a ladder step; step 12 is the 1-bit lines. -/
def State.ladderAt (s : State) (i j : Nat) : Nat := (mapGet? s.wear.ladder (i * 16 + j)).getD 0

def State.setLadder (s : State) (i j : Nat) : State := { s with wear.ladder := mapPut s.wear.ladder (i * 16 + j) s.drift }

/-- The age at which a step is reprogrammed (R168). -/
def stepAge (j : Nat) : Nat := if j < 12 then 2 ^ (2 * j + 4) else 2 ^ 20

/-- A step is reprogrammed with CALIBRATE on all four planes of a die (R168, R169). -/
def State.calibrate (s : State) (c d j : Nat) : State :=
  ((List.range 4).foldl (fun s p => (s.bus c 16).writeRefs (planeId c d p) j) s).setLadder (dieIdx c d) j

/-! ### Reads that the N16 sends (R167, R203) -/

/-- The thresholds of a read of a media position that belongs to a logical tile (R167). -/
def State.readThr (s : State) (mpa tile : Nat) (halo : Bool) : List Nat :=
  if halo then s.threshold1 (mpaCh mpa) (mpaDie mpa) else s.thresholds (mpaCh mpa) (mpaDie mpa) (s.tileAge tile)

/-- Bytes on the bus for a read: its frame, with 32 B of thresholds for a READ-4, STATUS with its response of 6 B, and DATA-OUT with
the line (R203). -/
def readBytes (halo : Bool) : Nat := (if halo then 16 else 48) + 22 + 16 + 304

/-- The N16 sends a read of a line for itself: the frames cross the bus, with the thresholds that the line's age and its die's
temperature choose (R167, R203). -/
def State.sendRead (s : State) (mpa tile : Nat) (halo : Bool) : State :=
  (s.bus (mpaCh mpa) (readBytes halo)).say (.mediaRead mpa (s.readThr mpa tile halo))

/-- Who has the media read: its originator, class and DPA, as far as it has them, for the budgets and the counters (R114, R118). -/
structure Reader where
  orig : Orig
  cls : Option Nat
  dpa : Option Nat
deriving DecidableEq, Repr

def State.countBy (s : State) (b : Reader) (code k : Nat) : State := s.pmc code b.orig b.cls b.dpa k

/-- The 10 nJ of a media read, with a token of its class where it has one (R114, R115). -/
def State.chargeBy (s : State) (b : Reader) : State :=
  match b.cls with
  | some c => s.chargeRead c
  | none => s.charge 10

/-- A read suspends the operation in its way on a plane, and is counted (R109, R119 code 0x38). -/
def State.suspendFor (s : State) (b : Reader) (c d p : Nat) : State :=
  let x := (s.die c d).plane p
  if x.inWay then (((s.setDie c d ((s.die c d).setPlane p x.suspend)).add64 R.QOS_SUSPEND_LO 1).countBy b 0x38 1) else s

/-- The N16 sends a media read for `b`: it wakes the channel, suspends what is in its way, and is charged and counted (R30, R109, R114,
R115, R119). -/
def State.issueRead (s : State) (b : Reader) (mpa tile : Nat) (halo : Bool) : State :=
  let t := ((s.wake [8 + mpaCh mpa]).suspendFor b (mpaCh mpa) (mpaDie mpa) (mpaPlane mpa)).sendRead mpa tile halo
  (t.chargeBy b).countBy b (if halo then 0x39 else 0x3A) 1

/-- The logical tile at a position. -/
def State.posTile (s : State) (pos : Nat) : Option Nat := (s.store.map.find? (fun q => q.2.mapped && q.2.pos == pos)).map (·.1)

/-- The positions that a reconstruction of a line reads: those of the other 15 dies of its group (R38, R142). -/
def State.reconPos (s : State) (mpa : Nat) : List Nat :=
  ((List.range 16).filter (· != mpaDie mpa)).map (fun d => groupPos s.haloTiles (posGroup s.haloTiles (mpa / 256)) d)

/-- One of the 15 reads: its thresholds are those of the tile at its position; a position with no logical tile, the parity tile's
among them, has no age, and the model takes bin 0 (R167, log 81). -/
def State.reconRead (s : State) (b : Reader) (pos line : Nat) : State :=
  let m := pos * 256 + line
  let thr := s.thresholds (mpaCh m) (mpaDie m) (match s.posTile pos with
    | some t => s.tileAge t
    | none => 0)
  ((((s.suspendFor b (mpaCh m) (mpaDie m) (mpaPlane m)).bus (mpaCh m) (readBytes false)).say (.mediaRead m thr)).chargeBy b).countBy b
    0x3A 1

/-- The 15 further media reads of a reconstruction are issued: they are charged, and each suspends what its own plane runs,
whatever the count (R109, R110). -/
def State.issueRecon (s : State) (b : Reader) (mpa : Nat) : State :=
  ((s.reconPos mpa).foldl (fun s p => s.reconRead b p (mpaLine mpa)) (s.wake [8 + mpaCh mpa])).countBy b 0x21 1

/-- What the 15 reads of a reconstruction say of the margin of the tiles they read: the corrected bits by die (R172). -/
def State.noteRecon (s : State) (mpa : Nat) (counts : List (Fin 16 × Nat)) : State :=
  counts.foldl (fun s q =>
    let p := groupPos s.haloTiles (posGroup s.haloTiles (mpa / 256)) q.1.val
    match (if q.1.val = mpaDie mpa then none else s.posTile p) with
    | some t => s.noteBulk t p q.2 false
    | none => s) s

end Sys2Proof.Machine
end

