-- ==== Sys2Proof/Machine/OrbitLink.lean ====
section
/-! DEFINITION. The Orbit transport: peers, sealing, sequence numbers, credits, and what a received header does
before its payload is taken (R282 to R293). -/

namespace Sys2Proof.Machine

def chanInit : ChanSt := ⟨0, [], [], 0, 0, 0, 0⟩

def peerInit : PeerSt where
  cfg := 0
  planetEn := false
  init := 256
  reachable := false
  port := 0
  seqWarn := false
  lastHeard := 0
  rtt := 0
  nctr := 0
  chans := []
  tagEvent := none

def State.peer (s : State) (m : Nat) : PeerSt := mapGet (fun _ => peerInit) s.orb.peers m

def PeerSt.member (p : PeerSt) : Bool := p.cfg.getLsbD 0
def PeerSt.keySlot (p : PeerSt) : Nat := fieldGet p.cfg 1 14
def PeerSt.remoteOk (p : PeerSt) : Bool := p.cfg.getLsbD 15

/-- Members and those reachable, and peers with SEQ_WARN, as the registers show them (R311). -/
def State.showPeers (s : State) : State :=
  let ms := s.orb.peers.filter (fun p => p.2.member)
  let t := (s.put F.ORB_MEMBERS_MEMBERS ms.length).put F.ORB_MEMBERS_REACHABLE (ms.countP (fun p => p.2.reachable))
  t.put F.ORB_SEQ_WARN_peers (s.orb.peers.countP (fun p => p.2.seqWarn))

def State.setPeer (s : State) (m : Nat) (p : PeerSt) : State :=
  State.showPeers { s with orb.peers := mapSet (fun _ => peerInit) s.orb.peers m p }

def PeerSt.chan (p : PeerSt) (c : Nat) : ChanSt := mapGet (fun _ => chanInit) p.chans c
def PeerSt.setChan (p : PeerSt) (c : Nat) (x : ChanSt) : PeerSt :=
  { p with chans := mapSet (fun _ => chanInit) p.chans c x }

/-- ROLE codes of ORB_STAT (R311). -/
def roleOff : Nat := 0
def roleAlone : Nat := 1
def roleMoon : Nat := 2
def roleCandidate : Nat := 3
def roleStandby : Nat := 4
def rolePlanet : Nat := 5
def roleStopped : Nat := 6

def State.role (s : State) : Nat := s.get F.ORB_STAT_ROLE
def State.ownMoon (s : State) : Nat := s.get F.ORB_ID_MOON

/-- Orbit sends and takes frames: it is enabled, and neither Halted, Hold nor Vendor-debug (R293). -/
def State.orbitRuns (s : State) : Bool :=
  s.flag F.ORB_CFG_EN && s.role != roleOff && s.role != roleStopped && s.service != svHold && !s.halted &&
  s.trust != trVendor

/-- The channel of a message (R285). -/
def OrbMsg.chan : OrbMsg → Nat
  | .hello .. | .candidate .. | .vote .. | .planet .. | .dirNote .. | .dirQuery .. | .dirEntries .. | .dirChange ..
  | .dirCopy .. | .dirAck .. | .unitViews .. | .unitCommand .. | .unitResult .. => 0
  | .rwrite .. | .rack .. => 1
  | .mdata .. | .mack .. => 2
  | .items .. | .grant .. | .ret .. => 3
  | .rread .. | .rdata .. | .rstore .. | .rstack .. => 4
  | .nak .. | .ackOnly => 0

/-- LEN of a message (R285, R286). -/
def OrbMsg.len : OrbMsg → Nat
  | .hello .. => 16
  | .candidate .. => 8
  | .vote .. => 8
  | .planet .. => 16
  | .dirNote _ g => 16 + 4 * g.length
  | .dirQuery g => 16 + 4 * g.length
  | .dirEntries e => 16 + 32 * e.length
  | .dirChange e => 16 + 32 * e.length
  | .dirCopy _ e => 16 + 32 * e.length
  | .dirAck g => 16 + 4 * g.length
  | .unitViews i => 8 + 8 * i.length
  | .unitCommand .. => 16
  | .unitResult .. => 16
  | .rwrite .. => 280
  | .rack .. => 8
  | .mdata _ _ _ _ l => 16 + 272 * l.length
  | .mack .. => 16
  | .items _ _ _ i => 8 + 64 * i.length
  | .grant .. => 8
  | .ret .. => 8
  | .rread .. => 32
  | .rdata .. => 72
  | .rstore .. => 96
  | .rstack .. => 8
  | .nak .. => 8
  | .ackOnly => 0

/-- Credits a sequenced frame costs (R290). -/
def OrbMsg.credits (m : OrbMsg) : Nat := (40 + m.len + 255) / 256

/-! ### Frames on the wire (R283 to R287, R294, R299) -/

/-- TYPE of a message (R285). An ACK_ONLY frame, for which no TYPE is given, takes the first of its channel (log 75). -/
def OrbMsg.typ (m : OrbMsg) (c : Nat) : Nat :=
  match m with
  | .hello .. => 0x01
  | .candidate .. => 0x02
  | .vote .. => 0x03
  | .planet .. => 0x04
  | .dirNote .. | .dirQuery .. | .dirEntries .. | .dirChange .. | .dirCopy .. | .dirAck .. => 0x05
  | .unitViews .. | .unitCommand .. | .unitResult .. => 0x06
  | .rwrite .. => 0x10
  | .rack .. => 0x11
  | .mdata .. => 0x20
  | .mack .. => 0x21
  | .items .. => 0x30
  | .grant .. => 0x31
  | .ret .. => 0x32
  | .rread .. => 0x40
  | .rdata .. => 0x41
  | .rstore .. => 0x42
  | .rstack .. => 0x43
  | .nak .. => 0x7F
  | .ackOnly => if c = 0 then 0x01 else 16 * c

/-- A moon number with bit 15 set, or 0 where none is known (R286). -/
def knownMoon (m : Option Nat) : Nat := match m with | some m => m + 32768 | none => 0

/-- A directory entry's 32 bytes (R294). -/
def DirEntry.bytes (e : DirEntry) : List Byte :=
  leBytes 4 e.grn.toNat ++ leBytes 2 e.homeMoon.toNat ++ leBytes 3 e.homeRegion.toNat ++ leBytes 2 e.peerMoon.toNat ++
  leBytes 3 e.peerRegion.toNat ++ leBytes 1 e.role.toNat ++ leBytes 1 ((if e.valid then 1 else 0) + (if e.moving then 2 else 0)) ++
  leBytes 4 e.size.toNat ++ leBytes 8 e.gen.toNat ++ leBytes 4 0

/-- A DIR payload: OP, the count, DIRGEN, and the items (R286). -/
def dirBytes (op n dirgen : Nat) (items : List Byte) : List Byte := leBytes 1 op ++ leBytes 7 n ++ leBytes 8 dirgen ++ items

/-- A UNIT payload: OP, the count, and items of 8 B (R286). -/
def unitBytes (op n : Nat) (items : List Byte) : List Byte := leBytes 1 op ++ leBytes 7 n ++ items

def UnitItem.bytes (i : UnitItem) : List Byte :=
  leBytes 2 i.unit.toNat ++ leBytes 2 i.gen.toNat ++ leBytes 4 (i.state.toNat + 16 * i.kind.toNat)

/-- A line of an MDATA payload, 272 B (R286). -/
def MLine.bytes (l : MLine) : List Byte := toBytes 256 l.data ++ toBytes 8 l.cc ++ leBytes 8 l.poison.toNat

/-- The payload of a message; `held` is the sender's DIRGEN (R286, R299). -/
def OrbMsg.payload (held : Nat) : OrbMsg → List Byte
  | .hello role en pl dirgen => leBytes 1 role ++ leBytes 1 (if en then 1 else 0) ++ leBytes 6 (knownMoon pl) ++ leBytes 8 dirgen
  | .candidate dirgen => leBytes 8 dirgen
  | .vote term granted => leBytes 4 term ++ leBytes 4 (if granted then 1 else 0)
  | .planet dirgen standby => leBytes 8 dirgen ++ leBytes 8 (knownMoon standby)
  | .dirNote dirgen g => dirBytes 1 g.length dirgen (g.flatMap (fun w => leBytes 4 w.toNat))
  | .dirQuery g => dirBytes 2 g.length held (g.flatMap (fun w => leBytes 4 w.toNat))
  | .dirEntries e => dirBytes 3 e.length held (e.flatMap DirEntry.bytes)
  | .dirChange e => dirBytes 4 e.length held (e.flatMap DirEntry.bytes)
  | .dirCopy dirgen e => dirBytes 5 e.length dirgen (e.flatMap DirEntry.bytes)
  | .dirAck g => dirBytes 6 g.length held (g.flatMap (fun w => leBytes 4 w.toNat))
  | .unitViews i => unitBytes 1 i.length (i.flatMap UnitItem.bytes)
  | .unitCommand u gen op => unitBytes 2 1 (leBytes 2 u ++ leBytes 2 gen ++ leBytes 4 op)
  | .unitResult u code => unitBytes 3 1 (leBytes 2 u ++ leBytes 6 code)
  | .rwrite rseq region off l => leBytes 4 rseq.toNat ++ leBytes 3 region ++ leBytes 5 off ++ leBytes 4 l.poison.toNat ++
      toBytes 256 l.data ++ toBytes 8 l.cc
  | .rack rseq region code => leBytes 4 rseq.toNat ++ leBytes 3 region ++ leBytes 1 code
  | .mdata region tile unmapped first lines => leBytes 4 region ++ leBytes 4 tile ++ leBytes 1 (if unmapped then 1 else 0) ++
      leBytes 1 first ++ leBytes 6 lines.length ++ lines.flatMap MLine.bytes
  | .mack region tile code => leBytes 4 region ++ leBytes 4 tile ++ leBytes 8 code
  | .items dstQ srcQ epoch its => leBytes 2 dstQ ++ leBytes 2 srcQ ++ leBytes 1 epoch ++ leBytes 3 its.length ++
      its.flatMap (toBytes 64)
  | .grant txQ rxQ epoch value => leBytes 2 txQ ++ leBytes 2 rxQ ++ leBytes 1 epoch ++ leBytes 3 value
  | .ret txQ rxQ epoch value => leBytes 2 txQ ++ leBytes 2 rxQ ++ leBytes 1 epoch ++ leBytes 3 value
  | .rread tag region off be _ => leBytes 4 tag.toNat ++ leBytes 4 region ++ leBytes 8 off ++ leBytes 16 be.toNat
  | .rdata tag code data => leBytes 4 tag.toNat ++ leBytes 4 code ++ toBytes 64 data
  | .rstore tag region off be data _ => leBytes 4 tag.toNat ++ leBytes 4 region ++ leBytes 8 off ++ leBytes 16 be.toNat ++
      toBytes 64 data
  | .rstack tag code => leBytes 4 tag.toNat ++ leBytes 4 code
  | .nak expected => leBytes 8 expected
  | .ackOnly => []

/-- The MAC address of port Sp of a moon: 0x02, CONST high byte first, 0x00, then MOON x 2 + p high byte first (R283). -/
def portMac (const moon p : Nat) : List Byte := leBytes 1 0x02 ++ beBytes 2 const ++ leBytes 1 0x00 ++ beBytes 2 (2 * moon + p)

/-- What a sent frame's header holds beside the sender's own numbers (R284). -/
structure FrameNums where
  link : Nat
  dst : Nat
  chan : Nat
  seq : Nat
  ack : Nat
  nctr : Nat
  credit : Nat
deriving DecidableEq, Repr

/-- The 40 B of an Orbit header, field by field (R284). -/
def orbHdrBytes (version typ src dst const chan flags len seq ack nctr credit term : Nat) : List Byte :=
  leBytes 1 version ++ leBytes 1 typ ++ leBytes 2 src ++ leBytes 2 dst ++ leBytes 2 const ++ leBytes 1 chan ++ leBytes 1 flags ++
  leBytes 2 len ++ leBytes 6 seq ++ leBytes 6 ack ++ leBytes 6 nctr ++ leBytes 2 credit ++ leBytes 4 term ++ leBytes 4 0

/-- FLAGS of a message's frame: ACK_ONLY (R284). -/
def OrbMsg.flags : OrbMsg → Nat
  | .ackOnly => 1
  | _ => 0

/-- The header of a frame that this N16 sends (R284). -/
def State.orbHeader (s : State) (n : FrameNums) (msg : OrbMsg) : List Byte :=
  orbHdrBytes 1 (msg.typ n.chan) s.ownMoon n.dst (s.get F.ORB_ID_CONST) n.chan msg.flags msg.len n.seq n.ack n.nctr n.credit
    (s.rd R.ORB_TERM).toNat

/-- The nonce of the seal: SRC, DST, 0x0000 and NCTR, in the header's byte order (R287; log 75). -/
def nonceOf (src dst nctr : Nat) : List Byte := leBytes 2 src ++ leBytes 2 dst ++ leBytes 2 0 ++ leBytes 6 nctr

def State.orbNonce (s : State) (n : FrameNums) : List Byte := nonceOf s.ownMoon n.dst n.nctr

/-- The header of a received frame as it came (R284). -/
def OrbHdr.bytes (h : OrbHdr) (msg : OrbMsg) : List Byte :=
  orbHdrBytes h.version.toNat h.typ.toNat h.src.toNat h.dst.toNat h.constId.toNat h.chan.toNat msg.flags h.len.toNat h.seq.toNat
    h.ack.toNat h.nctr.toNat h.credit.toNat h.term.toNat

/-- The GCM tag that a received frame has under a pair key: the nonce and the additional data from its header, the text from what it
carries (R287). -/
def OrbHdr.sealUnder (h : OrbHdr) (key : List Byte) (msg : OrbMsg) : BitVec 128 :=
  let iv := nonceOf h.src.toNat h.dst.toNat h.nctr.toNat
  ofBytes 128 (gcmTag key iv (OrbHdr.bytes h msg) (gcmCrypt key iv (msg.payload h.held.toNat)))

/-- The TYPEs that each channel carries (R285). -/
def orbTypes (c : Nat) : List Nat :=
  match c with
  | 0 => [0x01, 0x02, 0x03, 0x04, 0x05, 0x06, 0x7F]
  | 1 => [0x10, 0x11, 0x7F]
  | 2 => [0x20, 0x21, 0x7F]
  | 3 => [0x30, 0x31, 0x32, 0x7F]
  | 4 => [0x40, 0x41, 0x42, 0x43, 0x7F]
  | _ => []

/-- The number of items of a message is one that its layout allows (R285, R286). -/
def OrbMsg.counted : OrbMsg → Bool
  | .dirNote _ g | .dirQuery g | .dirAck g => decide (0 < g.length) && decide (g.length ≤ 255)
  | .dirEntries e | .dirChange e | .dirCopy _ e => decide (0 < e.length) && decide (e.length ≤ 255)
  | .unitViews i => decide (0 < i.length) && decide (i.length ≤ 255)
  | .items _ _ _ i => decide (0 < i.length) && decide (i.length ≤ 127)
  | .mdata _ _ unmapped _ l => l.length == (if unmapped then 0 else 16)
  | _ => true

/-- A received frame has a VERSION, TYPE and CHAN of R285, and the LEN of what it carries (R286). An ACK_ONLY has a TYPE of its channel
(log 75). -/
def OrbHdr.formOk (h : OrbHdr) (c : Nat) (msg : OrbMsg) : Bool :=
  h.version == 1 && h.chan.toNat == c && (match msg with
    | .ackOnly => (orbTypes c).contains h.typ.toNat
    | _ => h.typ.toNat == msg.typ c) && h.len.toNat == msg.len && msg.counted

/-- A frame as it leaves port Sp: the addresses, the 802.1Q tag of priority PCP, ETYPE, the header, the sealed payload, the GCM tag
and the FCS (R282, R283, R287). The receiving port is taken to have the sender's number, and the tag's VLAN ID is 0 (log 75). -/
def State.orbWire (s : State) (key : List Byte) (n : FrameNums) (msg : OrbMsg) : List Byte :=
  let const := s.get F.ORB_ID_CONST
  let hdr := s.orbHeader n msg
  let ct := gcmCrypt key (s.orbNonce n) (msg.payload (s.rd64 R.ORB_DIRGEN_LO))
  let frame := portMac const n.dst n.link ++ portMac const s.ownMoon n.link ++ beBytes 2 0x8100 ++
    beBytes 2 (s.get F.ORB_CFG_PCP * 8192) ++ beBytes 2 (s.get F.ORB_CFG_ETYPE) ++ hdr ++ ct ++ gcmTag key (s.orbNonce n) hdr ct
  frame ++ toBytes 4 (crc32 frame)

/-- A link carries traffic: up, and not held. -/
def State.linkOk (s : State) (p : Nat) : Bool := s.flag (F.ORB_S_STAT_UP p) && !s.orb.linkHeld.contains p

/-- The port a peer's traffic takes: the peer's own, or the other when that link is down (R289, R309). -/
def State.peerPort (s : State) (m : Nat) : Option Nat :=
  let p := (s.peer m).port
  if s.linkOk p then some p else if s.linkOk (1 - p) then some (1 - p) else none

/-- The port of a stream queue's traffic with a moon: the one that STQ_Q_DEST.PORT names, while it carries traffic, or the peer's
(R280, R281). -/
def State.destPort (s : State) (dest : Word) (m : Nat) : Option Nat :=
  match F.STQ_Q_DEST_PORT.of dest with
  | 1 => if s.linkOk 0 then some 0 else none
  | 2 => if s.linkOk 1 then some 1 else none
  | _ => s.peerPort m

/-- The port that a message to a peer takes: an item's is its queue's (R281). -/
def State.msgPort (s : State) (m : Nat) (msg : OrbMsg) : Option Nat :=
  match msg with
  | .items _ q _ _ => (match mapGet? s.stq q with
    | some c => s.destPort c.dest m
    | none => s.peerPort m)
  | _ => s.peerPort m

/-- PFC pauses the port that a message to a peer takes (R282, R290). -/
def State.paused (s : State) (m : Nat) (msg : OrbMsg) : Bool :=
  match s.msgPort m msg with
  | some link => s.flag (F.ORB_S_STAT_PFC_RX link)
  | none => false

/-- Orbit sends to a peer: it runs, the peer is a member, and the pair key is there. -/
def State.sendsTo (s : State) (m : Nat) : Bool :=
  s.orbitRuns && (s.peer m).member && (s.slot (s.peer m).keySlot).isSome

/-- Seals and transmits one frame: NCTR advances, warns at 2^47 and stops at 2^48 - 1 (R287, R288). -/
def State.transmit (s : State) (m c seq : Nat) (msg : OrbMsg) : State :=
  let p := s.peer m
  match s.msgPort m msg with
  | none => s
  | some link =>
    match s.slot p.keySlot with
    | none => s
    | some k => if p.nctr ≥ 2 ^ 48 - 1 then s else
      let ch := p.chan c
      let n := p.nctr + 1
      let warn := decide (n ≥ 2 ^ 47) && !p.seqWarn
      let p' := { (p.setChan c { ch with owed := 0 }) with
        nctr := n
        seqWarn := p.seqWarn || warn }
      let t := s.setPeer m p'
      let t := if warn then t.post 0x08 0x03 m 0 else t
      let t := ((t.add64 (R.ORB_S_TX_LO link) 1).pmc 0x51 .orbit none none 1).wake [52]
      let nums : FrameNums := ⟨link, m, c, seq, ch.rxSeq, n, min ch.owed 65535⟩
      t.say (.orbFrame link m c seq ch.rxSeq n (min ch.owed 65535) (t.rd R.ORB_TERM) msg (t.orbWire (toBytes 32 k.k1) nums msg))

/-- Sends a message on a channel under the next SEQ, for these credits (R289, R290). -/
def State.sendNow (s : State) (m c : Nat) (msg : OrbMsg) (cost : Nat) : State :=
  let p := s.peer m
  let ch := p.chan c
  let seq := (ch.txSeq + 1) % 2 ^ 48
  let ch' := { ch with
    txSeq := seq
    credits := ch.credits - cost
    unacked := ch.unacked ++ [⟨seq, msg, s.now⟩] }
  (s.setPeer m (p.setChan c ch')).transmit m c seq msg

/-- Hands a message to a peer's channel: it is sent when credits and PFC allow and waits otherwise (R282, R289, R290). -/
def State.sendMsg (s : State) (m : Nat) (msg : OrbMsg) : State :=
  let p := s.peer m
  if !s.sendsTo m then s
  else
    let c := msg.chan
    let ch := p.chan c
    if s.paused m msg || decide (ch.credits < msg.credits) || !ch.waiting.isEmpty then
      s.setPeer m (p.setChan c { ch with waiting := ch.waiting ++ [msg] })
    else s.sendNow m c msg msg.credits

/-- The link takes a message for a peer at once: Orbit runs, the pair key is there, credits cover it and PFC does not pause the port
(R275, R282, R290). -/
def State.linkTakes (s : State) (m : Nat) (msg : OrbMsg) : Bool :=
  let ch := (s.peer m).chan msg.chan
  s.sendsTo m && decide (msg.credits ≤ ch.credits) && ch.waiting.isEmpty && !s.paused m msg

/-- A frame outside the sequence, which costs nothing: a NAK or an ACK_ONLY (R289, R290). -/
def OrbMsg.free : OrbMsg → Bool
  | .nak _ | .ackOnly => true
  | _ => false

/-- Sends a frame outside the sequence; while PFC pauses the port it waits before the messages that wait (R282, R289, R290). -/
def State.sendFree (s : State) (m c : Nat) (msg : OrbMsg) : State :=
  let p := s.peer m
  let ch := p.chan c
  if !s.sendsTo m then s
  else if s.paused m msg then s.setPeer m (p.setChan c { ch with waiting := msg :: ch.waiting })
  else s.transmit m c ch.txSeq msg

/-- Sends the waiting messages that credits and PFC now let go, in order (R282, R290). -/
def State.pump (s : State) (m c : Nat) : Nat → State
  | 0 => s
  | fuel + 1 =>
    let p := s.peer m
    let ch := p.chan c
    match ch.waiting with
    | [] => s
    | msg :: rest =>
      let t := s.setPeer m (p.setChan c { ch with waiting := rest })
      if s.paused m msg || !s.sendsTo m then s
      else if msg.free then (t.sendFree m c msg).pump m c fuel
      else if ch.credits < msg.credits then s
      else (t.sendNow m c msg msg.credits).pump m c fuel

/-- Resends a channel's unacknowledged frames from SEQ `from` on, with new NCTR (R289). -/
def State.resend (s : State) (m c first : Nat) : State :=
  let p := s.peer m
  let ch := p.chan c
  let again := fun (q : SentFrame) => if first ≤ q.seq then { q with sent := s.now } else q
  ch.unacked.foldl (fun s q =>
    if first ≤ q.seq then
      match s.msgPort m q.msg with
      | some link => if s.paused m q.msg then s else (s.satReg (R.ORB_S_RETX link) 1).transmit m c q.seq q.msg
      | none => s
    else s) (s.setPeer m (p.setChan c { ch with unacked := ch.unacked.map again }))

/-- Every other member: the lists are the same on every N16, so its own MEMBER bit may stand among them (R292). -/
def State.memberMoons (s : State) : List Nat :=
  (s.orb.peers.filter (fun p => p.2.member && p.1 != s.ownMoon)).map (·.1)
def State.reachableMoons (s : State) : List Nat :=
  (s.orb.peers.filter (fun p => p.2.member && p.2.reachable && p.1 != s.ownMoon)).map (·.1)

/-- A majority of the members together with the N16 itself (R292). -/
def State.majority (s : State) (n : Nat) : Bool := decide (2 * n > s.memberMoons.length + 1)

/-- A peer becomes reachable: it is granted INIT credits on every channel (R290, R292). -/
def State.peerUp (s : State) (m : Nat) : State :=
  let p := s.peer m
  if p.reachable then s
  else
    let p' := (List.range 5).foldl (fun p c => p.setChan c { p.chan c with owed := p.init }) { p with reachable := true }
    s.setPeer m p'

/-- Adopts a higher term: a planet, candidate or standby becomes a moon (R293). What was the planet knows none from then on, and its
changes that wait for a standby are gone, as where it steps down (log 79). -/
def State.adoptTerm (s : State) (term : Nat) : State :=
  if term > (s.rd R.ORB_TERM).toNat then
    let t := s.wr R.ORB_TERM (BitVec.ofNat 32 term)
    let u := if [roleCandidate, roleStandby, rolePlanet].contains s.role then t.put F.ORB_STAT_ROLE roleMoon else t
    if s.role = rolePlanet then
      { ((u.put F.ORB_PLANET_KNOWN 0).put F.ORB_PLANET_PLANET 0).put F.ORB_PLANET_NAMED 0 with
        orb.standbyDue := none
        orb.dirWait := [] }
    else u
  else s

/-- What a frame's header gives: `taken` says that the payload is to be acted on. -/
structure RxResult where
  st : State
  taken : Bool

/-- A control round trip to a peer ends: how long it took is a free value (log 4, R311). -/
def State.noteRtt (s : State) (m : Nat) : State :=
  let (f, t) := s.fresh
  t.setPeer m { t.peer m with rtt := f.toNat % 2 ^ 20 }

/-- A received frame's tag verifies under K1 of the slot that its peer names (R287). -/
def State.tagOk (s : State) (h : OrbHdr) (msg : OrbMsg) : Bool :=
  match s.slot (s.peer h.src.toNat).keySlot with
  | some k => OrbHdr.sealUnder h (toBytes 32 k.k1) msg == h.tag
  | none => false

/-- Takes a received frame on channel c (R282, R285 to R289, R292, R293). NAK and ACK_ONLY stand outside the sequence. A frame for another
moon, of which the rules say nothing, is discarded and counted as foreign (log 84). -/
def State.receive (s : State) (h : OrbHdr) (c : Nat) (msg : OrbMsg) : RxResult :=
  let m := h.src.toNat
  let link := h.port.val
  if !s.orbitRuns || !s.linkOk link then ⟨s, false⟩
  else if !OrbHdr.formOk h c msg then ⟨s.sat F.ORB_ERR_BAD_FRAME 1, false⟩
  else if m = s.ownMoon then ⟨(s.put F.ORB_ERR_DUP_MOON 1).post 0x08 0x02 m 0, false⟩
  else if !(s.peer m).member || h.dst.toNat != s.ownMoon || h.constId.toNat != s.get F.ORB_ID_CONST then
    ⟨s.satReg R.ORB_RX_FOREIGN 1, false⟩
  else if !s.tagOk h msg then
    let t := s.satReg (R.ORB_S_TAG_FAIL link) 1
    let due := match (s.peer m).tagEvent with
      | some at_ => decide (s.now ≥ at_ + 200000000)
      | none => true
    if due then ⟨(t.setPeer m { t.peer m with tagEvent := some s.now }).post 0x08 0x01 m 0, false⟩ else ⟨t, false⟩
  else
    let t := ((s.add64 (R.ORB_S_RX_LO link) 1).pmc 0x52 .orbit none none 1).wake [52]
    let t := t.setPeer m { t.peer m with lastHeard := s.now }
    let t := (t.peerUp m).adoptTerm h.term.toNat
    let p := t.peer m
    let ch := p.chan c
    let left := ch.unacked.filter (fun q => decide (h.ack.toNat < q.seq))
    let ch := { ch with
      unacked := left
      resends := if left.length < ch.unacked.length then 0 else ch.resends
      credits := ch.credits + h.credit.toNat }
    let t := if c = 0 ∧ left.length < (p.chan c).unacked.length then t.noteRtt m else t
    let p := t.peer m
    let t := (t.setPeer m (p.setChan c ch)).pump m c (ch.waiting.length + 1)
    if msg.free then ⟨t, true⟩
    else
      let p := t.peer m
      let ch := p.chan c
      let want := (ch.rxSeq + 1) % 2 ^ 48
      if h.seq.toNat = want then
        ⟨t.setPeer m (p.setChan c { ch with rxSeq := want }), true⟩
      else
        ⟨(t.satReg (R.ORB_S_NAK link) 1).sendFree m c (.nak want), false⟩

/-- Frees the buffer of a frame taken: its credits go back to the sender (R290). -/
def State.freeCredits (s : State) (m c : Nat) (msg : OrbMsg) : State :=
  let p := s.peer m
  let ch := p.chan c
  s.setPeer m (p.setChan c { ch with owed := ch.owed + msg.credits })

/-! ### A new pair key (R288) -/

/-- A channel whose SEQ and ACK state starts anew: its frames that are not acknowledged yet take the first SEQs (log 79). -/
def ChanSt.rekeyed (ch : ChanSt) : ChanSt :=
  { ch with
    txSeq := ch.unacked.length
    unacked := (List.range ch.unacked.length).zip ch.unacked |>.map (fun q => { q.2 with seq := q.1 + 1 })
    rxSeq := 0
    resends := 0 }

/-- A new import into a pair key slot: NCTR and every SEQ and ACK of the peers that it serves start at 0 (R288). -/
def State.rekeyPeers (s : State) (slot : Nat) : State :=
  ((s.orb.peers.filter (fun p => p.2.keySlot == slot)).map (·.1)).foldl (fun s m =>
    let p := s.peer m
    s.setPeer m { p with
      nctr := 0
      seqWarn := false
      chans := mapFilter (fun _ c => c != chanInit) (p.chans.map (fun c => (c.1, c.2.rekeyed))) }) s

/-! ### Reflection (R298, R300) -/

/-- Counts of reflecting and broken regions and of dirty units, as the registers show them (R311). -/
def State.showRefl (s : State) : State :=
  let refl := s.rgn.descs.countP (fun p => dValid p.2 && dRole p.2 == 1 && !dBroken p.2)
  let broken := s.rgn.descs.countP (fun p => dValid p.2 && (dRole p.2 == 1 || dRole p.2 == 4) && dBroken p.2)
  let dirty := s.rgn.dirtyMap.foldl (fun n p => n + p.2.length) 0
  ((s.put F.ORB_REFL_STAT_REFLECTING refl).put F.ORB_REFL_STAT_BROKEN (min broken 16383)).put F.ORB_REFL_DIRTY_dirty dirty

/-- Marks the 16 MiB unit of a line in its region's dirty map (R300). -/
def State.markDirty (s : State) (d : BitVec 512) (r line : Nat) : State :=
  let u := regionLine d line / 65536
  let l := (mapGet? s.rgn.dirtyMap r).getD []
  State.showRefl { s with rgn.dirtyMap := mapPut s.rgn.dirtyMap r (if l.contains u then l else l ++ [u]) }

/-- A migration engine runs on the region with this MODE. -/
def State.migRuns (s : State) (r mode : Nat) : Option Nat :=
  [0, 1].find? (fun m => (s.get (F.ORB_MIG_STAT_STATE m) == 1 || s.get (F.ORB_MIG_STAT_STATE m) == 2) &&
    s.get (F.ORB_MIG_CTL_REGION m) == r && s.get (F.ORB_MIG_CTL_MODE m) == mode)

/-- What a write to a line of region r does over Orbit, by its descriptor (R17, R298, R300, R301, R303). -/
inductive ReflKind where
  | here | mark | reflect
deriving DecidableEq, Repr

def State.reflKind (s : State) (d : BitVec 512) (r line : Nat) : ReflKind :=
  let rl := regionLine d line
  if dRole d = 1 then
    if !dBroken d then .reflect
    else if (s.migRuns r 2).isSome &&
        (decide (rl / 256 < dOrbBound d) || !((mapGet? s.rgn.dirtyMap r).getD []).contains (rl / 65536)) then .reflect
    else .mark
  else if dRole d = 4 then
    if dBroken d then .mark else if decide (rl / 256 < dOrbBound d) then .reflect else .here
  else .here

/-- Sends the RWRITE of a placed line and returns its RSEQ (R298, R299); `owner` is completed by its RACK. -/
def State.reflectLine (s : State) (d : BitVec 512) (r line owner : Nat) (l : LineImg) : Word × State :=
  let seq := (mapGet? s.rgn.rseq r).getD 0
  let t : State := { s with
    rgn.rseq := mapPut s.rgn.rseq r (seq + 1)
    orb.refl := s.orb.refl ++ [⟨dPeer d, r, seq, line, s.now, owner⟩] }
  (seq, t.sendMsg (dPeer d) (.rwrite seq (dPeerRegion d) (regionLine d line) ⟨l.data, l.cc, l.poison⟩))

end Sys2Proof.Machine
end

