-- ==== Sys2Proof/Machine/EngCore.lean ====
section
/-! DEFINITION. What the data plane and the engines share: accesses and their originators, the engine's context and
queue loop (R214 to R223), exceptions (R229), the store buffer and the ordering of memory operations (R240 to R252), and
the cluster cache's hits (R256, R257). -/

namespace Sys2Proof.Machine

/-! ### Accesses -/

/-- A request takes its place among the accesses in flight, and the wake of every sleeping domain it depends on begins (R31). -/
def State.newAccess (s : State) (a : Access) : State :=
  let t : State := { s with
    accesses := s.accesses ++ [{ a with
      id := s.adm.nextId
      born := s.now }]
    adm.nextId := s.adm.nextId + 1 }
  t.wake (t.accessDomains (lineOf a.dpa))

/-- The originator of an access, for the counters (R118). -/
def Access.orig (a : Access) : Orig :=
  match a.own with
  | .host => .host a.port.val
  | .engine e _ => .cluster (e / 8)
  | .device e _ => .cluster (e / 8)
  | .ring e => .cluster (e / 8)
  | .fill k => .cluster k
  | .remote _ _ => .orbit

/-- Where an access queues: a port, a cluster in a port's place, or Orbit (R113, R214). -/
def Access.src (a : Access) : Nat := a.orig.bit

/-- Advances a counter of the access's host port; an engine has none (R68). -/
def State.portCount (s : State) (a : Access) (i k : Nat) : State :=
  match a.own with
  | .host => s.hpCount a.port i k
  | _ => s

/-- Media lost: reads poisoned, writes completed unstored, until a format (R159). -/
def State.mediaLost (s : State) : Bool := s.get F.MAP_STAT_FMT == 3

/-! ### Engines and their contexts (R214, R215, R219) -/

def gate0 : MemGate := ⟨0, 0, 0, 0⟩

def engInit : EngSt where
  x := []
  pc := 0
  phase := .off
  prog := 0
  prod := 0
  ring := none
  ringDesc := 0
  bell := false
  code := 0
  ret := 0
  cycles := 0
  wrFailed := false
  ops := []
  nextTag := 0
  ldGate := gate0
  stGate := gate0
  leaving := false
  dbg := false
  dbgLost := none
  evtAt := none

def State.eng (s : State) (e : Nat) : EngSt := mapGet (fun _ => engInit) s.clu.engs e

def State.setEng (s : State) (e : Nat) (g : EngSt) : State :=
  { s with clu.engs := mapSet (fun _ => engInit) s.clu.engs e g }

/-- x0 reads 0 (R224). -/
def EngSt.get (g : EngSt) (r : Nat) : Xlen := if r = 0 then 0 else mapGet (fun _ => 0) g.x r

/-- A write of x0 is ignored (R224). -/
def EngSt.set (g : EngSt) (r : Nat) (v : Xlen) : EngSt :=
  if r = 0 then g else { g with x := mapSet (fun _ => 0) g.x r v }

def State.engBound (s : State) (e : Nat) : Bool := s.flag (F.ENGE_CTX_BIND e)
def State.engRegion (s : State) (e : Nat) : Nat := s.get (F.ENGE_CTX_REGION e)
def State.engDesc (s : State) (e : Nat) : BitVec 512 := s.desc (s.engRegion e)
def State.devRegion (s : State) (e : Nat) : Nat := s.get (F.ENGE_DEV_DEV_REGION e)

/-- The key ID of an engine's home accesses (R217). -/
def State.engKey (s : State) (e : Nat) : KeyId :=
  BitVec.ofNat 14 (dKey (s.engDesc e) + (if dKeySrc (s.engDesc e) then s.get (F.ENGE_CTX_KALIAS e) else 0))

/-- The offset Q of an engine's ring (R221). -/
def State.ringOff (s : State) (e : Nat) : Nat := (s.rd (R.ENGE_QBASE e)).toNat * 4096

/-- log2 of the ring's entries. -/
def State.ringLog (s : State) (e : Nat) : Nat := s.get (F.ENGE_QCFG_QSIZE_LOG2 e)

/-- The ring lies inside a region of so many bytes (R219, R220). -/
def State.ringFits (s : State) (e : Nat) (d : BitVec 512) : Bool :=
  decide (s.ringOff e + 256 + 2 ^ s.ringLog e * 64 ≤ dSize d * 2 ^ 24)

/-- A Device-type region that engines may reach (R215, R219). -/
def devOk (d : BitVec 512) : Bool := dValid d && dType d == 1 && dEngEn d

/-- The binding still stands under the descriptors in force (R220). -/
def State.ctxOk (s : State) (e : Nat) : Bool :=
  let d := s.engDesc e
  dValid d && dType d == 0 && dEngEn d && s.ringFits e d &&
  (!s.flag (F.ENGE_DEV_EN e) || devOk (s.desc (s.devRegion e)))

/-- SP_WAYS as it acts (R264). -/
def State.spWays (s : State) (k : Nat) : Nat := min 14 (s.get (F.ENG_CC_CFG_SP_WAYS k))

/-- Bytes of an engine's scratchpad slice (R263). -/
def State.padSize (s : State) (e : Nat) : Nat := s.spWays (e / 8) * 32768

/-- Zeroes scratchpad slices that `p` names. -/
def State.zeroPads (s : State) (p : Nat → Bool) : State :=
  { s with clu.pads := mapFilter (fun a _ => !p (a / 2 ^ 19)) s.clu.pads }

/-! ### Engine addresses (R215, R216) -/

/-- What an engine address reaches. -/
inductive EaRes where
  | home (off : Nat)
  | dev (off : Nat)
  | pad (off : Nat)
  | bad (code : Nat)
deriving DecidableEq, Repr

/-- Resolves an engine address for an access of `width` bytes, checking in the order of R216's table. -/
def State.eaOf (s : State) (e ea width : Nat) (atomic : Bool) : EaRes :=
  let w := ea / 2 ^ 44 % 16
  let off := ea % 2 ^ 44
  let size := if w = 0 then dSize (s.engDesc e) * 2 ^ 24 else if w = 1 then dSize (s.desc (s.devRegion e)) * 2 ^ 24
    else s.padSize e
  if (w ≠ 0 ∧ w ≠ 1 ∧ w ≠ 15) ∨ (w = 1 ∧ s.flag (F.ENGE_DEV_EN e) = false) then .bad 0x07
  else if ea % width ≠ 0 then .bad 0x05
  else if off + width > size then .bad 0x06
  else if atomic ∧ w ≠ 0 then .bad 0x0E
  else if w = 0 then .home off else if w = 1 then .dev off else .pad off

/-! ### Memory operations (R240) -/

/-- The region that an engine's access reaches, with the descriptor in force, under which it is decoded now (R17, R217). -/
def State.decodes (s : State) (e : Nat) (dev : Bool) : Nat × BitVec 512 :=
  let r := if dev then s.devRegion e else s.engRegion e
  (r, s.desc r)

/-- The binding no longer stands, and an access to the home or the device window is to decode (R220). -/
def State.withdrawn (s : State) (e ea : Nat) : Bool := !s.ctxOk e && decide (ea / 2 ^ 44 % 16 ≤ 1)

/-- The operation is an acquire load (R246). -/
def MemOp.acquires (o : MemOp) : Bool := match o.kind with | .load _ _ _ acq => acq | _ => false

/-- The operations that an engine waits for: those of a program that a cluster reset ended are none of its own (R237). -/
def EngSt.mine (g : EngSt) : List MemOp := g.ops.filter (fun o => !o.left)

def MemOp.isLoad (o : MemOp) : Bool := match o.kind with | .load .. => true | .amo .. => true | .debug => true | _ => false
def MemOp.isStore (o : MemOp) : Bool := match o.kind with | .load .. => false | .debug => false | _ => true

/-! ### What an engine shows (R239) -/

/-- ENG_CLk_CTL.STOP of an engine's cluster. -/
def State.engStopped (s : State) (e : Nat) : Bool := s.flag (F.ENG_CL_CTL_STOP (e / 8))

/-- ENGe_STAT.STATE (R239). -/
def State.engState (s : State) (e : Nat) : Nat :=
  let g := s.eng e
  if !s.engBound e then 0
  else if g.dbg then 7
  else match g.phase with
    | .off => 0
    | .stopped => 6
    | .queueErr => 5
    | .keyCons | .keyProd | .keyDesc => 3
    | .running | .readDesc | .completing => 2
    | .ended => if s.service = svReadOnly then 4 else 2
    | .held => if s.engStopped e then 6 else if s.service = svReadOnly then 4 else 1
    | .readCons | .readProd | .idle | .badCons => if s.engStopped e then 6 else 1

def State.engRunning (s : State) (e : Nat) : Bool := s.engState e == 2

/-- Shows an engine's state and the counts of engines bound and running (R239). -/
def State.showEng (s : State) (e : Nat) : State :=
  let t := s.put (F.ENGE_STAT_STATE e) (s.engState e)
  let k := e / 8
  let mine := (List.range 8).map (8 * k + ·)
  let t := (t.put (F.ENG_CL_STAT_BOUND k) (mine.countP t.engBound)).put (F.ENG_CL_STAT_RUNNING k) (mine.countP t.engRunning)
  let t := t.put F.MODE_DEBUG_ENGINES ((List.range 32).countP (fun i => (t.eng i).dbg))
  (t.put F.ENG_STAT_BOUND ((List.range 32).countP t.engBound)).put F.ENG_STAT_RUNNING ((List.range 32).countP t.engRunning)

def State.setPhase (s : State) (e : Nat) (p : EngPhase) : State := (s.setEng e { s.eng e with phase := p }).showEng e

/-- The engine begins to wait for its key, which it checks every 1 ms (R229). -/
def State.awaitKey (s : State) (e : Nat) (p : EngPhase) : State := (s.setPhase e p).mark (200 + e)

/-! ### Exceptions (R229, R230) -/

/-- ENGe_FAULT_ADDR takes an address and code. -/
def State.noteFault (s : State) (e code addr : Nat) : State :=
  (((s.wr (R.ENGE_FAULT_ADDR_LO e) (BitVec.ofNat 32 addr)).put (F.ENGE_FAULT_ADDR_HI_ADDR e) (addr / 2 ^ 32)).put
    (F.ENGE_FAULT_ADDR_HI_CODE e) code).put (F.ENGE_FAULT_ADDR_HI_VALID e) 1

/-- The engine fault event, at most one per engine and second (R229). -/
def State.faultEvent (s : State) (e code addr : Nat) : State :=
  let g := s.eng e
  let due := match g.evtAt with
    | some was => decide (s.now ≥ was + 200000000)
    | none => true
  if s.flag F.ENG_CFG_FAULT_EVT && due then
    (s.setEng e { g with evtAt := some s.now }).post 0x0D 0x01 (e + 2 ^ 16 * (addr % 2 ^ 48)) code
  else s

/-! ### Timers of device accesses (R252) -/

/-- ENG_BARRIER_TMO in cycles of 5 ns (R267). -/
def State.tmoCycles (s : State) : Nat := 200 * max 1 (min 1000000 (s.get F.ENG_BARRIER_TMO_US))

/-- Something waits on a device store (R252): a barrier, a release, a full buffer or the end of the descriptor. -/
def EngSt.waitsOn (g : EngSt) (o : MemOp) : Bool :=
  !o.left && (g.phase == .ended || g.stall || decide (o.tag < g.ldGate.stores) || decide (o.tag < g.ldGate.dev) ||
  decide (o.tag < g.stGate.stores) || decide (o.tag < g.stGate.dev) ||
  (o.stage == .held && decide (o.tag < g.ldGate.issued)) || g.ops.any (fun p => p.isStore && decide (o.tag < p.gate.stores)))

/-- The timer of each device store that something waits on runs, until cycle `due`; one that runs already is never restarted (R252,
R253). -/
def EngSt.timed (g : EngSt) (due : Nat) : EngSt :=
  { g with ops := g.ops.map (fun o =>
    if o.dev && o.isStore && o.due.isNone && g.waitsOn o then { o with due := some due } else o) }

/-- The timer of each device store of engine e that something now waits on starts. -/
def State.startTimers (s : State) (e : Nat) : State := s.setEng e ((s.eng e).timed (s.now + s.tmoCycles))

/-- A timer has run out. -/
def State.ranOut (s : State) (o : MemOp) : Bool :=
  match o.due with
  | some t => decide (t ≤ s.now)
  | none => false

/-- An exception ends the descriptor in hand; one that has reached DONE still takes the first that its barrier
finds (R229, R252, R253). RET is then a free value: no rule gives one (log 35). -/
def State.engFault (s : State) (e code addr : Nat) (evt : Bool) : State :=
  let g := s.eng e
  if g.phase = .running ∨ (g.phase = .ended ∧ g.code = 0) then
    let (f, t) := s.fresh
    let t := t.setEng e { g with
      phase := .ended
      code := code
      ret := f.extractLsb' 0 64 }
    let t := (t.noteFault e code addr).put (F.ENGE_STAT_LAST_CODE e) code
    ((if evt then t.faultEvent e code addr else t).startTimers e).showEng e
  else s

/-- An engine with nothing in hand; its places in program order go on, so that none names an access of what it ran before. Device
stores admitted before a reset go on to their targets (R237). -/
def EngSt.fresh (g : EngSt) : EngSt := { engInit with
  evtAt := g.evtAt
  nextTag := g.nextTag
  ops := g.ops.filter (·.left) }

/-- Device stores that have been admitted no longer belong to the engine (R237). -/
def EngSt.abandon (g : EngSt) : EngSt := { g with ops := g.ops.map (fun o =>
  if o.dev && o.isStore && o.stage == .sent then { o with
    left := true
    due := none } else o) }

/-- Charges the cycles of the descriptor in hand that its region and the counters have not been charged yet (R119, R235). -/
def State.chargeCycles (s : State) (e : Nat) : State :=
  let g := s.eng e
  if g.cycles ≤ g.charged then s
  else
    let t := s.setEng e { g with charged := g.cycles }
    (t.meter (s.engRegion e) g.ringDesc .engCycles (g.cycles - g.charged)).pmc 0x48 (.cluster (e / 8)) (some (dClass g.ringDesc)) none
      (g.cycles - g.charged)

/-- The same for every engine. -/
def State.chargeAll (s : State) : State := (s.clu.engs.map (·.1)).foldl (fun s e => s.chargeCycles e) s

/-- The engine leaves its context: its slice is zeroed and nothing is in hand (R220, R263). -/
def State.engLeave (s : State) (e : Nat) : State :=
  let s := s.chargeCycles e
  let t : State := { s.setEng e (s.eng e).fresh with
    accesses := s.accesses.filter (fun a => match a.own with
      | .ring f => f != e
      | .engine f _ => f != e
      | .device f _ => f != e
      | _ => true) }
  ((t.zeroPads (· == e)).put (F.ENGE_CTX_BIND e) 0).showEng e

/-- A descriptor is in hand. -/
def EngSt.inHand (g : EngSt) : Bool :=
  match g.phase with
  | .running | .ended | .completing => true
  | _ => false

/-- The context is withdrawn (R220): the descriptor in hand ends with 0x0D, and the engine unbinds after its
completion. -/
def State.engWithdraw (s : State) (e : Nat) : State :=
  let g := s.eng e
  if g.inHand then (s.setEng e { g with leaving := true }).engFault e 0x0D g.pc false else s.engLeave e

/-! ### Reads and writes at the data plane (R217) -/

/-- An access of an engine as it joins its class queue: by its originator, its region and descriptor, offset and key (R17, R217). -/
def engReq (own : AccOwner) (write : Bool) (rd : Nat × BitVec 512) (key : KeyId) (off : Nat) (data : HostLine) (be : BitVec 64)
    (amo : Option AmoReq) : Access :=
  { id := 0, own := own, port := 0, write := write, dpa := dBase rd.2 * 2 ^ 24 + off / 64 * 64, region := rd.1,
    desc := rd.2, key := key, data := data, be := be, cc := if write then carryCheck data else 0, stage := .waiting,
    order := 0, material := ⟨key, none⟩, amo := amo, poisonAll := false, silent := false, born := 0 }

/-- A cluster's class queues hold 512 entries in all (R214). -/
def State.clusterFull (s : State) (k : Nat) : Bool :=
  decide (512 ≤ s.accesses.countP (fun a => a.stage == .waiting && a.orig.bit == (Orig.cluster k).bit))

/-- A read of the queue loop: it returns to DESCRIPTOR_TAKE (R223). With the class queues full it is sent when that command comes
(R214). -/
def State.ringRead (s : State) (e off : Nat) (p : EngPhase) : State :=
  if !s.ctxOk e then s.engWithdraw e
  else
    let g := s.eng e
    let t := (s.setEng e { g with
      phase := p
      ring := none
      ringDesc := s.engDesc e }).showEng e
    if s.mediaLost then t.setEng e { t.eng e with ring := some (.data 0 true) }
    else if (s.slot (s.engKey e).toNat).isNone then t.setEng e { t.eng e with ring := some .noKey }
    else if s.clusterFull (e / 8) then t
    else t.newAccess (engReq (.ring e) false (s.decodes e false) (s.engKey e) off 0 0 none)

def State.readProd (s : State) (e : Nat) : State :=
  (s.setEng e { s.eng e with bell := false }).ringRead e (s.ringOff e) .readProd

/-- Service, ENG_CFG.EN and STOP let an engine take a descriptor (R220, R238, R239). -/
def State.mayTake (s : State) (e : Nat) : Bool :=
  s.flag F.ENG_CFG_EN && !s.engStopped e && !s.halted && (s.service == svNormal || s.service == svDegraded)

def State.engCons (s : State) (e : Nat) : Word := s.rd (R.ENGE_CONS e)

/-- The offset of the entry that CONS names (R221). -/
def State.entryOff (s : State) (e : Nat) : Nat :=
  s.ringOff e + 256 + (s.engCons e).toNat % 2 ^ s.ringLog e * 64

/-- The head of the queue loop (R223): PROD is read again after a doorbell; a queue too long stops; an empty one waits;
else the descriptor is read, unless the engine is held from taking it. -/
def State.engNext (s : State) (e : Nat) : State :=
  let g := s.eng e
  let ahead := (g.prod - s.engCons e).toNat
  if g.bell then s.readProd e
  else if ahead > 2 ^ s.ringLog e then s.setPhase e .queueErr
  else if ahead = 0 then s.setPhase e .idle
  else if s.mayTake e then s.ringRead e (s.entryOff e) .readDesc
  else s.setPhase e .held

/-! ### The store buffer and the order of memory operations (R242 to R252) -/


/-- The width of a load. -/
def MemOp.width (o : MemOp) : Option Nat := match o.kind with | .load w .. => some w | .debug => some 8 | _ => none

/-- A load is performed when its value is fixed (R240). -/
def MemOp.performed (o : MemOp) : Bool :=
  match o.stage with
  | .back _ => true
  | .done _ => true
  | _ => false

/-- The operations in hand no longer keep a gate shut. -/
def gateOpen (ops : List MemOp) (g : MemGate) : Bool :=
  ops.all (fun o =>
    (!o.isLoad || o.performed || decide (g.loads ≤ o.tag)) &&
    (!o.isStore || ((o.stage != .held || decide (g.issued ≤ o.tag)) && decide (g.stores ≤ o.tag) &&
      (!o.dev || decide (g.dev ≤ o.tag)))))

/-- The tighter of two gates. -/
def MemGate.join (a b : MemGate) : MemGate :=
  ⟨max a.loads b.loads, max a.issued b.issued, max a.stores b.stores, max a.dev b.dev⟩

def State.setOp (s : State) (e : Nat) (o : MemOp) : State :=
  let g := s.eng e
  s.setEng e { g with ops := g.ops.map (fun p => if p.tag = o.tag then o else p) }

/-- An operation leaves; with a store a full buffer has an entry again (R242). -/
def State.dropOp (s : State) (e tag : Nat) : State :=
  let g := s.eng e
  s.setEng e { g with
    ops := g.ops.filter (fun p => p.tag != tag)
    stall := g.stall && !g.ops.any (fun p => p.tag == tag && p.isStore) }

def State.opOf (s : State) (e tag : Nat) : Option MemOp := (s.eng e).ops.find? (fun o => o.tag == tag)

/-- Bytes of a load within its host line. -/
def loadBytes (ea width : Nat) : List Nat := (List.range width).map (ea % 64 + ·)

/-- The value of a load of `width` bytes at `off` within a host line (R227). -/
def loadValue (h : HostLine) (off width : Nat) (sgn : Bool) : Xlen :=
  let v := h.toNat / 2 ^ (8 * off) % 2 ^ (8 * width)
  if sgn && v.testBit (8 * width - 1) then BitVec.ofNat 64 (v + 2 ^ 64 - 2 ^ (8 * width)) else BitVec.ofNat 64 v

/-- The registers of a load take their bytes of a host line: LDV fills eight (R227). -/
def EngSt.loaded (g : EngSt) (width : Nat) (sgn : Bool) (rd off : Nat) (h : HostLine) : EngSt :=
  if width = 64 then (List.range 8).foldl (fun g i => g.set (rd + i) (loadValue h (8 * i) 8 false)) g
  else g.set rd (loadValue h off width sgn)

/-- The host line of a load arrives in its registers, and the load leaves (R227). -/
def State.deliver (s : State) (e : Nat) (o : MemOp) (h : HostLine) : State :=
  let g := (s.dropOp e o.tag).eng e
  match o.kind with
  | .load width sgn rd _ => s.setEng e (g.loaded width sgn rd (o.ea % 64) h)
  | .debug => (s.dropOp e o.tag).say (.debug (loadValue h (o.ea % 64) 8 false) false)
  | _ => s

/-- The youngest store-buffer entry, of those older than a load, that writes byte i of its host line (R244). -/
def youngest (ops : List MemOp) (o : MemOp) (i : Nat) : Option MemOp :=
  (ops.filter (fun p => p.isStore && !p.dev && decide (p.tag < o.tag) && p.ea / 64 == o.ea / 64 && p.be.getLsbD i)).getLast?

/-- The bytes of a load that the store buffer gives: none of them, all of them, or only some or some not yet known. -/
inductive Forward where
  | none
  | all (h : HostLine)
  | wait

def forward (ops : List MemOp) (o : MemOp) (width : Nat) : Forward :=
  let got := (loadBytes o.ea width).map (fun i => (i, youngest ops o i))
  if got.all (fun p => p.2.isNone) then .none
  else if got.all (fun p => match p.2 with
      | some q => q.kind == .store
      | none => false) then
    .all (BitVec.ofNat 512 (got.foldl (fun v p => match p.2 with
      | some q => v + (byteAt q.data p.1).toNat * 2 ^ (8 * p.1)
      | none => v) 0))
  else .wait

/-! ### The cluster cache (R255 to R260) -/

/-- The locations of a host line's set in cluster k, cache ways only. -/
def State.ccLocs (s : State) (k hl : Nat) : List Nat :=
  (List.range (16 - s.spWays k)).map (fun w => k * 65536 + hl % 4096 * 16 + w)

/-- The location that holds a host line under a key ID (R256). -/
def State.ccHit (s : State) (k hl : Nat) (key : KeyId) : Option (Nat × CcLine) :=
  (s.ccLocs k hl).findSome? (fun loc => match mapGet? s.clu.lines loc with
    | some c => if c.hl = hl ∧ c.key = key then some (loc, c) else none
    | none => none)

def State.ccLocked (s : State) (loc : Nat) : Bool := (s.rd (R.ENG_CC_LOCK (loc / 65536))).getLsbD (loc % 16)

/-- Makes a location the most recent. -/
def State.ccTouch (s : State) (loc : Nat) : State :=
  { s with clu.use := loc :: s.clu.use.filter (· != loc) }

/-- Puts a line into a location. -/
def State.ccPut (s : State) (loc : Nat) (c : CcLine) : State :=
  State.ccTouch { s with clu.lines := mapPut s.clu.lines loc c } loc

/-- Installs a miss: the lowest empty unlocked way, else the least recently used unlocked way, else nowhere (R260). -/
def State.ccInstall (s : State) (k hl : Nat) (key : KeyId) (h : HostLine) : State :=
  let free := (s.ccLocs k hl).filter (fun l => !s.ccLocked l)
  match free.find? (fun l => (mapGet? s.clu.lines l).isNone) with
  | some l => s.ccPut l ⟨hl, key, h⟩
  | none =>
    match s.clu.use.reverse.find? (free.contains ·) with
    | some l => s.ccPut l ⟨hl, key, h⟩
    | none => s

/-! ### Device targets (R215, R272, R305) -/

def queueInit : QueueSt where
  cfg := 0
  bind := 0
  dest := 0
  base := 0
  st := 0
  code := 0
  headPart := false
  inPkt := false
  dropping := false
  epoch := 0
  credit := 0
  lost := 0
  dropped := 0
  idle := 0
  enq := 0
  deq := 0
  items := []
  waiting := []

def State.queue (s : State) (q : Nat) : QueueSt := mapGet (fun _ => queueInit) s.stq q
def State.setQueue (s : State) (q : Nat) (v : QueueSt) : State := { s with stq := mapSet (fun _ => queueInit) s.stq q v }

/-- A queue is enabled, waiting for a grant or not. -/
def QueueSt.on (q : QueueSt) : Bool := q.st == 1 || q.st == 2

/-- The enabled queue bound to a page of a Device-type region's window (R272). -/
def State.queueAt (s : State) (region off : Nat) : Option Nat :=
  (s.stq.find? (fun p => p.2.on && p.2.bind.toNat % 2 ^ 18 == region && p.2.bind.toNat / 2 ^ 18 % 2 ^ 12 == off / 4096)).map (·.1)

/-- Sends a remote access on channel 4, once (R305). -/
def State.sendRemote (s : State) (e : Nat) (o : MemOp) : State :=
  let r := o.region
  let d := o.desc
  let tag := BitVec.ofNat 32 s.orb.nextTag
  let t : State := { s with
    orb.nextTag := (s.orb.nextTag + 1) % 2 ^ 32
    orb.remote := s.orb.remote ++ [⟨tag, dPeer d, o.isStore, e, o.tag⟩] }
  let off := o.ea % 2 ^ 44 / 64 * 64
  t.sendMsg (dPeer d) (if o.isStore then .rstore tag (dPeerRegion d) off o.be o.data r
    else .rread tag (dPeerRegion d) off o.be r)

/-! ### Sending memory operations -/


/-- The atomic that an operation asks of the data plane. -/
def MemOp.amo (o : MemOp) : Option AmoReq :=
  match o.kind with
  | .amo op cmp src _ => some ⟨op, cmp, src, o.ea % 64⟩
  | _ => none

/-- What the codes of cluster k find at a hit on location `loc` (R261): whether the line can be used, and the counts. -/
def State.ccEcc (s : State) (k loc : Nat) (ecc : CellErr) : Bool × State :=
  match ecc with
  | .none => (true, s)
  | .corrected => (true, s.sat (F.ENG_CC_ERR_ECC_COR k) 1)
  | .uncorrectable => (false, (s.sat (F.ENG_CC_ERR_ECC_UNC k) 1).ccDrop loc)
  | .tagParity => (false, (s.sat (F.ENG_CC_ERR_TAG_PAR k) 1).ccDrop loc)

/-- A load that misses joins its class queue; with the queues full it waits (R214, R257). -/
def State.missHome (s : State) (e : Nat) (o : MemOp) : State :=
  let k := e / 8
  let t := s.add64 (R.ENG_CC_MISS_LO k) 1
  let o := { o with
    drop := false
    ecc := .none }
  if s.clusterFull k then s.setOp e o
  else if t.mediaLost then t.setOp e { o with stage := .back (.data 0 true) }
  else if (t.slot o.key.toNat).isNone then t.setOp e { o with stage := .back .noKey }
  else (t.setOp e { o with stage := .sent }).newAccess
    (engReq (.engine e o.tag) false (o.region, o.desc) o.key (o.ea % 2 ^ 44) 0 0 none)

/-- A load of the home window reads its source: the cluster cache when it hits a line whose codes are right, else the data plane
(R244, R257, R261). -/
def State.readHome (s : State) (e : Nat) (o : MemOp) : State :=
  let k := e / 8
  match (if s.flag (F.ENG_CC_CFG_BYPASS k) then none else s.ccHit k o.hl o.key) with
  | some (loc, c) =>
    match s.ccEcc k loc o.ecc with
    | (true, t) => ((t.add64 (R.ENG_CC_HIT_LO k) 1).ccTouch loc).deliver e o c.data
    | (false, t) => t.missHome e o
  | none => s.missHome e o

/-- A write of the queue loop: the completion, or CONS (R223). -/
def MemOp.ofRing (o : MemOp) : Bool := match o.kind with | .completion => true | .cons => true | _ => false

/-- A store issues: every copy of its media line in its own cluster goes, and fills of that line in flight are not installed (R257,
R259). -/
def State.dropOwn (s : State) (k line : Nat) : State :=
  let t := s.ccDropAll (fun loc c => loc / 65536 == k && c.hl / 4 == line)
  { t with clu.engs := t.clu.engs.map (fun q => if q.1 / 8 == k then (q.1, { q.2 with
      ops := q.2.ops.map (fun p => if p.fillOf line then { p with drop := true } else p) }) else q) }

/-- A ring write whose line its descriptor no longer resolves is completed unstored (R53, R220). -/
def State.ringResolves (s : State) (o : MemOp) : Bool :=
  dValid o.desc && dType o.desc == 0 && decide (o.ea % 2 ^ 44 / 64 * 64 + 64 ≤ dSize o.desc * 2 ^ 24) &&
  decide ((dBase o.desc * 2 ^ 24 + o.ea % 2 ^ 44) / 65536 < s.get F.MAP_USER_TILES_user)

/-- A store issues to the data plane (R217, R257); the queue loop's writes bypass the cluster cache (R223). With the media lost an
atomic reads poison, and a write is completed unstored (R159, R229). -/
def State.issueHome (s : State) (e : Nat) (o : MemOp) : State :=
  let t := if o.ofRing then s else s.dropOwn (e / 8) (o.hl / 4)
  if t.mediaLost && o.amo.isSome then
    (((t.meter o.region o.desc .bytesRd 64).meter o.region o.desc .rdPoison 1).dropOp e o.tag).engFault e 0x08 o.ea false
  else if t.mediaLost || (o.ofRing && !t.ringResolves o) then
    (t.meter o.region o.desc .wrFail 1).setOp e { o with stage := .done false }
  else if (t.slot o.key.toNat).isNone then (t.dropOp e o.tag).engFault e 0x0A o.ea true
  else (t.setOp e { o with stage := .sent }).newAccess
    (engReq (.engine e o.tag) true (o.region, o.desc) o.key (o.ea % 2 ^ 44) o.data o.be o.amo)

/-- A device access issues: it joins the class queue of the device window's region, once and as it is (R113, R214, R217, R251). -/
def State.queueDevice (s : State) (e : Nat) (o : MemOp) : State :=
  if s.clusterFull (e / 8) then s
  else (s.setOp e { o with stage := .queued }).newAccess
    (engReq (.device e o.tag) o.isStore (o.region, o.desc) o.key (o.ea % 2 ^ 44) o.data o.be none)

/-- An admitted device access is sent to its target (R251, R305); a load's timer starts (R252). -/
def State.sendDevice (s : State) (e tag : Nat) : State :=
  match s.opOf e tag with
  | some o =>
    let o := { o with
      stage := .sent
      due := if o.isStore then o.due else some (s.now + s.tmoCycles) }
    if dRole o.desc = 6 then (s.setOp e o).sendRemote e o else s.setOp e o
  | none => s

/-- Tries one held operation (R242 to R247, R250, R251). In Read-only the queue loop's writes are held (R238). -/
def State.tryOp (s : State) (e tag : Nat) : State :=
  match s.opOf e tag with
  | none => s
  | some o =>
    let ops := (s.eng e).mine
    let older := ops.filter (fun p => decide (p.tag < tag))
    if o.stage ≠ .held ∨ gateOpen ops o.gate = false ∨ older.any (fun p => p.acquires && !p.performed) = true then s
    else if o.ofRing && s.service == svReadOnly then s
    else match o.width with
      | some width =>
        if o.dev then
          (if older.all (fun p => !p.dev || (p.isLoad && !p.isStore && p.performed)) then s.queueDevice e o else s)
        else if older.any (fun p => p.isLoad && !p.dev && !p.performed && p.ea / 64 == o.ea / 64) then s
        else match forward ops o width with
          | .none => s.readHome e o
          | .all h => s.deliver e o h
          | .wait => s
      | none =>
        if older.any (fun p => p.isStore && p.stage == .held) then s
        else if older.any (fun p => p.isLoad && !p.isStore && !p.performed && p.dev == o.dev && p.ea / 64 == o.ea / 64) then s
        else if o.dev then s.queueDevice e o
        else if s.clusterFull (e / 8) then s
        else s.issueHome e o

/-- Every held operation is tried, in program order, and the timers that now run start. -/
def State.settle (s : State) (e : Nat) : State :=
  (((s.eng e).ops.map (·.tag)).foldl (fun s tag => s.tryOp e tag) s).startTimers e

/-! ### What the data plane gives back -/

/-- The data of an engine's read is fixed: the load is performed, or the queue loop's read has returned. -/
def State.engRead (s : State) (own : AccOwner) (r : FillRes) : State :=
  match own with
  | .engine e tag | .device e tag =>
    match s.opOf e tag with
    | some o => (s.setOp e { o with stage := .back r }).settle e
    | none => s
  | .ring e => s.setEng e { s.eng e with ring := some r }
  | .fill _ => { s with clu.maint := s.clu.maint.map (fun m => { m with hand := .back r }) }
  | _ => s

/-- A store of an engine is complete (R240): 64 bytes are metered when it was stored, else a failed write (R235). Its engine may have
been stopped or reset since (R237, R238). -/
def State.engWritten (s : State) (a : Access) (stored : Bool) : State :=
  match a.own with
  | .engine e tag | .device e tag =>
    let t := if stored then s.meter a.region a.desc .bytesWr 64 else s.meter a.region a.desc .wrFail 1
    match t.opOf e tag with
    | some o => t.setOp e { o with stage := .done stored }
    | none => t
  | _ => s

/-- A write of an engine met an empty key slot: neither performed nor completed (R22, R229). -/
def State.engNoKey (s : State) (own : AccOwner) : State :=
  match own with
  | .engine e tag =>
    match s.opOf e tag with
    | some o => ((s.dropOp e tag).engFault e 0x0A o.ea true).settle e
    | none => s
  | _ => s

/-- A read-modify-write has read its old value, in the host line that goes back to the cluster (R218, R227). -/
def State.engOld (s : State) (own : AccOwner) (v : Xlen) (h : HostLine) : State :=
  match own with
  | .engine e tag =>
    match s.opOf e tag with
    | some o => s.setOp e { o with
        old := v
        data := h }
    | none => s
  | _ => s

/-- A read-modify-write met poison: it stores nothing and takes exception 0x08 (R229). -/
def State.engPoisoned (s : State) (own : AccOwner) : State :=
  match own with
  | .engine e tag =>
    match s.opOf e tag with
    | some o => ((s.dropOp e tag).engFault e 0x08 o.ea false).settle e
    | none => s
  | _ => s

/-- What an atomic stores over an old value; AMO.CAS stores only on equality (R227). -/
def amoNew (op : AmoOp) (cmp src old : Xlen) : Xlen :=
  match op with
  | .add => old + src
  | .swap => src
  | .cas => if old = cmp then src else old
  | .and => old &&& src
  | .or => old ||| src
  | .xor => old ^^^ src
  | .minu => if old.toNat ≤ src.toNat then old else src
  | .maxu => if old.toNat ≤ src.toNat then src else old

/-- A doorbell of engine e (R223): it wakes the cluster, and an engine that waits reads PROD again. -/
def State.ring (s : State) (e : Nat) : State :=
  let t := (s.setEng e { s.eng e with bell := true }).wake [1 + e / 8]
  match (t.eng e).phase with
  | .idle => t.readProd e
  | .badCons => t.ringRead e (t.ringOff e + 64) .readCons
  | .keyCons => if (t.slot (t.engKey e).toNat).isSome then t.ringRead e (t.ringOff e + 64) .readCons else t
  | .keyProd => if (t.slot (t.engKey e).toNat).isSome then t.readProd e else t
  | .keyDesc => if (t.slot (t.engKey e).toNat).isSome then t.engNext e else t
  | _ => t

end Sys2Proof.Machine
end

