-- ==== Sys2Proof/Machine/HostPath.lean ====
section
/-! DEFINITION. Host accesses from request to completion: decoding (R45 to R53), admission (R113), the lookups and the
media read (R37), reconstruction and deep recovery (R38, R110, R111), the bound (R106), the merge (R84), the vault
placement (R35), deferred merge records (R85 to R88), and the clock domains (R30, R31). -/

namespace Sys2Proof.Machine

/-! ### Finding an access -/

def State.access (s : State) (id : Nat) : Option Access := s.accesses.find? (fun a => a.id == id)

def State.setAccess (s : State) (a : Access) : State :=
  { s with accesses := s.accesses.map (fun b => if b.id = a.id then a else b) }

/-! ### From host address to region (R46, R49, R50, R53) -/

/-- What R46 makes of an HPA: a region and key, or the REASON of R53 with the DPA where one was formed. -/
inductive Resolved where
  | ok (dec region : Nat) (desc : BitVec 512) (key dpa : Nat)
  | noKeySlot (dec region : Nat) (desc : BitVec 512) (dpa : Nat)
  | bad (reason : Nat) (dpa : Option Nat)
deriving DecidableEq, Repr

/-- The committed decoder that holds an HPA (R46 step 1). -/
def State.decoderOf (s : State) (n hpa : Nat) : Option (Nat × Decoder) :=
  (s.port n).decs.find? (fun p => decide (p.2.base ≤ hpa) && decide (hpa < p.2.base + p.2.size))

/-- The DPA of a residue by the CXL interleave decoding (R46 step 3). -/
def Decoder.dpa (d : Decoder) (residue : Nat) : Nat :=
  d.dpaBase + residue / (d.gran * d.ways) * d.gran + residue % d.gran

/-- The DPA lies in an accepted extent of the port (R54). -/
def State.inExtent (s : State) (n dpa : Nat) : Bool :=
  (s.port n).dcAccepted.any (fun e => decide (e.1 ≤ dpa / 2 ^ 24) && decide (dpa / 2 ^ 24 < e.1 + e.2))

/-- Resolves an HPA at port n (R46, R53). -/
def State.resolve (s : State) (n hpa : Nat) : Resolved :=
  match s.decoderOf n hpa with
  | none => .bad 1 none
  | some (k, d) =>
    let size := d.size / 2 ^ d.kidw
    let ali := (hpa - d.base) / size
    let dpa := d.dpa ((hpa - d.base) % size)
    match s.regionAt dpa with
    | none => .bad 1 (some dpa)
    | some (r, e) =>
      if dpa / 65536 ≥ s.get F.MAP_USER_TILES_user then .bad 1 (some dpa)
      else if !(dPorts e).testBit n then .bad 2 (some dpa)
      else if dType e != 0 then .bad 3 (some dpa)
      else if dDc e && !s.inExtent n dpa then .bad 4 (some dpa)
      else if dKeySrc e && ali ≥ 2 ^ dSpan e then .bad 5 (some dpa)
      else
        let key := dKey e + (if dKeySrc e then ali else 0)
        if (s.slot key).isNone then .noKeySlot k r e dpa else .ok k r e key dpa

/-- Notes an unresolved access in the port's registers and counters (R53). An access whose key is missing, REASON 6, is not among
the unresolved ones: it leaves HPn_ERR_ADDR, which is theirs. -/
def State.noteUnresolved (s : State) (n hpa reason : Nat) (dpa : Option Nat) (write : Bool) : State :=
  let a := dpa.getD hpa
  let t := (s.put (F.HP_ERR_INFO_REASON n) reason).put (F.HP_ERR_INFO_write n) (if write then 1 else 0)
  if reason = 6 then t
  else
    let t := t.wr (R.HP_ERR_ADDR_LO n) (BitVec.ofNat 32 a)
    let t := (t.put (F.HP_ERR_ADDR_HI_ADDR n) (a / 2 ^ 32)).put (F.HP_ERR_ADDR_HI_HPA n) (if dpa.isNone then 1 else 0)
    (t.hpCount n 6 1).cxlEvent n .info "general media: invalid address" a

/-! ### Ends of accesses -/

/-- A read's data leaves the port (R68, R121): counters 0, 11 and 4, the region's metering, and the answer. -/
def State.answerRead (s : State) (n : Fin 8) (id : Nat) (owner : Option (Nat × BitVec 512)) (data : HostLine)
    (poison : Bool) : State :=
  let t := (s.hpCount n 0 1).hpCount n 11 64
  let t := if poison then t.hpCount n 4 1 else t
  let t := match owner with
    | some (r, d) =>
      let u := t.meter r d .bytesRd 64
      if poison then u.meter r d .rdPoison 1 else u
    | none => t
  t.say (.readData n id (if poison then 0 else data) poison)

/-- A write's completion leaves the port (R68, R121): counters 1, 12 or 5, the region's metering, and the answer. -/
def State.answerWrite (s : State) (n : Fin 8) (id : Nat) (owner : Option (Nat × BitVec 512)) (stored silent : Bool) :
    State :=
  let t := s.hpCount n 1 1
  let t := if stored then t.hpCount n 12 64 else t.hpCount n 5 1
  let t := match owner with
    | some (r, d) => if stored then t.meter r d .bytesWr 64 else t.meter r d .wrFail 1
    | none => t
  if silent then t else t.say (.writeDone n id stored)

/-- The latency bucket of R119 for a read that took so many 5 ns cycles. -/
def latBucket (cycles : Nat) : Nat :=
  if cycles < 100 then 0 else if cycles < 200 then 1 else if cycles < 300 then 2 else if cycles < 400 then 3
  else if cycles ≤ 500 then 4 else if cycles ≤ 2000 then 5 else if cycles ≤ 4000 then 6 else 7

/-- The bound of a host read, 2.5 µs or 40 µs by its region's class, in 5 ns cycles (R38, R39). -/
def Access.bound (a : Access) : Nat := if dPatient a.desc then 8000 else 500

/-- The bound has passed: what is not at the egress stage by then comes back poisoned (R106). -/
def State.late (s : State) (a : Access) : Bool := decide (a.bound < s.now - a.born)

/-- A host read is returned poisoned at its bound, and counted (R106, R119). -/
def State.countBound (s : State) (a : Access) : State :=
  (s.add64 R.QOS_BOUND_POISON_LO 1).pmc 0x23 (.host a.port.val) (some (dClass a.desc)) (some a.dpa) 1

/-- Ends a host read: its answer leaves (R106, R119). -/
def State.hostRead (s : State) (a : Access) (data : HostLine) (poison : Bool) : State :=
  ((s.pmc (0x28 + latBucket (s.now - a.born)) (.host a.port.val) (some (dClass a.desc)) (some a.dpa) 1).answerRead a.port
    a.id (some (a.region, a.desc)) data (poison || a.poisonAll)).endAccess a.id

/-- Ends a read in flight: a host's answer leaves, poisoned once its bound has passed; an engine's read is performed, a peer's is
answered (R106, R305). -/
def State.finishRead (s : State) (a : Access) (data : HostLine) (poison : Bool) : State :=
  match a.own with
  | .host => if s.late a then (s.countBound a).hostRead a 0 true else s.hostRead a data poison
  | .remote m tag =>
    let t := s.meter a.region a.desc .bytesRd 64
    let t := if poison then t.meter a.region a.desc .rdPoison 1 else t
    (t.sendMsg m (.rdata tag (if poison then 2 else 0) (if poison then 0 else data))).endAccess a.id
  | own => (s.endAccess a.id).engRead own (.data (if poison then 0 else data) (poison || a.poisonAll))

/-- Ends a host read whose data reaches egress: CP7 compares the carry check carried from the source (R90). -/
def State.egressRead (s : State) (a : Access) (data : HostLine) (egress : HostLine) : State :=
  if a.own ≠ .host then s.finishRead a data false
  else if carryCheck (data ^^^ egress) = carryCheck data then s.finishRead a (data ^^^ egress) false
  else ((s.ccMismatch 7 a.region).post 0x05 0x02 a.dpa 7).finishRead a data true

def State.finishWrite (s : State) (a : Access) (stored : Bool) : State :=
  match a.own with
  | .host => (s.answerWrite a.port a.id (some (a.region, a.desc)) stored a.silent).endAccess a.id
  | .remote m tag =>
    let t := if stored then s.meter a.region a.desc .bytesWr 64 else s.meter a.region a.desc .wrFail 1
    (t.sendMsg m (.rstack tag (if stored then 0 else 1))).endAccess a.id
  | _ => (s.endAccess a.id).engWritten a stored

/-- An access whose key slot is empty (R22): a host's or peer's read comes back poisoned and a write does not complete, and a
host's shows REASON 6 (R53); an engine's takes exception 0x0A (R229). -/
def State.useNoKey (s : State) (a : Access) : State :=
  match a.own with
  | .host =>
    let t := s.noteUnresolved a.port a.dpa 6 (some a.dpa) a.write
    if a.write then t.endAccess a.id else t.finishRead a 0 true
  | .remote _ _ => if a.write then s.endAccess a.id else s.finishRead a 0 true
  | own => if a.write then (s.endAccess a.id).engNoKey own else (s.endAccess a.id).engRead own .noKey

/-- An access as it has media reads made. -/
def Access.reader (a : Access) : Reader := ⟨a.orig, some (dClass a.desc), some a.dpa⟩

def State.pmcAcc (s : State) (a : Access) (code k : Nat) : State :=
  s.pmc code a.orig (some (dClass a.desc)) (some a.dpa) k

/-! ### CXL.mem requests -/

/-- The port takes CXL.mem traffic: its link is up and no reset or hold keeps it (R66). -/
def State.portServes (s : State) (n : Nat) : Bool :=
  let p := s.port n
  p.linkUp && !p.resetting && !s.flag (F.HP_STATUS_DQ_HOLD n)

/-- Reads come back poisoned and writes are completed unstored: Halted, viral received, or a broken IDE stream
(R61, R62, R63). -/
def State.portContained (s : State) (n : Nat) : Bool :=
  s.halted || s.flag (F.HP_STATUS_VIRAL_IN n) || (s.port n).ideBad

/-- The owner of an access for metering, when it resolves. -/
def Resolved.owner : Resolved → Option (Nat × BitVec 512)
  | .ok _ r d _ _ => some (r, d)
  | .noKeySlot _ r d _ => some (r, d)
  | .bad _ _ => none

/-- Counts an access resolved through a decoder (R68). -/
def State.countHit (s : State) (n : Nat) : Resolved → State
  | .ok k _ _ _ _ => s.satReg (R.HP_DEC_HITS n k) 1
  | .noKeySlot k _ _ _ => s.satReg (R.HP_DEC_HITS n k) 1
  | .bad _ _ => s

/-- The 512 entries of a port's class queues are full: it withholds CXL credits, and no request arrives (R113). -/
def State.queueFull (s : State) (n : Nat) : Bool :=
  decide (512 ≤ s.accesses.countP (fun a => a.own == .host && a.port.val == n && a.stage == .waiting))

/-- A CXL.mem read arrives (R46). -/
def State.cxlRead (s : State) (n : Fin 8) (hpa : Nat) : State :=
  if !s.portServes n || s.queueFull n then s
  else
    let res := s.resolve n hpa
    let s := s.countHit n res
    let id := s.adm.nextId
    let s1 : State := { s with adm.nextId := id + 1 }
    if s.portContained n then s1.answerRead n id res.owner 0 true
    else match res with
      | .bad reason dpa => (s1.noteUnresolved n hpa reason dpa false).answerRead n id none 0 true
      | .noKeySlot _ r d dpa => (s1.noteUnresolved n hpa 6 (some dpa) false).answerRead n id (some (r, d)) 0 true
      | .ok _ r d key dpa =>
        if s.mediaLost then s1.answerRead n id (some (r, d)) 0 true
        else s.newAccess
          { id := 0, own := .host, port := n, write := false, dpa := dpa / 64 * 64, region := r, desc := d,
            key := BitVec.ofNat 14 key, data := 0, be := 0, cc := 0, stage := .waiting, order := 0,
            material := ⟨BitVec.ofNat 14 key, none⟩, amo := none, poisonAll := false, silent := false, born := 0 }

/-- A CXL.mem write arrives: CP1 forms its carry check, and CP2 compares it at the lane (R34, R89, R90). `lane` is what
the handoff between the two changed. -/
def State.cxlWrite (s : State) (n : Fin 8) (hpa : Nat) (data : HostLine) (be : BitVec 64) (lane : HostLine) : State :=
  if !s.portServes n || s.queueFull n then s
  else
    let res := s.resolve n hpa
    let s := s.countHit n res
    let id := s.adm.nextId
    let s1 : State := { s with adm.nextId := id + 1 }
    let got := mergeBytes 64 0 data be.toNat
    if s.portContained n then s1.answerWrite n id res.owner false false
    else match res with
      | .bad reason dpa => (s1.noteUnresolved n hpa reason dpa true).answerWrite n id none false false
      | .noKeySlot _ _ _ dpa => s1.noteUnresolved n hpa 6 (some dpa) true
      | .ok _ r d key dpa =>
        if s.mediaLost then s1.answerWrite n id none false false
        else if carryCheck (got ^^^ lane) ≠ carryCheck got then s1.ccHalt 2 r (lineOf dpa)
        else s.newAccess
          { id := 0, own := .host, port := n, write := true, dpa := dpa / 64 * 64, region := r, desc := d,
            key := BitVec.ofNat 14 key, data := got, be := be, cc := carryCheck got, stage := .waiting, order := 0,
            material := ⟨BitVec.ofNat 14 key, none⟩, amo := none, poisonAll := false, silent := false, born := 0 }

/-! ### Admission (R113, R116) -/

/-- The access's class (R47). -/
def Access.cls (a : Access) : Nat := dClass a.desc

/-- The engine whose program an access comes from. -/
def AccOwner.ofEngine : AccOwner → Option Nat
  | .engine e _ | .device e _ => some e
  | _ => none

/-- Two accesses of one engine, to different host lines: no rule keeps the order in which they reach their class queue (R245, log 80). -/
def Access.unordered (a b : Access) : Bool :=
  match a.own.ofEngine, b.own.ofEngine with
  | some e, some f => e == f && a.dpa != b.dpa
  | _, _ => false

/-- A write of the queue loop, which Read-only holds until it ends (R238). -/
def State.ringWrite (s : State) (a : Access) : Bool :=
  match a.own with
  | .engine e tag => (match s.opOf e tag with
    | some o => o.ofRing
    | none => false)
  | _ => false

/-- Read-only holds the access, which delays no other meanwhile (R238). -/
def State.roHeld (s : State) (a : Access) : Bool := s.service == svReadOnly && s.ringWrite a

/-- First among the waiting accesses of its class on its port or cluster (R113). -/
def State.firstOfClass (s : State) (a : Access) : Bool :=
  a.stage == .waiting && (s.accesses.takeWhile (fun b => b.id != a.id)).all (fun b =>
    b.stage != .waiting || b.src != a.src || b.cls != a.cls || a.unordered b || s.roHeld b)

/-- The class bucket holds the access's 64 bytes, or the class has no limit (R113). -/
def State.classAllows (s : State) (a : Access) : Bool :=
  s.flag (F.QOS_C_CFG_NOLIMIT a.cls) || decide (64 * 64 ≤ s.clsLevel a.cls)

/-- While the power bucket holds accesses back, ascending PRIO and then age decide among those that it alone holds: one that its
class bucket or its class queue holds delays no other class (R113, R116). -/
def State.powerTurn (s : State) (a : Access) : Bool :=
  !s.adm.pwrHeld || s.accesses.all (fun b => b.stage != .waiting || b.id == a.id || !s.classAllows b || !s.firstOfClass b ||
    decide (s.get (F.QOS_C_CFG_PRIO a.cls) < s.get (F.QOS_C_CFG_PRIO b.cls)) ||
    (s.get (F.QOS_C_CFG_PRIO a.cls) == s.get (F.QOS_C_CFG_PRIO b.cls) && decide (a.id < b.id)))

/-- Admission is open: Lit or Dim, in service, not Halted, no image being written, and no shutdown past its wait for hosts
(R91 step 4, R107, R156 step 2, R373). -/
def State.admissionOpen (s : State) : Bool :=
  s.lit && !s.halted && s.service != svHold && s.store.imageRun.isNone && (s.seq.off == 0 || s.seq.hosts)

/-- The Halo throttle lets a write of 64 bytes pass (R140). -/
def State.haloAllows (s : State) : Bool := !s.flag F.HALO_STAT_THROTTLE || decide (64 * 64 ≤ s.adm.halo)

/-- A migration engine holds the tile of a line (R303). -/
def State.tileHeld (s : State) (line : Nat) : Bool :=
  s.orb.hold.any (fun p => p.2.tile == tileOfLine line)

/-- A partial write goes to a deferred merge record: the old line is only on media and its read would break the class
budget (R85); a reflected region never uses one (R298), and an atomic needs the old value. -/
def State.wantsDmr (s : State) (a : Access) : Bool :=
  a.write && dRole a.desc != 1 && dRole a.desc != 4 && a.amo.isNone && (s.source (lineOf a.dpa)).mpa.isSome &&
    s.budgetBroken a.cls

/-- The descriptor as it acts for an access (R17). -/
def State.accDesc (s : State) (a : Access) : BitVec 512 := s.descOf a.region a.desc

/-- The material that an access writes under, if it is admitted now (R98). -/
def State.newMaterial (s : State) (a : Access) : Material := writeMaterial (s.accDesc a) a.key.toNat (lineOf a.dpa)

/-- No other admitted access to the line is in flight (R34). -/
def State.aloneOn (s : State) (a : Access) : Bool :=
  s.accesses.all (fun b => b.id == a.id || lineOf b.dpa != lineOf a.dpa || b.stage == .waiting)

/-- A write joins the record of its line (R88): one of the same key material, and no atomic, which needs the old value; a write that may
be reflected forms the merged line (R298). -/
def State.joins (s : State) (a : Access) (m : Material) : Bool :=
  a.amo.isNone && dRole a.desc != 1 && dRole a.desc != 4 && (match s.dmrOf (lineOf a.dpa) with
    | some r => r.key == m.key && r.shadow == m.shadow
    | none => false)

/-- A write to a line without a record goes to one (R85). -/
def State.takesDmr (s : State) (a : Access) : Bool := (s.dmrOf (lineOf a.dpa)).isNone && s.wantsDmr a

/-- What an admitted write needs a place for: an entry of the record pool when it goes to a record, and unless it completes
through one at once, a way of its set (R85, R133). -/
def State.writeFits (s : State) (a : Access) : Bool :=
  (!s.takesDmr a || s.dmrRoom) &&
  ((s.aloneOn a && (s.joins a (s.newMaterial a) || s.takesDmr a)) || (s.vaultRoom (lineOf a.dpa)).isSome)

/-- All that R113, R133, R140 and R378 ask of an access at the front of its class queue. -/
def State.admits (s : State) (a : Access) : Bool :=
  s.admissionOpen && s.isAwake 0 && a.stage == .waiting && s.firstOfClass a && s.classAllows a &&
  decide (0 < s.adm.power) && s.powerTurn a && !s.roHeld a &&
  (!a.write || a.device || s.service == svReadOnly ||
    (s.haloAllows && s.supplyAllows && !s.tileHeld (lineOf a.dpa) && s.writeFits a))

/-- Admission holds an access: it waits with its domains awake, and neither it nor the access before it in its class queue may pass
(R26, R105). One that waits for a wake alone is not held. -/
def State.isHeld (s : State) (a : Access) : Bool :=
  a.stage == .waiting && s.isAwake 0 && !s.accesses.any (fun b => b.stage == .waiting && b.src == a.src && b.cls == a.cls && s.admits b)

/-- The end of an access's hold: the longest is kept (R105, R126). -/
def State.endHold (s : State) (a : Access) : State :=
  let us := (a.born - (mapGet? s.adm.heldSince a.id).getD a.born) / 200
  let t := s.put (F.QOS_C_WAITMAX_longest a.cls) (max (s.get (F.QOS_C_WAITMAX_longest a.cls)) (min us (2 ^ 24 - 1)))
  { t with adm.heldSince := mapDel t.adm.heldSince a.id }

/-- Takes an admitted access's tokens and charges (R113, R115, R140). -/
def State.takeTokens (s : State) (a : Access) : State :=
  let t := if s.flag (F.QOS_C_CFG_NOLIMIT a.cls) then s else s.setCls a.cls (s.clsLevel a.cls - 64 * 64)
  let t := t.charge (if a.write then 13 else 1)
  let t : State := if a.write && !a.device && t.flag F.HALO_STAT_THROTTLE then { t with adm.halo := t.adm.halo - 64 * 64 } else t
  let t := t.pmcAcc a (if a.write then 0x11 else 0x10) 1
  t.pmcAcc a (if a.write then 0x13 else 0x12) 64

/-- The 256-byte image and mask of a write's 64 bytes within its media line. -/
def Access.image (a : Access) : LineData := setHostLine 0 (a.dpa / 64 % 4) a.data
def Access.mask (a : Access) : Nat := a.be.toNat * 2 ^ (64 * (a.dpa / 64 % 4))

/-- Merges a write into the record of its line: the later write wins in each byte (R88). -/
def DmrRec.merge (r : DmrRec) (a : Access) : DmrRec :=
  let i := a.dpa / 64 % 4
  let data := mergeBytes 256 r.data a.image a.mask
  { r with
    data := data
    mask := r.mask ||| BitVec.ofNat 256 a.mask
    cc := setCc r.cc i (carryCheck (hostLine data i)) }

/-- Writes a deferred merge record and completes its write (R36, R85). -/
def State.makeDmr (s : State) (a : Access) : State :=
  let line := lineOf a.dpa
  let kgen := match s.materialKeys a.material with | some k => k.kgen | none => 0
  let r : DmrRec := ⟨line, a.region, a.material.key, kgen, a.material.shadow, a.image, BitVec.ofNat 256 a.mask,
    setCc 0 (a.dpa / 64 % 4) a.cc⟩
  let t := (s.setDmr (s.key.dmr ++ [r])).add64 R.KEY_DMR_MADE_LO 1
  ((((t.markDmr line).portCount a 3 1).pmcAcc a 0x15 1).invalidate line).finishWrite a true

/-- A write that goes to a record: it joins the one of its line, or makes one (R85, R88). -/
def State.tryDmr (s : State) (a : Access) : Option State :=
  if s.joins a a.material then
    let t := s.setDmr (s.key.dmr.map (fun r => if r.line = lineOf a.dpa then r.merge a else r))
    some ((t.invalidate (lineOf a.dpa)).finishWrite a true)
  else if s.takesDmr a && s.dmrRoom then some (s.makeDmr a)
  else none

/-- A doorbell: an admitted write that covers byte 0 of a bound queue's header line (R223). -/
def State.doorbell (s : State) (a : Access) : State :=
  if !a.be.getLsbD 0 then s
  else
    let hit := fun e => s.engBound e && s.engRegion e == a.region && a.dpa == dBase a.desc * 2 ^ 24 + s.ringOff e
    ((List.range 32).filter hit).foldl (fun s e => s.ring e) s

/-- A write in Read-only that one General Media Event per region, port and second reports (R189). -/
def State.roEvent (s : State) (a : Access) : State :=
  match a.own with
  | .host =>
    let due := match mapGet? (s.port a.port).roAt a.region with
      | some was => decide (s.now ≥ was + 200000000)
      | none => true
    if due then (List.range 8).foldl (fun s q => if (dPorts a.desc).testBit q then
      (s.setPort q { s.port q with roAt := mapPut (s.port q).roAt a.region s.now }).cxlEvent q .failure
        "general media: failed write" a.dpa else s) s else s
  | _ => s

/-- An access passes admission (R113). A device access goes to its target (R251). A write in Read-only is completed unstored
(R189); one whose line no other access holds goes to a deferred merge record where R85 or R88 says so; else its lookups are
issued, and its turn on the line decides (R34). -/
def State.letIn (s : State) (a : Access) : State :=
  let a := { a with
    order := s.adm.nextOrder
    material := s.newMaterial a
    stage := .lookup }
  let s : State := { s with adm.nextOrder := s.adm.nextOrder + 1 }
  let t := ((s.endHold a).takeTokens a).setAccess a
  match a.own with
  | .device e tag => (t.endAccess a.id).sendDevice e tag
  | _ =>
  if !a.write then t
  else
    let t := t.doorbell a
    if t.service = svReadOnly then
      (match a.amo with
        | none => (t.roEvent a).finishWrite a false
        | some _ => t.setAccess { a with be := 0 })
    else if t.aloneOn a then (t.tryDmr a).getD t else t

/-- The check that CP9 formed for an engine's store, or CP1 for a peer's, is compared at the cipher lane (R89, R90 CP2); `lane` is
what the handoff changed. A host's was compared when it arrived. -/
def State.laneFails (a : Access) (lane : HostLine) : Bool :=
  a.write && a.own != .host && !a.device && a.amo.isNone && carryCheck (a.data ^^^ lane) != a.cc

/-- Tries to admit one waiting access; one that may not pass waits (R26). A partial write that a full record pool holds is counted
once (R119). -/
def State.tryAdmit (s : State) (id : Nat) (lane : HostLine) : State :=
  match s.access id with
  | none => s
  | some a =>
    if s.admits a then
      if State.laneFails a lane then (s.ccHalt 2 a.region (lineOf a.dpa)).endAccess a.id
      else (s.letIn a).showVault
    else if a.stage == .waiting && a.write && !a.poolHeld && s.takesDmr a && !s.dmrRoom then
      ((s.pmcAcc a 0x32 1).setAccess { a with poolHeld := true }).showVault
    else s.showVault

/-! ### Merging (R84, R52, R59) -/

/-- The old value of an atomic at its place in the old line; none when that host line is lost, poisoned or another
key's. -/
def amoOld (a : Access) (off : Nat) (old : Option LineImg) : Option Xlen :=
  match old with
  | some l => if l.poison.getLsbD (a.dpa / 64 % 4) then none
    else some (loadValue (hostLine l.data (a.dpa / 64 % 4)) off 8 false)
  | none => none

/-- The write access of an atomic whose old value is `v`. -/
def Access.amoWrite (a : Access) (q : AmoReq) (v : Xlen) : Access :=
  let data := BitVec.ofNat 512 ((amoNew q.op q.cmp q.src v).toNat * 2 ^ (8 * q.off))
  { a with
    data := data
    cc := carryCheck data }

/-- The line a write forms over the old one, on its way to the vault. -/
def State.formOver (s : State) (k : KeySlot) (a : Access) (old : Option LineImg) : State :=
  let img := mergeLine k a.material s.integ (lineOf a.dpa) old a.image a.mask
  ((s.portCount a 2 1).pmcAcc a 0x14 1).setAccess { a with stage := .forming img }

/-- Forms a write's line; with its key slot empty it is neither stored nor completed (R22, R84). An atomic stores what
its old value gives, one in Read-only only reads it, and one that reads poison stores nothing (R189, R227, R229). -/
def State.formWrite (s : State) (a : Access) (old : Option LineImg) : State :=
  match s.materialKeys a.material with
  | none => s.useNoKey a
  | some k =>
    match a.amo with
    | none => s.formOver k a old
    | some q =>
      match amoOld a q.off old with
      | some v =>
        let t := s.engOld a.own v (match old with
          | some l => hostLine l.data (a.dpa / 64 % 4)
          | none => 0)
        if a.be = 0 then t.finishWrite a false else t.formOver k (a.amoWrite q v) old
      | none => (((s.endAccess a.id).meter a.region a.desc .bytesRd 64).meter a.region a.desc .rdPoison 1).engPoisoned a.own

/-- Applies a deferred merge record over the old line (R86): the line formed under the record's key. -/
def State.mergeRec (s : State) (r : DmrRec) (old : Option LineImg) : Option LineImg :=
  (s.materialKeys ⟨r.key, r.shadow⟩).map (fun k =>
    mergeLine k ⟨r.key, r.shadow⟩ s.integ r.line old r.data r.mask.toNat)

/-- A line with a record was read: the merged line goes to the vault and the record is retired (R88). -/
def State.resolveRec (s : State) (r : DmrRec) (old : Option LineImg) : Option (LineImg × State) :=
  match s.mergeRec r old with
  | none => none
  | some img => (s.place r.line img).map (fun t => (img, t.dmrRetire r.line true))

/-- An all-zero line for an access, as unwritten and unmapped lines read (R141, R144). -/
def State.zeroFor (s : State) (a : Access) : LineImg := zeroLine a.material 0 s.integ

/-- A read of a line under another key ID comes back poisoned and counts (R51); a write poisons the rest (R52). -/
def State.useMismatch (s : State) (a : Access) : State :=
  if a.write then s.formWrite a none else (s.portCount a 7 1).finishRead a 0 true

/-- An integrity failure in an access: the line is discarded, a write ends unstored and uncompleted, a read is marked to
return poisoned (R91 step 1). -/
def State.useFailed (s : State) (a : Access) : State :=
  if a.write then s.endAccess a.id else s.setAccess { a with poisonAll := true }

/-- How an access came by a line: whether from the vault, what a handoff on the way to the port, or to the merge, changed, the
cause of R104 that a MAC failure has, and what follows when the line counts as undecodable (R90). -/
structure LineVia where
  vault : Bool
  egress : HostLine
  macCause : Nat
  bad : State → State

/-- An access takes the plaintext line it needs: a read's host line leaves, poisoned where the line's mark says so; a write's
merge follows, its old host line compared with its check first (R90 CP3). -/
def State.useLine (s : State) (a : Access) (l : LineImg) (v : LineVia) : State :=
  let i := a.dpa / 64 % 4
  if a.write then
    let got := hostLine l.data i ^^^ v.egress
    if carryCheck got ≠ carryCheck (hostLine l.data i) then
      if v.vault || s.integ then (s.ccHalt 3 a.region (lineOf a.dpa)).useFailed a else v.bad (s.ccMismatch 3 a.region)
    else s.formWrite a (some { l with data := setHostLine l.data i got })
  else if l.poison.getLsbD i then s.finishRead a 0 true
  else s.egressRead a (hostLine l.data i) v.egress

/-- The line of an access has a record: the record is applied over what was read, the merged line placed, and the access uses it
(R88). -/
def State.useRec (s : State) (a : Access) (r : DmrRec) (old : Option LineImg) (v : LineVia) : State :=
  match s.resolveRec r old with
  | some (img, t) => t.useLine a img v
  | none => s

/-- An access uses what its read of a line gave, the line's record applied first (R51, R82, R84, R88, R90). -/
def State.useFound (s : State) (a : Access) (r : LineRead) (v : LineVia) : State :=
  let line := lineOf a.dpa
  match r, s.dmrOf line with
  | .macFail, d => (s.raiseHalt (if d.isSome && v.macCause != 6 then 3 else v.macCause) 0 a.region line false).useFailed a
  | .ccFail, _ => if s.integ then (s.ccHalt 6 a.region line).useFailed a else v.bad (s.ccMismatch 6 a.region)
  | .noKey, _ => s.useNoKey a
  | .mismatch, none => s.useMismatch a
  | .mismatch, some d => s.useRec a d none v
  | .unwritten, none => s.useLine a (s.zeroFor a) v
  | .unwritten, some d => s.useRec a d (some (s.zeroFor a)) v
  | .ok l, none => s.useLine a l v
  | .ok l, some d => s.useRec a d (some l) v

/-- An access whose line is lost: a read comes back poisoned, a write poisons the rest of the line; a record is applied first
(R59, R184). -/
def State.useLost (s : State) (a : Access) (v : LineVia) : State :=
  match s.dmrOf (lineOf a.dpa) with
  | some d => s.useRec a d none v
  | none => if a.write then s.formWrite a none else s.finishRead a 0 true

/-- The key ID under which the old line of an access is read: the record's where it has one (R52, R88). -/
def State.oldKey (s : State) (a : Access) : Nat :=
  match s.dmrOf (lineOf a.dpa) with
  | some r => r.key.toNat
  | none => a.key.toNat

/-- Reads a stored line for an access. -/
def State.readFor (s : State) (a : Access) (bulk : Bool) (st : Stored) : LineRead :=
  s.readStored (s.accDesc a) (s.oldKey a) (lineOf a.dpa) bulk st

/-- The cause of R104 when the MAC of a line read from media for an access fails; a peer's read counts as an engine's (log 20). -/
def Access.macCause (a : Access) : Nat := if a.write then 2 else if a.own = .host then 1 else 5

/-! ### Lookups (R37) -/

/-- A write and any other access to one media line are served in the order of admission (R34). -/
def State.lineTurn (s : State) (a : Access) : Bool :=
  s.accesses.all (fun b => b.id == a.id || lineOf b.dpa != lineOf a.dpa || b.stage == .waiting ||
    decide (a.order ≤ b.order) || (!a.write && !b.write))

/-- What another access already waits for of the same media line (R111). -/
def State.sharedRead (s : State) (a : Access) : Option Access :=
  s.accesses.find? (fun b => b.id != a.id && lineOf b.dpa == lineOf a.dpa &&
    (match b.stage with | .media _ _ | .recon _ | .deep _ => true | _ => false))

/-- The stage at which an access joins another's read of its line: a reconstruction that followed a failed decode serves host reads
alone, beside deep recovery (R111, R217). -/
def Access.joinStage (a b : Access) : AccStage :=
  match b.stage with
  | .recon m => if b.around || (a.own == .host && (a.spec || !dPatient a.desc)) then b.stage else .deep m
  | st => st

/-- QOS_CFG.SPEC asks for a speculative reconstruction of this read (R110); an engine's or a peer's waits for deep recovery (R217). -/
def State.speculates (s : State) (a : Access) (halo : Bool) : Bool :=
  !halo && !a.write && a.own == .host && (match s.get F.QOS_CFG_SPEC with
    | 0 => false
    | 1 => !dPatient a.desc && (s.tileEnt (tileOfLine (lineOf a.dpa))).lowMargin
    | 2 => !dPatient a.desc
    | _ => true)

/-- A later read of a die whose operation has been suspended as often as it may, and a read of an overdue die, are served by
reconstruction, where that can serve them (R109, R208). -/
def State.readsAround (s : State) (mpa : Nat) (halo : Bool) : Bool :=
  let d := s.die (mpaCh mpa) (mpaDie mpa)
  !halo && !s.reconBlocked mpa && (d.overdue || (List.range 4).any (fun p => s.suspSpent (d.plane p)))

/-- A read that nothing but its overdue die can serve waits: the N16 sends the die no command (R208). -/
def State.dieSilent (s : State) (mpa : Nat) (halo forced : Bool) : Bool :=
  (s.die (mpaCh mpa) (mpaDie mpa)).overdue && (halo || forced || s.reconBlocked mpa)

def State.mustAround (s : State) (a : Access) (mpa : Nat) (halo : Bool) : Bool := !a.forced && s.readsAround mpa halo

/-- The rank of an access's read at its die: Strict reads, then Patient reads, then the others (R108). -/
def Access.dieRank (a : Access) : Nat := if a.own ≠ .host then 2 else if dPatient a.desc then 1 else 0

/-- The plane of a media position. -/
def mpaPlaneId (m : Nat) : Nat := m / 2 ^ 25

/-- An access other than `a` waits for a read that it issued on the plane of `mpa`, and `q` holds of it. -/
def State.onPlane (s : State) (a : Access) (mpa : Nat) (q : Access → Bool) : Bool :=
  s.accesses.any (fun b => b.id != a.id && b.lead && q b && (match b.stage with
    | .media m _ => mpaPlaneId m == mpaPlaneId mpa
    | _ => false))

/-- Issues the media read an access needs (R37 step 5, R109, R114, R115). One that shares a read in progress issues none (R111); one
that must be read around is served by reconstruction. -/
def State.issueMedia (s : State) (a : Access) (mpa : Nat) (halo : Bool) : State :=
  match s.sharedRead a with
  | some b => (s.wake [8 + mpaCh mpa]).setAccess { a with
      stage := a.joinStage b
      around := b.around }
  | none =>
    if s.mustAround a mpa halo then (s.issueRecon a.reader mpa).setAccess { a with
      stage := .recon mpa
      around := true }
    else
      let t := s.issueRead a.reader mpa (tileOfLine (lineOf a.dpa)) halo
      let spec := s.speculates a halo
      let t := if spec then (t.issueRecon a.reader mpa).add64 R.QOS_SPEC_LO 1 else t
      t.setAccess { a with
        stage := .media mpa halo
        lead := true
        spec := spec
        reading := !s.onPlane a mpa (·.reading) }

/-- An engine's read of a class waits while the class's media-read bucket is below 1 (R114). -/
def State.readDelayed (s : State) (a : Access) : Bool :=
  (match a.own with | .engine _ _ | .ring _ | .fill _ => true | _ => false) && s.budgetBroken a.cls

/-- Serves an access from a source below the read cache. A line on a retired channel is lost (R184); one on a failed die is
reconstructed from its group, or lost where it has none (R182). -/
def State.serveMedia (s : State) (a : Access) (egress : HostLine) : State :=
  let v : LineVia := ⟨false, egress, a.macCause, fun u => u⟩
  match s.mediaSource (lineOf a.dpa) with
  | .halo k =>
    let m := slotMpa k
    if s.readDelayed a || s.dieSilent m true a.forced then s
    else if s.chanOut (mpaCh m) || s.unitOut (mpaCh m) (mpaDie m) (mpaPlane m) then s.useLost a v
    else s.issueMedia a m true
  | .bulk m =>
    if s.readDelayed a || s.dieSilent m false a.forced then s
    else if s.chanOut (mpaCh m) then s.useLost a v
    else if s.unitOut (mpaCh m) (mpaDie m) (mpaPlane m) && s.reconBlocked m then s.useLost a v
    else if s.unitOut (mpaCh m) (mpaDie m) (mpaPlane m) then
      match s.sharedRead a with
      | some b => s.setAccess { a with
          stage := a.joinStage b
          around := b.around }
      | none => (s.issueRecon a.reader m).setAccess { a with stage := .recon m }
    else s.issueMedia a m false
  | _ => s.useFound a .unwritten v

/-- An access uses a line held in DDR5. -/
def State.serveDdr (s : State) (a : Access) (l : LineImg) (code : Nat) (v : LineVia) : State :=
  let t := if a.write then s else s.pmcAcc a code 1
  let t := if (s.tagHit (lineOf a.dpa)).isSome then t else t.pmcAcc a 0x41 1
  ((t.tagTouch (lineOf a.dpa) false).laneBusy 16).useFound a (s.readDdr (s.accDesc a) (s.oldKey a) l) v

/-- The first source that hits serves an access (R37), with CP4 or CP5 on a DDR5 copy (R90). `err` is what the DDR5 readback
changed. -/
def State.findLine (s : State) (a : Access) (err : LineData) (egress : HostLine) : State :=
  let line := lineOf a.dpa
  let drop := fun (u : State) => (u.cacheDrop line).serveMedia a egress
  match s.source line with
  | .vault _ w =>
    if carryChecks (w.img.data ^^^ err) ≠ w.img.cc then (s.ccHalt 4 a.region line).useFailed a
    else s.serveDdr a { w.img with data := w.img.data ^^^ err } 0x18 ⟨true, egress, a.macCause, fun u => u⟩
  | .cache loc w =>
    if carryChecks (w.img.data ^^^ err) ≠ w.img.cc then drop (s.ccMismatch 5 a.region)
    else (s.cacheTouch loc).serveDdr a { w.img with data := w.img.data ^^^ err } 0x19 ⟨false, egress, a.macCause, drop⟩
  | _ => s.serveMedia a egress

/-- The lookups of an access return, and its turn on the line has come: a write may go to a record (R85, R88); an access under
another key ID than the line's record meets it as a line of that key (R51, R52). -/
def State.lookupDone (s : State) (a : Access) (err : LineData) (egress : HostLine) : State :=
  match (if a.write then s.tryDmr a else none) with
  | some t => t
  | none =>
    match s.dmrOf (lineOf a.dpa) with
    | none => s.findLine a err egress
    | some r =>
      match s.readKeys (s.accDesc a) a.key.toNat r.key.toNat r.kgen.toNat with
      | .mismatch => s.useMismatch a
      | .slot none => s.useNoKey a
      | .slot (some _) => s.findLine a err egress

def State.lookupReturn (s : State) (id : Nat) (err : LineData) (egress : HostLine) : State :=
  match s.access id with
  | some a =>
    if a.stage = .lookup ∧ s.lookupAwake = true ∧ s.lineTurn a = true ∧ a.poisonAll = false then
      s.lookupDone a err egress
    else s
  | none => s

/-! ### Media lines (R37 step 8, R38) -/

/-- Energy of the SOFT-READ steps of a deep recovery in nJ: the line is sampled once, in four quarters where it is in 1-bit mode (R115,
R198; log 82). -/
def deepCharge (halo : Bool) : Nat := if halo then 40 else 10

/-- Starts deep recovery of a line for a region, once, with the charge of its steps; `count` counts it for the one who asked (R38,
R115, R119). -/
def State.startDeepAt (s : State) (line region : Nat) (count : State → State) : State :=
  if s.adm.deep.any (fun p => p.1 == line) then s
  else (count (State.charge { s with adm.deep := s.adm.deep ++ [(line, region)] } (deepCharge (s.haloHit line).isSome))).wake
    (s.mediaDomain line)

/-- Starts deep recovery for an access. -/
def State.startDeep (s : State) (a : Access) : State := s.startDeepAt (lineOf a.dpa) a.region (fun t => t.pmcAcc a 0x24 1)

/-- A line's deep recovery is no longer wanted. -/
def State.dropDeep (s : State) (line : Nat) : State :=
  { s with adm.deep := s.adm.deep.filter (fun p => p.1 != line) }

/-- The line does not decode: a Strict access, or one with a speculative reconstruction, takes the parity reconstruction beside
deep recovery; another, or a Halo slot's, waits for deep recovery (R38, R110). -/
def State.undecodable (s : State) (a : Access) (mpa : Nat) (halo : Bool) : State :=
  let t := s.noteRead (lineOf a.dpa) mpa halo 0 true
  let t := if a.lead then t.pmcAcc a 0x20 1 else t
  let t := t.startDeep a
  let shared := s.accesses.any (fun b => b.id != a.id && lineOf b.dpa == lineOf a.dpa && b.stage == .recon mpa)
  if !halo && a.own == .host && (a.spec || !dPatient a.desc) then
    (if a.spec || shared then t else t.issueRecon a.reader mpa).setAccess { a with stage := .recon mpa }
  else t.setAccess { a with stage := .deep mpa }

/-- The read that an access waits for is the one in progress on its plane, or the next in the die's order (R108); one that shares
another's read has it when that one has. -/
def State.dieTurn (s : State) (a : Access) (mpa : Nat) : Bool :=
  a.reading || (!s.onPlane a mpa (·.reading) && !s.onPlane a mpa (fun b =>
    decide (b.dieRank < a.dieRank) || (b.dieRank == a.dieRank && decide (b.order < a.order)))) ||
  (!a.lead && s.onPlane a mpa (fun b => lineOf b.dpa == lineOf a.dpa && b.reading))

/-- The access looks its line up again. -/
def State.again (s : State) (a : Access) : State := s.setAccess { a with
  stage := .lookup
  lead := false
  reading := false
  spec := false
  around := false }

/-- A media line arrives for an access (R37 step 8). A line that the vault has come to hold meanwhile is looked up again. -/
def State.mediaLine (s : State) (id : Nat) (r : MediaResult) (egress : HostLine) : State :=
  match s.access id with
  | some a =>
    match a.stage with
    | .media mpa halo =>
      if (s.vaultHit (lineOf a.dpa)).isSome then s.again a
      else if s.chanOut (mpaCh mpa) then s.useLost a ⟨false, egress, a.macCause, fun u => u⟩
      else if s.isAwake (8 + mpaCh mpa) && !a.poisonAll && s.dieTurn a mpa then
        match r with
        | .undecodable => s.undecodable a mpa halo
        | .decoded c err =>
          let line := lineOf a.dpa
          let read := s.readFor a (!halo) (s.cell mpa ^^^ err)
          let t := s.noteRead line mpa halo c false
          let t := if a.lead then t.pmcAcc a 0x25 c else t
          let t := if a.write then t else t.pmcAcc a (if halo then 0x1A else 0x1B) 1
          let t := match read with
            | .ok l => if a.write || (s.dmrOf line).isSome then t else t.cacheFill line l
            | _ => t
          ((t.countMac read).laneBusy 17).useFound a read ⟨false, egress, a.macCause, fun u => u.undecodable a mpa halo⟩
      else s
    | _ => s
  | none => s

/-- Every access that waits for a line's deep recovery is served. -/
def State.serveDeep (s : State) (line : Nat) (f : State → Access → State) : State :=
  (s.accesses.filter (fun a => lineOf a.dpa == line &&
    (match a.stage with | .deep _ => true | .recon _ => true | _ => false))).foldl f s

/-- A parity reconstruction is ready, or abandoned (R110, R111). A read-around that fails reads the line itself (R109). The line that
was reconstructed is placed in the vault, where the others that wait for it find it. -/
def State.reconReady (s : State) (id : Nat) (r : ReconRead) (egress : HostLine) : State :=
  match s.access id with
  | some a =>
    match a.stage with
    | .recon mpa =>
      let line := lineOf a.dpa
      if (s.vaultHit line).isSome then s.again a
      else
      let fails := fun (u : State) =>
        if a.around then u.issueMedia { a with
          around := false
          forced := true } mpa false
        else (u.startDeep a).setAccess { a with stage := .deep mpa }
      match r with
      | .undecodable => fails s
      | .decoded counts err =>
        if s.reconBlocked mpa then fails s
        else
          let read := s.readFor a true (s.reconstruct mpa ^^^ err)
          let t := ((s.noteRecon mpa counts).countMac read).laneBusy 17
          let got := match read with | .ok _ => true | .unwritten => true | _ => false
          let t := if got && !a.write then (t.add64 R.QOS_RECON_OK_LO 1).pmcAcc a 0x22 1 else t
          let t := if got && !a.around then
              (match read, s.dmrOf line with
                | .ok l, none => (match t.place line l with
                  | some u => (u.dropDeep line).serveDeep line (fun u b => if b.id = id then u else u.again b)
                  | none => t)
                | .unwritten, none => t.dropDeep line
                | _, _ => t)
            else t
          t.useFound a read ⟨false, egress, 6, fails⟩
    | _ => s
  | none => s

/-- The key material under which the N16 forms a line of region r that it cannot recover (R59). -/
def State.lostMaterial (s : State) (r line : Nat) : Material := writeMaterial (s.liveDesc r) (dKey (s.desc r)) line

/-- The line that the N16 forms when it cannot recover one: a record's host lines over poison, else wholly poisoned; none while the
key slot is empty (R59, R88). -/
def State.lostLine (s : State) (r line : Nat) : Option LineImg :=
  match s.dmrOf line with
  | some d => s.mergeRec d none
  | none =>
    let m := s.lostMaterial r line
    (s.materialKeys m).map (fun k => formMac k line (poisonLine m k.kgen s.integ))

/-- An access uses a line that has just been placed in the vault, whose tag its key ID meets first (R51). -/
def State.usePlaced (s : State) (a : Access) (l : LineImg) : State :=
  match s.readKeys (s.accDesc a) a.key.toNat l.keyTag.toNat l.kgen.toNat with
  | .mismatch => s.useMismatch a
  | .slot none => s.useNoKey a
  | .slot (some _) => s.useLine a l ⟨false, 0, 6, fun u => u⟩

/-- Deep recovery found nothing: the line's host lines are marked poisoned (R59, R111). -/
def State.deepFailed (s : State) (line region mpa : Nat) : State :=
  let rec_ := (s.dmrOf line).isSome
  match s.lostLine region line with
  | none => (s.dropDeep line).serveDeep line (fun u a => u.useNoKey a)
  | some img =>
    match s.place line img with
    | none => s
    | some t => (((t.dropDeep line).dmrRetire line true).post 0x04 0x04 mpa 0).serveDeep line (fun u a =>
        if rec_ then u.usePlaced a img else if a.write then u.formWrite a none else u.finishRead a 0 true)

/-- Deep recovery gave the line back: it is placed in the vault, its record applied first (R88, R111). -/
def State.deepOk (s : State) (line region mpa c : Nat) (l : LineImg) : State :=
  let img := match s.dmrOf line with
    | none => some l
    | some d => s.mergeRec d (match s.readKeys (s.liveDesc region) d.key.toNat l.keyTag.toNat l.kgen.toNat with
      | .mismatch => none
      | _ => some l)
  match img.bind (fun i => (s.place line i).map (fun t => (i, t))) with
  | none => s
  | some (i, t) => (((t.dropDeep line).dmrRetire line true).post 0x04 0x03 mpa c).serveDeep line (fun u a => u.usePlaced a i)

/-- Deep recovery of a line ends (R38, R59, R111); it cannot give back one on a failed die (R190). Where the line's newest copy is no
longer on media, those that wait look it up again. -/
def State.deepDone (s : State) (line : Nat) (r : MediaResult) : State :=
  match s.adm.deep.find? (fun p => p.1 == line) with
  | none => s
  | some (_, region) =>
    let src := s.mediaSource line
    match (match s.source line with | .halo k => some (slotMpa k) | .bulk m => some m | _ => none) with
    | none => (s.dropDeep line).serveDeep line (fun u a => u.setAccess { a with stage := .lookup })
    | some mpa =>
      match (if s.chanOut (mpaCh mpa) || s.unitOut (mpaCh mpa) (mpaDie mpa) (mpaPlane mpa) then .undecodable else r) with
      | .undecodable => s.deepFailed line region mpa
      | .decoded c err =>
        let st := s.cell mpa ^^^ err
        let read := s.readStored (s.liveDesc region) (metaTag (storedMeta st)) line
          (match src with | .bulk _ => true | _ => false) st
        let t := (s.countMac read).laneBusy 17
        match read with
        | .macFail => ((t.dropDeep line).raiseHalt 6 0 region line false).serveDeep line (fun u a => u.useFailed a)
        | .ccFail =>
          if t.integ then ((t.dropDeep line).ccHalt 6 region line).serveDeep line (fun u a => u.useFailed a)
          else (t.ccMismatch 6 region).deepFailed line region mpa
        | .ok l => t.deepOk line region mpa c l
        | .unwritten => (t.dropDeep line).serveDeep line (fun u a => u.useFound a .unwritten ⟨false, 0, 6, fun u => u⟩)
        | .noKey => (t.dropDeep line).serveDeep line (fun u a => u.useNoKey a)
        | .mismatch => (t.dropDeep line).serveDeep line (fun u a => u.useFound a .mismatch ⟨false, 0, 6, fun u => u⟩)

/-- A host read reaches its bound before its data reached egress: it comes back poisoned and leaves its line unmarked; deep
recovery goes on (R38, R39, R106). No other access has a bound (R217). -/
def State.boundExpiry (s : State) (id : Nat) : State :=
  match s.access id with
  | some a =>
    if a.write || a.own != .host || a.stage == .waiting || decide (s.now - a.born < a.bound) then s
    else (s.countBound a).hostRead a 0 true
  | none => s

/-! ### Placement (R35) and reflection (R298, R300) -/

/-- The formed line of a write is placed in the vault and the write completed, or its RWRITE sent and its RACK
awaited. With no room in the set it waits (R133). A record of the line under another key ID was for the line that this one
replaces (R52); one of the same key ID stays. -/
def State.vaultWriteDone (s : State) (id : Nat) : State :=
  match s.access id with
  | some a =>
    match a.stage with
    | .forming img =>
      let line := lineOf a.dpa
      let d := s.accDesc a
      match s.reflKind d a.region line, s.flag F.ORB_REFL_CFG_ON_LOSS with
      | .mark, true => s.finishWrite a false
      | kind, _ =>
        match s.place line img with
        | none => s.showVault
        | some t =>
          let t := ((match t.dmrOf line with
            | some r => if r.key = img.keyTag then t else t.dmrRetire line false
            | none => t).laneBusy 16)
          match kind with
          | .here => t.finishWrite a true
          | .mark => (t.markDirty d a.region line).finishWrite a true
          | .reflect =>
            let q := t.reflectLine d a.region line a.id img
            q.2.setAccess { a with stage := .reflecting q.1 }
    | _ => s
  | none => s

/-! ### Deferred merge records (R86) -/

/-- What the old line of a record is (R52, R84): none when lost or of another key; nothing to go on with when a check failed or
the key is missing. -/
def recOld (s : State) (d : DmrRec) : LineRead → Option (Option LineImg)
  | .ok l => some (some l)
  | .unwritten => some (some (zeroLine ⟨d.key, d.shadow⟩ 0 s.integ))
  | .mismatch => some none
  | .ccFail => if s.integ then none else some none
  | _ => none

/-- What a failed check of a record's old line brings (R82, R88, R90). -/
def State.recChecks (s : State) (d : DmrRec) (r : LineRead) : State :=
  match r with
  | .macFail => s.raiseHalt 3 0 d.region d.line false
  | .ccFail => if s.integ then s.ccHalt 6 d.region d.line else s.ccMismatch 6 d.region
  | _ => s

/-- The record resolved over its old line, where both are at hand. -/
def State.recOver (s : State) (d : DmrRec) (old : Option (Option LineImg)) : State :=
  match old.bind (s.resolveRec d) with
  | some (_, t) => t.laneBusy 16
  | none => s

/-- A media read that the N16 makes for its own work, to the end of its recovery, which `r` gives: what is stored there, or nothing where
the line is lost. A retired channel's lines are lost (R184); one of a failed die is reconstructed, when parity serves (R182); one that
is to be read around is reconstructed, and read itself where that fails (R109). -/
def State.ownRead (s : State) (b : Reader) (line mpa : Nat) (halo : Bool) (r : MediaResult) : State × Option Stored :=
  let tile := tileOfLine line
  let out := s.unitOut (mpaCh mpa) (mpaDie mpa) (mpaPlane mpa)
  if s.chanOut (mpaCh mpa) || (out && (halo || s.reconBlocked mpa)) then (s, none)
  else
    let recon := out || s.readsAround mpa halo
    let t := if recon then s.issueRecon b mpa else s.issueRead b mpa tile halo
    match r with
    | .decoded c err =>
      if recon then (t, some (t.reconstruct mpa ^^^ err))
      else ((t.noteRead line mpa halo c false).countBy b 0x25 c, some (t.cell mpa ^^^ err))
    | .undecodable =>
      if out then (t, none)
      else
        let t := if recon then t.issueRead b mpa tile halo else t
        ((((t.noteRead line mpa halo 0 true).countBy b 0x20 1).countBy b 0x24 1).charge (deepCharge halo), none)

/-- The line that a record's own read gave, as the record's old line, with what its checks bring (R82, R86, R104). -/
def State.recRead (s : State) (d : DmrRec) (halo : Bool) (st : Stored) : State :=
  let read := s.readStored (s.liveDesc d.region) d.key.toNat d.line (!halo) st
  let t := ((s.countMac read).laneBusy 17).recChecks d read
  t.recOver d (recOld t d read)

/-- A line held in DDR5, as a record's old line. -/
def State.recDdr (s : State) (d : DmrRec) (l : LineImg) : State :=
  (s.laneBusy 16).recOver d (recOld s d (s.readDdr (s.liveDesc d.region) d.key.toNat l))

/-- Resolves the oldest record, when the power bucket and its class's media-read bucket let its media read be admitted (R86,
R114, R115). -/
def State.dmrResolve (s : State) (r : MediaResult) : State :=
  match s.key.dmr with
  | [] => s
  | d :: _ =>
    let live := s.liveDesc d.region
    if !s.lit || s.halted || !decide (0 < s.adm.power) then s
    else match s.source d.line with
      | .vault _ w => s.recDdr d w.img
      | .cache _ w => s.recDdr d w.img
      | .unmapped => s.recOver d (recOld s d .unwritten)
      | src =>
        let halo := (match src with | .halo _ => true | _ => false)
        if s.budgetBroken (dClass live) || s.dieSilent (src.mpa.getD 0) halo false then s
        else
          match s.ownRead ⟨.maint, some (dClass live), some (d.line * 256)⟩ d.line (src.mpa.getD 0) halo r with
          | (t, none) => t.recOver d (some none)
          | (t, some st) => t.recRead d halo st

/-! ### Domains (R30, R31) -/

/-- The data plane has work in hand: accesses, drains, folds, releases, a re-key or a migration that runs, a metering sweep, cache
maintenance, an image (R30). -/
def State.planeBusy (s : State) : Bool :=
  !(s.accesses.isEmpty && s.store.drains.isEmpty && s.store.folds.isEmpty && s.rgn.releases.isEmpty &&
    s.adm.deep.isEmpty && s.clu.maint.isNone && s.store.imageRun.isNone) || s.flag F.MET_STAT_SWEEP ||
  (List.range 4).any (fun k => s.get (F.TRM_STAT_STATE k) == 2) || (List.range 2).any (fun m => s.get (F.ORB_MIG_STAT_STATE m) == 1)

/-- A die of channel c runs, suspends or queues an operation, or a group of the channel is being reset (R30). -/
def State.chanBusy (s : State) (c : Nat) : Bool :=
  s.dies.any (fun q => q.1 / 16 == c && q.2.planes.any (fun x => x.2.run.isSome || x.2.susp.isSome || x.2.queued.isSome)) ||
  s.store.groups.any (fun q => groupCh q.1 == c && q.2.st == .resetting)

/-- Cluster k has work: an engine that runs, a memory operation in hand, or a program load (R30). -/
def State.clusterBusy (s : State) (k : Nat) : Bool :=
  s.get (F.ENG_CL_STAT_RUNNING k) != 0 || s.clu.loadRun.isSome ||
  s.clu.engs.any (fun q => q.1 / 8 == k && (!q.2.ops.isEmpty || q.2.bell))

/-- The control cores have work: a mailbox command, a key import, a commit, a program load (R30). -/
def State.coreBusy (s : State) : Bool :=
  s.ports.any (fun q => q.2.mbox.isSome) || s.key.importRun.isSome || s.rgn.rc.busy || s.clu.loadRun.isSome

/-- The idle time of a domain, in µs (R402). -/
def State.idleUs (s : State) (d : Domain) : Nat :=
  min 1000000 (match d with
    | .fabric => s.get F.MODE_IDLE_FAB_TIME_US
    | .media _ => s.get F.MODE_IDLE_MED_TIME_US
    | .ddr _ => s.get F.MODE_IDLE_DDR_TIME_US
    | .cluster _ => s.get F.MODE_IDLE_CLU_TIME_US
    | .core _ => s.get F.MODE_IDLE_CC_TIME_US
    | .stream => s.get F.MODE_IDLE_STQ_TIME_US)

/-- A domain has work (R30); no DDR5 channel leaves while a Strict region holds it awake (R32), and the stream port has work while a
constellation is formed. -/
def State.domBusy (s : State) (d : Domain) : Bool :=
  match d with
  | .fabric => s.planeBusy
  | .media n => s.planeBusy || s.chanBusy n.val
  | .ddr _ => s.strictReached || s.planeBusy
  | .cluster k => s.clusterBusy k.val
  | .core _ => s.coreBusy
  | .stream => !s.memberMoons.isEmpty

/-- The power modes let a domain gate (R385). -/
def State.modeGates (s : State) (d : Domain) : Bool :=
  match d with
  | .fabric | .media _ | .ddr _ => s.power == pwDim
  | _ => s.lit

/-- A domain gates: after its idle time with no work of any kind, in a mode that lets it; an idle time of 0 never ends (R30, R32,
R385). -/
def State.mayGate (s : State) (d : Domain) : Bool :=
  s.modeGates d && !s.domBusy d && decide (0 < s.idleUs d) &&
  decide (mapGet (fun _ => 0) s.dom.used (domNum d) + 200 * s.idleUs d ≤ s.now)

def State.gate (s : State) (d : Domain) : State :=
  if s.mayGate d then
    (State.showAwake { s with dom.awake := s.dom.awake.filter (· != domNum d) }).cutPower
  else s

/-- A domain is awake. The dies of a media channel leave standby with it (R212). -/
def State.wakeDone (s : State) (d : Domain) : State :=
  if s.dom.waking.contains (domNum d) then
    (State.showAwake { s.leaveStandby [domNum d] with
      dom.waking := s.dom.waking.filter (· != domNum d)
      dom.awake := s.dom.awake ++ [domNum d] }).cutPower
  else s

/-! ### The commands -/

def execCxlMemRead (n : Fin 8) (hpa : BitVec 52) (s : State) : Host.Outcome State Fault Refusal :=
  .next (s.cxlRead n hpa.toNat)

def execCxlMemWrite (n : Fin 8) (hpa : BitVec 52) (data : HostLine) (be : BitVec 64) (lane : HostLine) (s : State) :
    Host.Outcome State Fault Refusal := .next (s.cxlWrite n hpa.toNat data be lane)

def execAccessAdmit (step : Admission) (s : State) : Host.Outcome State Fault Refusal := .next (s.tryAdmit step.id step.lane)

def execLookupReturn (id : Nat) (err : LineData) (egress : HostLine) (s : State) : Host.Outcome State Fault Refusal :=
  .next (s.lookupReturn id err egress)

def execMediaLineReceived (id : Nat) (r : MediaResult) (egress : HostLine) (s : State) :
    Host.Outcome State Fault Refusal := .next (s.mediaLine id r egress)

def execReconstructionReady (id : Nat) (r : ReconRead) (egress : HostLine) (s : State) :
    Host.Outcome State Fault Refusal := .next (s.reconReady id r egress)

def execDeepRecoveryDone (line : LineNo) (r : MediaResult) (s : State) : Host.Outcome State Fault Refusal :=
  .next (s.deepDone line.toNat r)

def execReadBoundExpiry (id : Nat) (s : State) : Host.Outcome State Fault Refusal := .next (s.boundExpiry id)

def execVaultWriteDone (id : Nat) (s : State) : Host.Outcome State Fault Refusal := .next (s.vaultWriteDone id)

def execDmrResolve (r : MediaResult) (s : State) : Host.Outcome State Fault Refusal := .next (s.dmrResolve r)

def execDomainIdleGate (d : Domain) (s : State) : Host.Outcome State Fault Refusal := .next (s.gate d)

def execDomainWakeDone (d : Domain) (s : State) : Host.Outcome State Fault Refusal := .next (s.wakeDone d)

end Sys2Proof.Machine
end

