-- ==== Sys2Proof/Machine/Ports.lean ====
section
/-! DEFINITION. The rest of the host ports: links, Detect.Quiet and resets (R40, R41, R66, R67), HDM decoders (R45), viral
and IDE (R61 to R63), Dynamic Capacity (R54, R55), partitions, labels and flush (R56 to R58), the poison list (R60), the
event logs and the mailbox (R64, R65), and the writes of the HPn_ block that have rows of their own (R68). -/

namespace Sys2Proof.Machine

/-! ### Ranges of blocks -/

/-- The parts of a range (base, length) outside another. -/
def rangeMinus (p : Nat × Nat) (a n : Nat) : List (Nat × Nat) :=
  if p.1 + p.2 ≤ a ∨ a + n ≤ p.1 then [p]
  else (if p.1 < a then [(p.1, a - p.1)] else []) ++ (if a + n < p.1 + p.2 then [(a + n, p.1 + p.2 - (a + n))] else [])

/-- A list of ranges without one range. -/
def rangesMinus (l : List (Nat × Nat)) (a n : Nat) : List (Nat × Nat) := l.flatMap (fun p => rangeMinus p a n)

/-- A range lies wholly inside the union of a list of ranges. -/
def rangeCovered (l : List (Nat × Nat)) (a n : Nat) : Bool :=
  (l.foldl (fun rest p => rangesMinus rest p.1 p.2) [(a, n)]).isEmpty

/-! ### Detect.Quiet (R66) -/

/-- The DQ_REASON codes of the conditions that hold port n (R66, R67); an orderly shutdown holds it from R373 step 3 on. -/
def State.dqReasons (s : State) (n : Nat) : List Nat :=
  (if s.service = svHold then [1] else []) ++ (if s.flag (F.HP_CTRL_PORT_EN n) then [] else [2]) ++
  (if s.oddMerged n then [3] else []) ++ (if (s.port n).retired then [4] else []) ++
  (if s.power = pwDark then [5] else []) ++
  (if (s.port n).resetting || (s.seq.off != 0 && decide (s.seq.off ≤ 3) && !s.seq.hosts) then [6] else [])

/-- Shows why port n is held; with no reason left the port keeps its hold until it leaves it (R66). -/
def State.showDq (s : State) (n : Nat) : State :=
  match s.dqReasons n with
  | [] => s
  | [c] => (s.put (F.HP_STATUS_DQ_HOLD n) 1).put (F.HP_STATUS_DQ_REASON n) c
  | _ => (s.put (F.HP_STATUS_DQ_HOLD n) 1).put (F.HP_STATUS_DQ_REASON n) 7

/-- The offset lies in port n's block. -/
def inPortBlock (n off : Nat) : Bool := decide (R.HP_ID n ≤ off) && decide (off < R.HP_ID n + 0x10000)

/-- Notes a reset in HPn_RST_STAT: 1 conventional, 2 function-level; both since the last read show 3 (R68). -/
def State.noteReset (s : State) (n kind : Nat) : State :=
  let seen := (s.port n).rstSeen ||| kind
  let t := s.setPort n { s.port n with rstSeen := seen }
  t.put (F.HP_RST_STAT_LAST n) (if seen = 3 then 3 else kind)

/-- The flit replays of port n since they were last counted: how many there were is a free value, and none when no time has passed
(R68; log 4, log 7). -/
def State.noteReplays (s : State) (n : Nat) : State :=
  match (s.port n).replayFrom with
  | some t =>
    if s.now ≤ t then s
    else
      let (f, u) := s.fresh
      State.hpCount (u.setPort n { u.port n with replayFrom := some s.now }) n 9 f.toNat
  | none => s

/-- The counter of replays starts at 0 again, with those up to now (R68). -/
def State.dropReplays (s : State) (n : Nat) : State :=
  s.setPort n { s.port n with replayFrom := (s.port n).replayFrom.map (fun _ => s.now) }

/-- A conventional reset of port n (R67): reads and writes not admitted are discarded, admitted writes go on without a
completion, class P takes its defaults. -/
def State.convReset (s : State) (n : Nat) : State :=
  let gone := fun (a : Access) => a.own == .host && a.port.val == n && (!a.write || a.stage == .waiting)
  let ids := (s.accesses.filter gone).map (·.id)
  let t := ids.foldl (fun s id => s.endAccess id) s
  let t : State := { t with accesses := t.accesses.map (fun a => if a.own = .host ∧ a.port.val = n then { a with silent := true } else a) }
  let t := t.noteReplays n
  let t := t.setPort n { t.port n with replayFrom := none }
  let p := t.port n
  let t := t.setPort n { p with
    linkUp := false
    resetting := true
    decs := []
    commitErr := []
    ideKeyed := false
    ideBad := false
    mbox := none
    info := cxlLog0
    warn := cxlLog0
    failure := cxlLog0
    fatal := cxlLog0
    msix := 0
    intPolicy := portInit.intPolicy
    respLimit := none }
  let t := (t.resetRegs portKind (inPortBlock n)).clearLatch (1 + n)
  (t.noteReset n 1).showDq n

/-- The holding conditions of every port changed: a port that enters the hold with its link up goes through a
conventional reset first (R66). -/
def State.updatePorts (s : State) : State :=
  (List.range 8).foldl (fun s n =>
    if (s.dqReasons n).isEmpty then s
    else if (s.port n).linkUp then s.convReset n else s.showDq n) s

/-- A port leaves its hold once no condition holds it; a conventional reset ends with it (R66, R67). -/
def State.leaveQuiet (s : State) (n : Nat) : State :=
  let t := s.setPort n { s.port n with resetting := false }
  if (t.dqReasons n).isEmpty then (t.put (F.HP_STATUS_DQ_HOLD n) 0).put (F.HP_STATUS_DQ_REASON n) 0
  else t.showDq n

/-! ### Links (R40, R41) -/

/-- Signals viral on port n, again on a new link (R61, R67); counter 13 counts the port's entry to viral, not its repetition. -/
def State.viralOut (s : State) (n : Nat) : State :=
  if (s.port n).linkUp then
    let t := if s.flag (F.HP_STATUS_VIRAL_OUT n) then s else s.hpCount n 13 1
    (t.put (F.HP_STATUS_VIRAL_OUT n) 1).say (.viral ⟨n % 8, Nat.mod_lt _ (by decide)⟩)
  else s

/-- The widths in lanes that a port trains at (R40). -/
def State.widthOk (s : State) (n w : Nat) : Bool := [1, 2, 4, 8].contains w || (w == 16 && s.flag (F.HP_ID_MERGED n))

/-- A port's link trains up: the rate is capped by MAX_RATE, and the flit follows the rate and LOFLIT_EN (R40). -/
def State.linkTrain (s : State) (n rate width : Nat) (loflit : Bool) : State :=
  if (s.port n).linkUp || s.flag (F.HP_STATUS_DQ_HOLD n) || !(s.dqReasons n).isEmpty || rate > 5 || !s.widthOk n width then s
  else
    let r := min rate (2 + s.get (F.HP_LINK_CFG_MAX_RATE n))
    let wide := decide (r = 5)
    let lo := wide && loflit && s.flag (F.HP_LINK_CFG_LOFLIT_EN n)
    let t := s.setPort n { s.port n with
      linkUp := true
      replayFrom := some s.now }
    let t := (t.put (F.HP_LINK_STAT_RATE n) r).put (F.HP_LINK_STAT_WIDTH n) width
    let t := (t.put (F.HP_LINK_STAT_FLIT256 n) (if wide then 1 else 0)).put (F.HP_LINK_STAT_LOFLIT n) (if lo then 1 else 0)
    (if t.halted then t.viralOut n else t).keepDdr

/-- A function-level reset: CXL.mem goes on; MSI-X, what the mailbox has set and the port's latch start again, and a mailbox command in
progress finishes and its result is discarded (R7, R67, R396). -/
def State.flr (s : State) (n : Nat) : State :=
  if !(s.port n).linkUp then s
  else
    let p := s.port n
    ((s.setPort n { p with
      mbox := p.mbox.map (fun m => (m.1, m.2.1, true))
      msix := 0
      intPolicy := portInit.intPolicy
      respLimit := none }).noteReset n 2).clearLatch (1 + n)

/-! ### HDM decoders (R45) -/

/-- The DPA bytes that a decoder covers on this device. -/
def Decoder.span (d : Decoder) : Nat := d.size / 2 ^ d.kidw / max 1 d.ways

/-- The conditions of R45. That a size of 0, which is a multiple of every size, cannot be committed is the model's choice: the rule
names no such condition (log 19). -/
def State.decoderOk (s : State) (n k : Nat) (d : Decoder) : Bool :=
  [1, 2, 4, 8, 16].contains d.ways && [256, 512, 1024, 2048, 4096, 8192, 16384].contains d.gran &&
  (s.port n).decs.all (fun q => q.1 == k || !overlap d.dpaBase d.span q.2.dpaBase q.2.span) &&
  decide (d.kidw ≤ 6) && decide (0 < d.size) && d.size % (2 ^ d.kidw * (2 ^ 28 * d.ways)) == 0 &&
  (!s.flag (F.HP_LINK_CFG_IDE_REQ n) || s.flag (F.HP_IDE_STAT_SECURE n))

/-- A host commits decoder k; a refusal sets Commit Error and leaves it uncommitted (R45). -/
def State.commitDecoder (s : State) (n k base size ways gran dpaBase : Nat) : State :=
  if !(s.port n).linkUp then s
  else
    let d : Decoder := ⟨base, size, ways, gran, dpaBase, s.get (F.HP_DEC_EXT_KIDW n k)⟩
    let p := s.port n
    if s.decoderOk n k d then
      (s.setPort n { p with
        decs := mapPut p.decs k d
        commitErr := mapDel p.commitErr k }).keepDdr
    else s.setPort n { p with
      decs := mapDel p.decs k
      commitErr := mapPut p.commitErr k true }

/-- A host uncommits decoder k (R32). -/
def State.uncommitDecoder (s : State) (n k : Nat) : State :=
  let p := s.port n
  if !p.linkUp then s
  else (s.setPort n { p with
    decs := mapDel p.decs k
    commitErr := mapDel p.commitErr k }).keepDdr

/-! ### Viral and IDE (R62, R63) -/

def State.viralIn (s : State) (n : Nat) : State :=
  if !(s.port n).linkUp then s
  else
    let t := if s.flag (F.HP_STATUS_VIRAL_IN n) then s else s.hpCount n 13 1
    (t.put (F.HP_STATUS_VIRAL_IN n) 1).post 0x05 0x03 n 0

def State.ideFail (s : State) (n : Fin 8) : State :=
  if !(s.port n).linkUp || !s.flag (F.HP_IDE_STAT_SECURE n) then s
  else
    let t := s.setPort n { s.port n with
      ideKeyed := false
      ideBad := true
      rasErr := true }
    ((((t.put (F.HP_IDE_STAT_SECURE n) 0).put (F.HP_IDE_STAT_FAIL n) 1).hpCount n 8 1).say (.uncorrectable n)).msix n 3

def State.ideKey (s : State) (n : Nat) (keySet : Bool) : State :=
  if !(s.port n).linkUp then s
  else
    let t := s.setPort n { s.port n with
      ideKeyed := true
      ideBad := false }
    (t.put (F.HP_IDE_STAT_SECURE n) 1).put (F.HP_IDE_STAT_KEYSET n) (if keySet then 1 else 0)

/-! ### Capability structures (R43) -/

/-- What each port presents in configuration space and BAR0, beside state that has its own rows: identifiers, fixed fields and
the place of the register blocks. -/
structure Capabilities where
  endpoint : Bool := true
  flitMode : Bool := true
  tags10 : Bool := true
  powerManagement : Bool := true
  aer : Bool := true
  serial : BitVec 64 := Config.serial
  msixVectors : Nat := 4
  /-- DOE instances: what each carries. -/
  doe : List String := ["CDAT", "SPDM and IDE-KM"]
  /-- DVSEC IDs: CXL Devices, GPF, Flex Bus Port, Register Locator. -/
  dvsecs : List Nat := [0x0000, 0x0005, 0x0007, 0x0008]
  cacheCapable : Bool := false
  ioCapable : Bool := true
  memCapable : Bool := true
  memHwInit : Bool := false
  hdmCount : Nat := 1
  gpfPhase2Ns : Nat := 1000
  gpfPhase2Milliwatts : Nat := 0
  flexBus : List String := ["CXL.io", "CXL.mem", "68 B flit", "256 B flit", "latency-optimised flit"]
  /-- BAR and offset of the component registers, the memory device registers and the management space. -/
  componentAt : Nat × Nat := (0, 0)
  deviceAt : Nat × Nat := (0, 0x10000)
  managementAt : Nat × Nat := (2, 0)
  component : List String := ["CXL RAS", "CXL Link", "HDM Decoder", "CXL IDE"]
  decoders : Nat := 16
  device : List String := ["Device Status", "Primary Mailbox", "Memory Device Status"]
deriving DecidableEq, Repr

/-- Every port's capability structures: the same on all eight. -/
def capabilities : Capabilities := {}

/-- The status that a port's capability structures report (R43): the error status of AER and CXL RAS, the event logs of Device Status that
hold records, and Memory Device Status (a fatal state, media ready, the mailbox ready). The fields are the CXL standard's (log 84). -/
structure PortStatus where
  rasUncorrectable : Bool
  events : List Bool
  deviceFatal : Bool
  mediaReady : Bool
  mailboxReady : Bool
deriving DecidableEq, Repr

def State.portStatus (s : State) (n : Nat) : PortStatus :=
  { rasUncorrectable := (s.port n).rasErr
    events := [EvLog.info, .warn, .failure, .fatal].map (fun l => !((s.port n).log l).recs.isEmpty)
    deviceFatal := s.halted
    mediaReady := s.lit && !s.halted
    mailboxReady := (s.port n).linkUp && (s.port n).mbox.isNone }

/-! ### CDAT and GPF (R44, R58) -/

/-- The CDAT table: a DSMAS entry for the static capacity and one for each enabled DC region, the DSLBIS latencies, and the trained
rate and width that every bandwidth entry gives (R44). -/
def State.cdat (s : State) (n : Fin 8) : State :=
  if !(s.port n).linkUp then s
  else (s.say (.cdat n (none :: ((List.range 8).filter (fun j => s.flag (F.HP_DC_CFG_EN n j))).map some) 1300 1595
    (s.get (F.HP_LINK_STAT_RATE n)) (s.get (F.HP_LINK_STAT_WIDTH n)))).msix n 2

def State.gpf (s : State) (n : Fin 8) (f : Fld) (phase : Nat) : State :=
  if !(s.port n).linkUp then s else ((s.put f 1).hpCount n 15 1).say (.gpfDone n phase)

/-! ### The mailbox (R65) -/

/-- Mailbox return codes of the CXL standard. -/
def mbSuccess : Nat := 0
def mbInvalid : Nat := 2
def mbUnsupported : Nat := 3
def mbInternal : Nat := 4
def mbRetry : Nat := 5
def mbPayload : Nat := 0x16

/-- The mailbox can take a command: the link is up and no command is in progress. -/
def State.mboxFree (s : State) (n : Nat) : Bool := (s.port n).linkUp && (s.port n).mbox.isNone && !s.oddMerged n

/-- A mailbox command completes: it is answered, counted (R68 counter 14), and raises the mailbox vector (R43). -/
def State.mboxDone (s : State) (n : Fin 8) (opcode code : Nat) (payload : List Nat) : State :=
  ((s.hpCount n 14 1).say (.mbox n opcode code payload)).msix n 0

/-- Runs a mailbox command that ends at once. -/
def State.mboxRun (s : State) (n : Fin 8) (opcode : Nat) (f : State → State × Nat × List Nat) : State :=
  if s.mboxFree n then
    let r := f s.wakeCores
    r.1.mboxDone n opcode r.2.1 r.2.2
  else s

/-! ### Dynamic Capacity (R54, R55) -/

/-- The block ranges of the N16 regions that DC region j of port n is made of (R54). -/
def State.dcRegions (s : State) (n j : Nat) : List (Nat × Nat) :=
  (s.rgn.descs.filter (fun q => dValid q.2 && dType q.2 == 0 && dDc q.2 && dDcr q.2 == j && (dPorts q.2).testBit n)).map
    (fun q => (dBase q.2, dSize q.2))

/-- A range of blocks covers one or more whole N16 regions of DC region j, inside it (R54). -/
def State.dcExtent (s : State) (n j a len : Nat) : Bool :=
  let l := s.dcRegions n j
  let base := s.get (F.HP_DC_CFG_BASE n j)
  decide (0 < len) && decide (base ≤ a) && decide (a + len ≤ base + s.get (F.HP_DC_LEN_length n j)) &&
  rangeCovered l a len &&
  l.all (fun e => !overlap a len e.1 e.2 || (decide (a ≤ e.1) && decide (e.1 + e.2 ≤ a + len)))

/-- A range of blocks lies in DC region j of port n and the region is offered (R54). -/
def State.dcInside (s : State) (n a len : Nat) : Bool :=
  (List.range 8).any (fun j => s.flag (F.HP_DC_CFG_EN n j) && rangeCovered (s.dcRegions n j) a len &&
    decide (s.get (F.HP_DC_CFG_BASE n j) ≤ a) &&
    decide (a + len ≤ s.get (F.HP_DC_CFG_BASE n j) + s.get (F.HP_DC_LEN_length n j)))

/-- Nothing is stored for a range of blocks: it reads as zero (R55, R141, R234). -/
def State.rangeZero (s : State) (a len : Nat) : Bool :=
  let on := fun (line : Nat) => decide (a ≤ line / 65536) && decide (line / 65536 < a + len)
  !s.store.map.any (fun q => q.2.mapped && on (q.1 * 256)) && !s.store.halo.any (fun q => q.2.valid && on q.2.line) &&
  !s.store.vault.any (fun q => on q.2.line) && !s.key.dmr.any (fun r => on r.line)

/-- A range is accepted on no port, since extents are not shareable (R42), and one that was released has been zeroed (R55). -/
def State.dcFree (s : State) (a len : Nat) : Bool :=
  (List.range 8).all (fun n =>
    !(s.port n).dcAccepted.any (fun e => overlap a len e.1 e.2) &&
    (!(s.port n).dcUsed.any (fun e => overlap a len e.1 e.2) || s.rangeZero a len)) &&
  !s.rgn.releases.any (fun r => overlap (a * 256) (len * 256) r.2.1 (r.2.2 - r.2.1))

/-- The blocks are offered to port n's host, which may accept a part of an extent (R54, R55). -/
def State.dcOffered (s : State) (n a len : Nat) : Bool :=
  decide (0 < len) && s.dcInside n a len && s.dcFree a len

/-- The extents that DC region j offers: each of its whole regions that is free (R54). -/
def State.dcOffers (s : State) (n j : Nat) : List (Nat × Nat) :=
  (s.dcRegions n j).filter (fun e => s.dcExtent n j e.1 e.2 && s.dcFree e.1 e.2)

/-- After a change, extents of an enabled DC region that were not offered before are reported to their host (R54, R55). -/
def State.offerNew (s : State) (before : State) : State :=
  ((List.range 64).filter (fun i => s.flag (F.HP_DC_CFG_EN (i / 8) (i % 8)))).foldl (fun s i =>
    match (s.dcOffers (i / 8) (i % 8)).filter (fun e => !(before.dcOffers (i / 8) (i % 8)).contains e) with
    | [] => s
    | es => s.cxlEventExts (i / 8) .info "dynamic capacity: add" (i % 8) es) s

/-- DC region j, as enabled now, would overlap another enabled one of its port, which R54 rules out. -/
def State.dcClash (s : State) (n j : Nat) : Bool :=
  (List.range 8).any (fun i => i != j && s.flag (F.HP_DC_CFG_EN n i) &&
    overlap (s.get (F.HP_DC_CFG_BASE n i)) (s.get (F.HP_DC_LEN_length n i)) (s.get (F.HP_DC_CFG_BASE n j))
      (s.get (F.HP_DC_LEN_length n j)))

/-- Shows a port's extents and whether a device request for release is open. -/
def State.showDc (s : State) (n : Nat) : State :=
  (s.put (F.HP_DC_STAT_EXTENTS n) (s.port n).dcAccepted.length).put (F.HP_DC_STAT_PENDING n)
    (if (s.port n).dcAsked.isEmpty then 0 else 1)

/-- Extents that do not overlap among themselves. -/
def extentsApart : List (Nat × Nat) → Bool
  | [] => true
  | e :: es => es.all (fun q => !overlap e.1 e.2 q.1 q.2) && extentsApart es

def State.dcAccept (s : State) (n : Fin 8) (exts : List (Nat × Nat)) : State :=
  s.mboxRun n 0x4802 (fun s =>
    let p := s.port n
    if exts.all (fun e => s.dcOffered n e.1 e.2) && extentsApart exts && decide (p.dcAccepted.length + exts.length ≤ 512) then
      let t := s.setPort n { p with dcAccepted := p.dcAccepted ++ exts }
      let t := (List.range 8).foldl (fun (s : State) m => s.setPort m { s.port m with
        dcUsed := exts.foldl (fun l e => rangesMinus l e.1 e.2) (s.port m).dcUsed }) t
      (t.showDc n, mbSuccess, [])
    else (s, mbInvalid, []))

/-- The regions that a range of blocks touches still drain (R18, R55). -/
def State.rangeBusy (s : State) (n a len : Nat) : Bool :=
  s.rgn.draining.any (fun q => s.isDraining q.1 && overlap (dBase (s.desc q.1)) (dSize (s.desc q.1)) a len) ||
  s.accesses.any (fun x => x.own == .host && x.port.val == n && overlap a len (x.dpa / 2 ^ 24) 1)

/-- The host releases an extent: nothing new resolves to it, and the completion waits for the drain (R55). That a host may release a
part of an accepted extent, which leaves the rest accepted, is the model's choice, as is Invalid Input where the parts left would be more
than the 512 extents of R42 (log 84). -/
def State.dcRelease (s : State) (n : Fin 8) (a len : Nat) : State :=
  if !s.mboxFree n then s
  else if len = 0 ∨ rangeCovered (s.port n).dcAccepted a len = false ∨ (rangesMinus (s.port n).dcAccepted a len).length > 512 then
    s.mboxRun n 0x4803 (fun s => (s, mbInvalid, []))
  else
    let p := s.port n
    let t := s.wakeCores.setPort n { p with
      dcAccepted := rangesMinus p.dcAccepted a len
      dcAsked := rangesMinus p.dcAsked a len
      dcUsed := p.dcUsed ++ [(a, len)]
      mbox := some (a, len, false) }
    ((t.put (F.HP_MBOX_STAT_OPCODE n) 0x4803).put (F.HP_MBOX_STAT_BUSY n) 1).showDc n

def State.dcReleaseDone (s : State) (n : Fin 8) : State :=
  match (s.port n).mbox with
  | some (a, len, drop) =>
    if s.rangeBusy n a len then s
    else
      let t := s.setPort n { s.port n with mbox := none }
      let t := (t.put (F.HP_MBOX_STAT_OPCODE n) 0).put (F.HP_MBOX_STAT_BUSY n) 0
      if drop then t.hpCount n 14 1 else t.mboxDone n 0x4803 mbSuccess []
  | none => s

def pairList (l : List (Nat × Nat)) : List Nat := l.flatMap (fun p => [p.1, p.2])

/-- A write of HPn_DCj_CFG: the control cores alone; BASE only while EN is 0; EN offers the region, with its extents in a Dynamic
Capacity event record, and clearing it asks for the release of what the host has accepted there (R54, R55). EN stays 0 while the
region would overlap another enabled one of the port; how the rule is kept is the model's choice (log 19). -/
def State.writeDcCfg (s : State) (p : Path) (n j : Nat) (v : Word) : State :=
  if p != .cc || !s.mayWrite p (R.HP_DC_CFG n j) then s
  else
    let was := s.flag (F.HP_DC_CFG_EN n j)
    let on := (F.HP_DC_CFG_EN n j).on v
    let s := if was then s else s.put (F.HP_DC_CFG_BASE n j) ((F.HP_DC_CFG_BASE n j).of v)
    let on := on && !s.dcClash n j
    let s := s.put (F.HP_DC_CFG_EN n j) (if on then 1 else 0)
    let a := s.get (F.HP_DC_CFG_BASE n j)
    let len := s.get (F.HP_DC_LEN_length n j)
    let q := s.port n
    if was && !on then
      let asked := q.dcAccepted.filter (fun e => overlap a len e.1 e.2) ++
        q.dcAsked.filter (fun e => !overlap a len e.1 e.2)
      ((s.setPort n { q with dcAsked := asked }).showDc n).cxlEventExts n .info "dynamic capacity: release" j
        (q.dcAccepted.filter (fun e => overlap a len e.1 e.2))
    else if on && !was then
      ((s.setPort n { q with dcAsked := rangesMinus q.dcAsked a len }).showDc n).cxlEventExts n .info "dynamic capacity: add" j
        (s.dcOffers n j)
    else s

/-- A write of HPn_DCj_LEN (R54, R68). -/
def State.writeDcLen (s : State) (p : Path) (n j : Nat) (v : Word) : State :=
  if p != .cc || !s.mayWrite p (R.HP_DC_LEN n j) || s.flag (F.HP_DC_CFG_EN n j) then s
  else s.put (F.HP_DC_LEN_length n j) ((F.HP_DC_LEN_length n j).of v)

/-! ### Labels, poison and health (R56, R57, R60, R185) -/

def State.lsaSet (s : State) (n : Fin 8) (off : Nat) (data : List Byte) : State :=
  s.mboxRun n 0x4103 (fun s =>
    if off + data.length ≤ 262144 then
      let p := s.port n
      let lsa := (data.zipIdx.foldl (fun m b => mapSet (fun _ => 0) m (off + b.2) b.1) p.lsa)
      let t := s.setPort n { p with lsa := lsa }
      (t.put (F.HP_LSA_STAT_COUNT n) ((t.get (F.HP_LSA_STAT_COUNT n) + 1) % 2 ^ 31), mbSuccess, [])
    else (s, mbInvalid, []))

def State.lsaGet (s : State) (n : Fin 8) (off len : Nat) : State :=
  s.mboxRun n 0x4102 (fun s =>
    if off + len ≤ 262144 then
      (s, mbSuccess, (List.range len).map (fun i => (mapGet (fun _ => 0) (s.port n).lsa (off + i) : Byte).toNat))
    else (s, mbInvalid, []))

/-- What a line's read gives as it stands, under the key it was last written with. -/
def State.readNow (s : State) (region line : Nat) : LineRead :=
  match s.source line with
  | .vault _ w => .ok w.img
  | .cache _ w => .ok w.img
  | .unmapped => .unwritten
  | src =>
    let st := s.cell (src.mpa.getD 0)
    s.readStored (s.liveDesc region) (metaTag (storedMeta st)) line (match src with | .bulk _ => true | _ => false) st

/-- The plaintext line as it stands; an unwritten or unmapped line reads as zeros under the region's first key. -/
def State.lineNow (s : State) (region line : Nat) : Option LineImg :=
  let m := s.lostMaterial region line
  match s.readNow region line with
  | .ok l => some l
  | .unwritten => (s.materialKeys m).map (fun k => zeroLine m k.kgen s.integ)
  | _ => none

/-- A merge read of the N16's own found its line failing a check: the HALT line rises (R82, R90, R91). -/
def State.readChecks (s : State) (region line : Nat) : State :=
  match s.readNow region line with
  | .macFail => s.raiseHalt 2 0 region line false
  | .ccFail => if s.integ then s.ccHalt 6 region line else s.ccMismatch 6 region
  | _ => s

/-- A host line that the port may name in a poison command: in a media-backed region of its PORTS. -/
def State.poisonTarget (s : State) (n dpa : Nat) : Option Nat :=
  match s.regionAt dpa with
  | some (r, d) => if (dPorts d).testBit n ∧ dType d = 0 then some r else none
  | none => none

/-- A line with host line i poisoned: the N16 forms it as 64 bytes of 0x00 with its POISON bit set (R59, R80). -/
def withPoison (l : LineImg) (i : Nat) : LineImg :=
  { l with
    data := setHostLine l.data i 0
    cc := setCc l.cc i (carryCheck 0)
    poison := l.poison ||| BitVec.ofNat 4 (2 ^ i) }

/-- The line that a poison command changes: the key and material that the N16 writes it under, and its old contents with its record applied,
none where they are lost (R52, R60, R86). Nothing when a check fails or a key is missing (R22, R82, R90). A line is written under the
key ID that it has; a lost one, or one never written, under its region's first (log 84). -/
def State.poisonBase (s : State) (region line : Nat) : Option (KeySlot × Material × Option LineImg) :=
  let d := s.liveDesc region
  let under := fun (key : Nat) (old : Option LineImg) =>
    let m := writeMaterial d key line
    (s.materialKeys m).map (fun k => (k, m, old))
  match s.dmrOf line, s.readNow region line with
  | some r, read =>
    let read := match read with
      | .ok l => s.readDdr d r.key.toNat l
      | other => other
    match recOld s r read with
    | none => none
    | some old => (s.mergeRec r old).bind (fun l => under l.keyTag.toNat (some l))
  | none, .ok l => under l.keyTag.toNat (some l)
  | none, .unwritten => under (dKey (s.desc region)) (some (zeroLine ⟨0, none⟩ 0 s.integ))
  | none, .mismatch => under (dKey (s.desc region)) none
  | none, .ccFail => if s.integ then none else under (dKey (s.desc region)) none
  | none, _ => none

/-- A media read of a line for `b`, issued now unless it was `sent` before, with what its checks bring (R82, R104, R114, R115, R119,
R172). -/
def State.readAs (s : State) (b : Reader) (sent : Bool) (region line : Nat) : State :=
  let read := s.readNow region line
  let at_ := fun (p : Nat) (halo : Bool) =>
    let t := if sent then s else s.issueRead b p (tileOfLine line) halo
    ((t.noteRead line p halo 0 false).countMac read).readChecks region line
  match s.source line with
  | .halo k => at_ (slotMpa k) true
  | .bulk p => at_ p false
  | _ => s

/-- The media read of the N16's own that a command makes of a line. -/
def State.readOwn (s : State) (region line : Nat) : State :=
  s.readAs ⟨.maint, some (dClass (s.liveDesc region)), some (line * 256)⟩ false region line

/-- A poison command writes its line: the old one as `form` changes it. The line's record is merged with it and retired (R35, R60,
R86). -/
def State.poisonWrite (s : State) (n dpa : Nat) (form : KeySlot → Material → Option LineImg → LineImg) : State × Nat × List Nat :=
  let line := lineOf dpa
  match s.poisonTarget n dpa with
  | none => (s, mbInvalid, [])
  | some r => match s.poisonBase r line with
    | none => (s.readOwn r line, mbInternal, [])
    | some (k, m, old) => match (s.readOwn r line).place line (form k m old) with
      | some u => (u.dmrRetire line true, mbSuccess, [])
      | none => (s, mbRetry, [])

/-- Inject Poison marks a host line poisoned (R60). -/
def State.injectPoison (s : State) (n : Fin 8) (dpa : Nat) : State :=
  s.mboxRun n 0x4301 (fun s =>
    let i := dpa / 64 % 4
    let t : State := { s with store.poison := mapPut s.store.poison (lineOf dpa * 4 + i) true }
    let r := t.poisonWrite n dpa (fun k m old =>
      formMac k (lineOf dpa) (withPoison (mergeLine k m t.integ (lineOf dpa) old 0 0) i))
    if r.2.1 = mbSuccess then r else ({ r.1 with store.poison := s.store.poison }, r.2))

/-- Clear Poison writes 64 bytes and clears the line's poison (R60). -/
def State.clearPoison (s : State) (n : Fin 8) (dpa : Nat) (data : HostLine) : State :=
  s.mboxRun n 0x4302 (fun s =>
    let i := dpa / 64 % 4
    s.poisonWrite n dpa (fun k m old =>
      mergeLine k m s.integ (lineOf dpa) old (setHostLine 0 i data) ((2 ^ 64 - 1) * 2 ^ (64 * i))))

/-- What Get Poison List gives: whether there are more than 4,096, since when, and the list with each entry's source (R60). -/
def State.poisonPayload (s : State) (n : Nat) : List Nat :=
  let l := s.poisonOf n
  (if l.length > 4096 then 1 else 0) :: ((s.port n).poisonAt.getD 0) ::
    (l.take 4096).flatMap (fun p => [p.1 * 64, if p.2 then 1 else 0])

def State.poisonList (s : State) (n : Fin 8) : State :=
  s.mboxRun n 0x4300 (fun s => (s, mbSuccess, s.poisonPayload n))

/-- Get Health Info: Life Used, Maintenance Needed and Hardware Replacement Needed (R185, R186). -/
def State.healthPayload (s : State) : List Nat :=
  let w := s.get F.MED_HEALTH_WARN
  [s.get F.MED_HEALTH_LIFE_USED, if w ≥ 2 then 1 else 0, if w = 3 then 1 else 0]

def State.healthInfo (s : State) (n : Fin 8) : State := s.mboxRun n 0x4200 (fun s => (s, mbSuccess, s.healthPayload))

/-- The device's capacity in bytes. -/
def State.capacity (s : State) : Nat := s.get F.MAP_USER_TILES_user * 65536

/-- Set Partition Info is kept until the next cold reset (R56); partitions are aligned to 16 MiB (R42). -/
def State.setPartition (s : State) (n : Fin 8) (volatile : Nat) : State :=
  s.mboxRun n 0x4101 (fun s =>
    if volatile % 2 ^ 24 = 0 ∧ volatile ≤ s.capacity then
      (s.setPort n { s.port n with partNext := some volatile }, mbSuccess, [])
    else (s, mbInvalid, []))

/-- Get Partition Info: the active volatile and persistent capacity, and the volatile capacity that the next cold reset brings. -/
def State.partPayload (s : State) (n : Nat) : List Nat :=
  let p := s.port n
  [p.partVolatile, s.capacity - p.partVolatile, p.partNext.getD p.partVolatile]

/-- Clears the oldest records of an event log; clearing relieves an overflow (R64). -/
def CxlLog.clear (l : CxlLog) (count : Nat) : CxlLog :=
  if count = 0 ∨ l.recs = [] then l else { cxlLog0 with recs := l.recs.drop count }

def State.clearEvents (s : State) (n : Fin 8) (log : EvLog) (count : Nat) : State :=
  s.mboxRun n 0x0101 (fun s =>
    ((s.setPort n ((s.port n).setLog log (((s.port n).log log).clear count))).showLogs n, mbSuccess, []))

/-! ### The commands of the mailbox that carry no input (R65) -/

/-- The records of a log with its overflow report: count, first and last time (R64). -/
def CxlLog.payload (l : CxlLog) : List Nat :=
  [l.recs.length, l.overflow, l.first, l.last] ++ l.recs.flatMap (fun e => [e.arg, e.time] ++ pairList e.exts)

/-- What an event record says of its kind has no number in the manual; the log's payload gives its argument, time and extents. The
four logs follow one another: a request without input names none (log 19). -/
def State.eventPayload (s : State) (n : Nat) : List Nat :=
  [EvLog.info, .warn, .failure, .fatal].flatMap (fun l => ((s.port n).log l).payload)

/-- The opcodes that the N16 supports: the command sets of R65 but for the poison scans, which R42 does not list. -/
def mailboxOpcodes : List Nat :=
  [0x0001, 0x0002, 0x0003, 0x0004, 0x0005, 0x0100, 0x0101, 0x0102, 0x0103, 0x0400, 0x0401, 0x4000, 0x4100, 0x4101, 0x4102,
    0x4103, 0x4200, 0x4201, 0x4202, 0x4203, 0x4204, 0x4300, 0x4301, 0x4302, 0x4800, 0x4801, 0x4802, 0x4803]

/-- The DC configuration: of each enabled DC region its number, base and length in 16 MiB blocks (R54). -/
def State.dcPayload (s : State) (n : Nat) : List Nat :=
  ((List.range 8).filter (fun j => s.flag (F.HP_DC_CFG_EN n j))).flatMap (fun j =>
    [j, s.get (F.HP_DC_CFG_BASE n j), s.get (F.HP_DC_LEN_length n j)])

/-- The answer to a supported command that takes no input (R64, R65); the opcodes and the order of the values are the CXL standard's
(log 19). The others ask for input, and come as commands of their own. -/
def State.mboxPlain (s : State) (n opcode : Nat) : Option (List Nat) :=
  match opcode with
  | 0x0001 => some [s.get F.ID_VENDOR_VENDOR, s.get F.ID_VENDOR_PART, Config.serial.toNat, 3]
  | 0x0002 => some [0]
  | 0x0003 => some [match (s.port n).respLimit with
    | some b => b.toNat
    | none => s.fresh.1.toNat % 2 ^ 8]
  | 0x0005 => some []
  | 0x0100 => some (s.eventPayload n)
  | 0x0102 => some ((s.port n).intPolicy.map (·.toNat))
  | 0x0400 => some [1]
  | 0x0401 => some mailboxOpcodes
  | 0x4000 => some [s.capacity, 2 ^ 24, 64, 64, 64, 64, 262144, 4096]
  | 0x4100 => some (s.partPayload n)
  | 0x4200 => some s.healthPayload
  | 0x4201 => some (s.get F.MED_HEALTH_WARN :: (s.port n).alerts.map (·.toNat))
  | 0x4203 => some [if (s.port n).dirty then 1 else 0]
  | 0x4300 => some (s.poisonPayload n)
  | 0x4800 => some (s.dcPayload n)
  | 0x4801 => some (pairList (s.port n).dcAccepted)
  | _ => none

/-- The supported commands that set something of the mailbox's own: Set Response Message Limit, Set Event Interrupt Policy, Set Alert
Configuration and Set Shutdown State, with the length of their input and what they leave (R65; log 84). -/
def mboxSet (opcode : Nat) : Option (Nat × (List Byte → PortSt → PortSt)) :=
  match opcode with
  | 0x0004 => some (1, fun i p => { p with respLimit := i.head? })
  | 0x0103 => some (4, fun i p => { p with intPolicy := i })
  | 0x4202 => some (12, fun i p => { p with alerts := i })
  | 0x4204 => some (1, fun i p => { p with dirty := (i.headD 0).getLsbD 0 })
  | _ => none

/-- A mailbox request with no row of its own (R65): a supported command that takes no input answers, one that sets something of the
mailbox's own takes it, any other supported one fails for its payload's length, and an opcode outside the sets returns Unsupported. -/
def State.mboxOpcode (s : State) (n : Fin 8) (q : MboxReq) : State :=
  let opcode := q.opcode.toNat
  s.mboxRun n opcode (fun s =>
    match mboxSet opcode, s.mboxPlain n opcode with
    | some (len, f), _ =>
      if q.input.length = len then (s.setPort n (f q.input (s.port n)), mbSuccess, []) else (s, mbPayload, [])
    | none, some l =>
      if q.input.isEmpty then (if opcode = 0x0003 ∧ (s.port n).respLimit = none then s.fresh.2 else s, mbSuccess, l)
      else (s, mbPayload, [])
    | none, none => (s, if mailboxOpcodes.contains opcode then mbPayload else mbUnsupported, []))

/-! ### Writes and reads of the HPn_ block (R68) -/

/-- A write of HPn_CTRL: PORT_EN from the management port and the control cores, CNT_CLR from those and the port's own
host (R66, R68). A port switched off by it is held, as HOLD does, and switched on released (R23, R309). -/
def State.writeHpCtrl (s : State) (p : Path) (n : Nat) (v : Word) : State :=
  if !s.mayWrite p (R.HP_CTRL n) then s
  else
    let t := if (F.HP_CTRL_CNT_CLR n).on v then
        ((List.range 16).foldl (fun s i => s.wr64 (R.HP_CNT_LO n i) 0) s).dropReplays n
      else s
    match p with
    | .host _ => t
    | _ =>
      let u := (t.put (F.HP_CTRL_PORT_EN n) ((F.HP_CTRL_PORT_EN n).of v)).updatePorts
      u.holdUnit (uPort n) (!u.flag (F.HP_CTRL_PORT_EN n))

/-- A write of HPn_DECk_EXT: discarded while the decoder is committed (R68). -/
def State.writeDecExt (s : State) (p : Path) (n k : Nat) (v : Word) : State :=
  if (mapGet? (s.port n).decs k).isSome then s else s.plainWrite p (R.HP_DEC_EXT n k) v

/-- A read of HPn_RST_STAT returns LAST and clears the value 0b11 (R68). -/
def State.readRstStat (s : State) (p : Path) (n : Nat) : State :=
  if !s.mayRead p (R.HP_RST_STAT n) then s.say (.regData p 0)
  else
    let t := s.say (.regData p (s.rd (R.HP_RST_STAT n)))
    let t := t.setPort n { t.port n with rstSeen := 0 }
    if s.get (F.HP_RST_STAT_LAST n) = 3 then t.put (F.HP_RST_STAT_LAST n) 0 else t

/-! ### The commands -/

def execHostLinkUp (n : Fin 8) (rate : BitVec 3) (width : BitVec 5) (loflit : Bool) (s : State) :
    Host.Outcome State Fault Refusal := .next (s.linkTrain n rate.toNat width.toNat loflit)

def execFunctionLevelReset (n : Fin 8) (s : State) : Host.Outcome State Fault Refusal := .next (s.flr n)

def execPortLeaveDetectQuiet (n : Fin 8) (s : State) : Host.Outcome State Fault Refusal := .next (s.leaveQuiet n)

def execHdmDecoderCommit (n : Fin 8) (k : Fin 16) (base size : BitVec 52) (ways gran : Nat) (dpaBase : Dpa) (s : State) :
    Host.Outcome State Fault Refusal := .next (s.commitDecoder n k base.toNat size.toNat ways gran dpaBase.toNat)

def execHdmDecoderUncommit (n : Fin 8) (k : Fin 16) (s : State) : Host.Outcome State Fault Refusal :=
  .next (s.uncommitDecoder n k)

def execViralReceived (n : Fin 8) (s : State) : Host.Outcome State Fault Refusal := .next (s.viralIn n)

def execIdeIntegrityFailure (n : Fin 8) (s : State) : Host.Outcome State Fault Refusal := .next (s.ideFail n)

def execIdeKm (n : Fin 8) (keySet : Bool) (s : State) : Host.Outcome State Fault Refusal := .next (s.ideKey n keySet)

def execCdatRead (n : Fin 8) (s : State) : Host.Outcome State Fault Refusal := .next (s.cdat n)

def execGpfPhase1 (n : Fin 8) (s : State) : Host.Outcome State Fault Refusal := .next (s.gpf n (F.HP_GPF_STAT_P1 n) 1)

def execGpfPhase2 (n : Fin 8) (s : State) : Host.Outcome State Fault Refusal := .next (s.gpf n (F.HP_GPF_STAT_P2 n) 2)

def execAddDynamicCapacityResponse (n : Fin 8) (exts : List (Nat × Nat)) (s : State) :
    Host.Outcome State Fault Refusal := .next (s.dcAccept n exts)

def execReleaseDynamicCapacity (n : Fin 8) (base len : Nat) (s : State) : Host.Outcome State Fault Refusal :=
  .next (s.dcRelease n base len)

def execDcReleaseComplete (n : Fin 8) (s : State) : Host.Outcome State Fault Refusal := .next (s.dcReleaseDone n)

def execGetDcExtentList (n : Fin 8) (s : State) : Host.Outcome State Fault Refusal :=
  .next (s.mboxRun n 0x4801 (fun s => (s, mbSuccess, pairList (s.port n).dcAccepted)))

def execSetPartitionInfo (n : Fin 8) (volatile : Nat) (s : State) : Host.Outcome State Fault Refusal :=
  .next (s.setPartition n volatile)

def execSetLsa (n : Fin 8) (off : Nat) (data : List Byte) (s : State) : Host.Outcome State Fault Refusal :=
  .next (s.lsaSet n off data)

def execGetLsa (n : Fin 8) (off len : Nat) (s : State) : Host.Outcome State Fault Refusal := .next (s.lsaGet n off len)

def execGetPoisonList (n : Fin 8) (s : State) : Host.Outcome State Fault Refusal := .next (s.poisonList n)

def execInjectPoison (n : Fin 8) (dpa : Dpa) (s : State) : Host.Outcome State Fault Refusal :=
  .next (s.injectPoison n dpa.toNat)

def execClearPoison (n : Fin 8) (dpa : Dpa) (data : HostLine) (s : State) : Host.Outcome State Fault Refusal :=
  .next (s.clearPoison n dpa.toNat data)

def execGetHealthInfo (n : Fin 8) (s : State) : Host.Outcome State Fault Refusal := .next (s.healthInfo n)

def execUnsupportedMailboxCommand (n : Fin 8) (opcode : MboxReq) (s : State) : Host.Outcome State Fault Refusal :=
  .next (s.mboxOpcode n opcode)

def execHpCntClr (p : Path) (n : Fin 8) (v : Word) (s : State) : Host.Outcome State Fault Refusal :=
  .next (s.touch.writeHpCtrl p n v)

def execPortEnWrite (p : Path) (n : Fin 8) (v : Word) (s : State) : Host.Outcome State Fault Refusal :=
  .next (s.touch.writeHpCtrl p n v)

def execRstStatRead (p : Path) (n : Fin 8) (s : State) : Host.Outcome State Fault Refusal := .next (s.touch.readRstStat p n)

def execDcRegionEnable (p : Path) (n j : Fin 8) (v : Word) (s : State) : Host.Outcome State Fault Refusal :=
  .next (s.touch.writeDcCfg p n j v)

def execClearEventRecords (n : Fin 8) (log : EvLog) (count : Nat) (s : State) : Host.Outcome State Fault Refusal :=
  .next (s.clearEvents n log count)

end Sys2Proof.Machine
end

