-- ==== Sys2Proof/Machine/Keys.lean ====
section
/-! DEFINITION. Key slots: KEKs (R74), wrapped key import and unload (R75 to R77), and the terminator (R95 to R103). -/

namespace Sys2Proof.Machine

/-! ### KEKs (R74, R93) -/

/-- The 32 bytes of KEY_KEK_DATA0 to 7, dwords in index order, least significant byte first. -/
def State.kekData (s : State) : BitVec 256 :=
  ofBytes 256 ((List.range 8).flatMap (fun i => toBytes 4 (s.rd (R.KEY_KEK_DATA i))))

/-- Shows which KEKs hold a key. -/
def State.showKeks (s : State) : State :=
  s.put F.KEY_KEK_CTL_KEK_VALID ((List.range 8).foldl (fun m i => if (mapGet? s.key.keks i).isSome then m + 2 ^ i else m) 0)

/-- A write of KEY_KEK_CTL (R74). -/
def State.writeKekCtl (s : State) (p : Path) (v : Word) : State :=
  if !s.mayWrite p R.KEY_KEK_CTL then s
  else
    let i := F.KEY_KEK_CTL_INDEX.of v
    let t := s.put F.KEY_KEK_CTL_INDEX i
    let load := F.KEY_KEK_CTL_LOAD.on v
    let erase := F.KEY_KEK_CTL_ERASE.on v
    if load && erase then s
    else if load then
      if t.halted then t
      else
        let u : State := { t with key.keks := mapPut t.key.keks i t.kekData }
        ((List.range 8).foldl (fun s j => s.wr (R.KEY_KEK_DATA j) 0) u).showKeks
    else if erase then State.showKeks { t with key.keks := mapDel t.key.keks i }
    else t

/-! ### Import (R75, R76) -/

def blobByte (b : BitVec 1024) (i : Nat) : Nat := (byteAt b i).toNat
def blobSlot (b : BitVec 1024) : Nat := (blobByte b 2 + 256 * blobByte b 3) % 2 ^ 14
def blobKek (b : BitVec 1024) : Nat := blobByte b 1 % 8
def blobKgen (b : BitVec 1024) : BitVec 2 := BitVec.ofNat 2 (blobByte b 1 / 16)

/-- Wrapped key j of three, unwrapped. -/
def blobKey (kek : BitVec 256) (b : BitVec 1024) (j : Nat) : Option (BitVec 256) :=
  (kwUnwrapBytes (toBytes 32 kek) (((toBytes 128 b).drop (8 + 40 * j)).take 40)).map (ofBytes 256)

/-- The three keys of a blob, or none when an integrity check fails. -/
def blobKeys (kek : BitVec 256) (b : BitVec 1024) : Option KeySlot :=
  (blobKey kek b 0).bind (fun k1 => (blobKey kek b 1).bind (fun k2 => (blobKey kek b 2).map (fun k3 => ⟨k1, k2, k3, blobKgen b⟩)))

/-- A committed descriptor names the slot outside a re-key (R21). The model reads R21 to the letter: a slot that a reset emptied and a
restored descriptor still names is refused too, though R73, R93 and R158 expect its key to be loaded again; a descriptor whose re-key
a commit stopped is outside a re-key (log 27). -/
def State.slotLocked (s : State) (slot : Nat) : Bool :=
  s.rgn.descs.any (fun p => dNames p.2 slot && (dTrmMode p.2 == 0 || s.rgn.trmCut.contains p.1))

/-- Engine e is armed for a key-ID re-key of the slot, and the generation is the slot's plus 1 (R104 code 0x7). -/
def State.shadowReady (s : State) (e slot : Nat) (kgen : BitVec 2) : Bool :=
  s.get (F.TRM_STAT_STATE e) == 1 && s.get (F.TRM_CTL_MODE e) == 2 && s.get (F.TRM_KEY_KEY e) == slot &&
  (match s.slot slot with | some k => kgen == k.kgen + 1 | none => false)

/-- What an import makes of the keys that its blob unwraps to (R76, R104). -/
def State.importKeys (s : State) (r : ImportRun) : Option KeySlot → Nat × Option KeySlot
  | none => (4, none)
  | some ks =>
    if ks.k1 = ks.k2 then (5, none)
    else if r.shadow then
      (if s.shadowReady r.engine (blobSlot r.blob) ks.kgen then (0, some ks) else (7, none))
    else if s.slotLocked (blobSlot r.blob) then (6, none)
    else (0, some ks)

/-- The code an import ends with, and the keys it installs when that is 0 (R76, R104). -/
def State.importCheck (s : State) (r : ImportRun) (readable : Bool) : Nat × Option KeySlot :=
  if s.halted || s.trust == trVendor then (9, none)
  else if !r.inArea || !readable then (0xB, none)
  else if blobByte r.blob 0 ≠ 1 then (1, none)
  else if blobSlot r.blob = 0 then (2, none)
  else match mapGet? s.key.keks (blobKek r.blob) with
    | none => (3, none)
    | some kek => s.importKeys r (blobKeys kek r.blob)

def State.loadStat (s : State) (busy code slot : Nat) : State :=
  ((s.put F.KEY_LOAD_STAT_BUSY busy).put F.KEY_LOAD_STAT_CODE code).put F.KEY_LOAD_STAT_SLOT slot

/-- An import ends (R20, R76); one into a pair key slot starts its peers' sequences anew (R288). -/
def State.importDone (s : State) (readable : Bool) : State :=
  match s.key.importRun with
  | none => s
  | some r =>
    let (code, ks) := s.importCheck r readable
    let slot := if code = 9 ∨ code = 0xB then 0 else blobSlot r.blob
    let t : State := State.loadStat { s with key.importRun := none } 0 code slot
    match ks with
    | none => t
    | some k =>
      if r.shadow then
        { t.put (F.TRM_KEY_NEW_KGEN r.engine) k.kgen.toNat with
          key.shadows := mapPut t.key.shadows r.engine (slot, k) }
      else (t.setSlot slot k).rekeyPeers slot

/-- Unloads the slot of KEY_SLOT_QUERY.SEL (R77). -/
def State.unloadSlot (s : State) : State :=
  let sel := s.get F.KEY_SLOT_QUERY_SEL
  if sel = 0 ∨ s.slotNamed sel = true then s.loadStat 0 0xA sel else (s.clearSlot sel).loadStat 0 0 sel

/-- Size of the control-plane working area (R127). The manual gives it no base: the model places it at control-plane addresses
0 to 512 MiB (log 28). -/
def workArea : Nat := 512 * 2 ^ 20

/-- A write of KEY_LOAD_CTL (R76, R77); `blob` is what DDR5 holds at KEY_LOAD_ADDR. One with GO and UNLOAD both 1 is ignored. -/
def State.writeLoadCtl (s : State) (p : Path) (v : Word) (blob : BitVec 1024) : State :=
  let go := F.KEY_LOAD_CTL_GO.on v
  let un := F.KEY_LOAD_CTL_UNLOAD.on v
  if !s.mayWrite p R.KEY_LOAD_CTL || (go && un) then s
  else
    let t := s.plainWrite p R.KEY_LOAD_CTL v
    if t.flag F.KEY_LOAD_STAT_BUSY || go == un then t
    else if un then t.unloadSlot
    else if t.halted || t.trust == trVendor then t.loadStat 0 9 0
    else
      let addr := (t.rd R.KEY_LOAD_ADDR_LO).toNat + 2 ^ 32 * t.get F.KEY_LOAD_ADDR_HI_ADDR
      let inArea := decide (addr + 128 ≤ workArea)
      let run : ImportRun := ⟨inArea, blob, t.flag F.KEY_LOAD_CTL_SHADOW, t.get F.KEY_LOAD_CTL_ENGINE⟩
      State.loadStat { t with key.importRun := some run } 1 0 (if inArea then blobSlot blob else 0)

/-! ### The terminator (R95 to R103) -/

/-- The region that engine k was started on and re-keys. -/
def State.trmRegion (s : State) (k : Nat) : Option Nat := mapGet? s.key.trmRun k

/-- The boundary, in the descriptor and in TRMk_BOUND. -/
def State.setTrmBound (s : State) (r k b : Nat) : State :=
  let d := s.desc r
  let t := s.setDesc r (setDw (setDw d 9 (BitVec.ofNat 32 b)) 10 (fieldPut (dw d 10) 0 5 (b / 2 ^ 32)))
  (t.wr (R.TRM_BOUND_LO k) (BitVec.ofNat 32 b)).put (F.TRM_BOUND_HI_BOUND k) (b / 2 ^ 32)

/-- Clears a region's terminator state. -/
def State.clearTrm (s : State) (r : Nat) : State := s.setDesc r (setDw (setDw (setDw (s.desc r) 8 0) 9 0) 10 0)

/-- Stops or pauses engine k in a state, with its code, and writes its record (R102, R103); one that stops re-keys nothing. -/
def State.trmStop (s : State) (k state code : Nat) : State :=
  let t := (s.put (F.TRM_STAT_STATE k) state).put (F.TRM_STAT_CODE k) code
  let t := match t.trmRegion k with
    | some r => (t.setPaused r true).storeTrm
    | none => t
  if state = 3 ∨ state = 4 then t else { t with key.trmRun := mapDel t.key.trmRun k }

/-- Engine k is carrying out a re-key: running or paused. -/
def State.trmBusy (s : State) (k : Nat) : Bool := [2, 3, 4].contains (s.get (F.TRM_STAT_STATE k))

/-- Another committed descriptor names the slot. -/
def State.namedElsewhere (s : State) (r slot : Nat) : Bool := s.rgn.descs.any (fun p => p.1 != r && dNames p.2 slot)

/-- The code that START gets (R103); 0 when the re-key starts. -/
def State.trmCheck (s : State) (k : Nat) : Nat :=
  let r := s.get (F.TRM_CTL_REGION k)
  let mode := s.get (F.TRM_CTL_MODE k)
  let key := s.get (F.TRM_KEY_KEY k)
  let d := s.desc r
  if s.trmBusy k || s.trmActive r then 1
  else if !dValid d || dType d == 1 then 2
  else if !((mode == 1 && !dKeySrc d) || (mode == 2 && dKeySrc d && dNames d key)) then 3
  else if mode == 1 && ((s.slot key).isNone || key == dKey d || s.slotNamed key) then 4
  else if mode == 2 && s.namedElsewhere r key then 5
  else if mode == 2 && !(match s.shadow k, s.slot key with
      | some w, some m => w.kgen == m.kgen + 1
      | _, _ => false) then 6
  else if [0, 1].any (fun m => (s.get (F.ORB_MIG_STAT_STATE m) == 1 || s.get (F.ORB_MIG_STAT_STATE m) == 2) &&
      s.get (F.ORB_MIG_CTL_REGION m) == r) then 7
  else 0

/-- The state of a re-key that could run: paused by PAUSE, paused by Read-only, or running. -/
def State.trmRunState (s : State) (k : Nat) : Nat :=
  if s.flag (F.TRM_CTL_PAUSE k) then 3 else if s.service = svReadOnly then 4 else 2

/-- START (R103). A refused one shows its CODE with STATE 0b111, but for an engine that is running, whose STATE stays: the rule says
nothing of it, and that it goes on is the model's choice (log 84). -/
def State.trmBegin (s : State) (k : Nat) : State :=
  match s.trmCheck k with
  | 0 =>
    let r := s.get (F.TRM_CTL_REGION k)
    let key := s.get (F.TRM_KEY_KEY k)
    let mode := s.get (F.TRM_CTL_MODE k)
    let kgen := match s.shadow k with | some w => if mode = 2 then w.kgen.toNat else 0 | none => 0
    let b := if s.flag (F.TRM_CTL_FROM_BOUND k) then
        (s.rd (R.TRM_BOUND_LO k)).toNat + 2 ^ 32 * s.get (F.TRM_BOUND_HI_BOUND k) else 0
    let w := BitVec.ofNat 32 (key + 2 ^ 14 * mode + 2 ^ 16 * k + 2 ^ 19 * kgen)
    let t := (s.setDesc r (setDw (s.desc r) 8 w)).setTrmBound r k b
    let t : State := { t with
      key.trmRun := mapPut t.key.trmRun k r
      rgn.trmCut := t.rgn.trmCut.filter (· != r) }
    let st := t.trmRunState k
    let t := (t.put (F.TRM_STAT_CODE k) 0).put (F.TRM_KEY_NEW_KGEN k) kgen
    if st = 2 then t.put (F.TRM_STAT_STATE k) 2 else t.trmStop k st 0
  | c =>
    let t := s.put (F.TRM_STAT_CODE k) c
    if s.trmBusy k then t else t.put (F.TRM_STAT_STATE k) 7

/-- PAUSE was written, or Read-only began or ended: a running or paused engine takes the state that follows. -/
def State.trmFollow (s : State) (k : Nat) : State :=
  if !s.trmBusy k then s
  else
    let was := s.get (F.TRM_STAT_STATE k)
    let st := s.trmRunState k
    if st = was then s
    else if st = 2 then
      match s.trmRegion k with
      | some r => (s.put (F.TRM_STAT_STATE k) 2).setPaused r false
      | none => s.put (F.TRM_STAT_STATE k) 2
    else s.trmStop k st 0

/-- A write of TRMk_CTL (R103, R104). -/
def State.writeTrmCtl (s : State) (p : Path) (k : Nat) (v : Word) : State :=
  if !s.mayWrite p (R.TRM_CTL k) then s
  else
    let t := s.plainWrite p (R.TRM_CTL k) v
    if (F.TRM_CTL_START k).on v then t.trmBegin k
    else if t.trmBusy k then t.trmFollow k
    else if (F.TRM_CTL_MODE k).on v then (t.put (F.TRM_STAT_STATE k) 1).put (F.TRM_STAT_CODE k) 0
    else t

/-- Nothing is stored for a logical tile: no vault line, no record, no Halo line, no bulk position. -/
def State.tileEmpty (s : State) (tile : Nat) : Bool :=
  let e := s.tileEnt tile
  !e.mapped && e.haloCnt == 0 && !s.store.vault.any (fun w => tileOfLine w.2.line == tile) &&
  !s.key.dmr.any (fun r => tileOfLine r.line == tile)

/-- Engine k's shadow becomes the main material of a key ID: what was written, or waits to be, under the shadow is under the slot
(R20, R100). -/
def State.mainMaterial (s : State) (key : Nat) (k : Fin 4) : State :=
  { s with
    key.shadows := mapDel s.key.shadows k.val
    accesses := s.accesses.map (fun a => if a.material.shadow = some k ∧ a.material.key.toNat = key then
      { a with material := ⟨a.material.key, none⟩ } else a)
    key.dmr := s.key.dmr.map (fun r => if r.shadow = some k ∧ r.key.toNat = key then { r with shadow := none } else r) }

/-- The end of a re-key (R100). -/
def State.trmFinish (s : State) (r k : Nat) : State :=
  let d := s.desc r
  let s : State := { s with key.trmRun := mapDel s.key.trmRun k }
  let t :=
    if dTrmMode d = 1 then (s.commitNow r (setDw d 2 (fieldPut (dw d 2) 0 14 (dTrmKey d)))).clearTrm r
    else
      let u := match s.shadow k with
        | some w => s.setSlot (dTrmKey d) w
        | none => s
      (u.mainMaterial (dTrmKey d) ⟨k % 4, Nat.mod_lt _ (by decide)⟩).clearTrm r
  let t := ((t.put (F.TRM_STAT_STATE k) 6).put (F.TRM_STAT_CODE k) 0).put (F.TRM_STAT_DONE_EVT k) 1
  let t := t.wr R.TRM_STATUS (t.rd R.TRM_STATUS ||| (0x10#32 <<< k))
  (t.post 0x06 0x01 r 0).storeTrm

/-- The keys that a re-key writes under. -/
def State.trmNewKeys (s : State) (d : BitVec 512) (k : Nat) : Option KeySlot :=
  if dTrmMode d = 1 then s.slot (dTrmKey d) else s.shadow k

/-- Something else holds the line (R34). -/
def State.lineBusy (s : State) (line : Nat) : Bool :=
  s.accesses.any (fun a => lineOf a.dpa == line && a.stage != .waiting) ||
  s.store.drains.any (fun q => q.way.line == line) || s.tileHeld line

/-- What the newest image of a line is to an engine that passes over its region: nothing there or nothing to do, a key missing, a failed
check, lost, or the plaintext. -/
inductive TrmImg where
  | skip
  | wait
  | macFail
  | ccFail (cp : Nat)
  | lost
  | img (l : LineImg)
deriving DecidableEq, Repr

/-- A line under neither the region's old nor its new key. In key-ID mode one of another key ID is not rewritten; in range mode every
mapped line is, and this one, whose data no key of the re-key gives, is formed wholly poisoned, as R51 has it read (log 26). -/
def trmStray (d : BitVec 512) (tag : Nat) : TrmImg := if dTrmMode d = 2 ∧ tag ≠ dTrmKey d then .skip else .lost

/-- How an engine that passes over a region's lines reads them: the key ID it uses for a line of a tag, and what a line of another
key is to it. -/
structure LineUser where
  key : Nat → Nat
  stray : Nat → TrmImg

/-- The terminator in key-ID mode uses the key it re-keys, else each line's own (R97, R99). -/
def trmUser (d : BitVec 512) : LineUser := ⟨fun tag => if dTrmMode d = 2 then dTrmKey d else tag, trmStray d⟩

/-- A line held in DDR5, to an engine: its plaintext needs no key slot (R99, R97). -/
def State.engineDdr (s : State) (d : BitVec 512) (u : LineUser) (l : LineImg) (cp : Nat) : TrmImg :=
  if carryChecks l.data ≠ l.cc then .ccFail cp
  else match s.readDdr d (u.key l.keyTag.toNat) l with
    | .mismatch => u.stray l.keyTag.toNat
    | _ => .img l

/-- What a read of a stored line is to an engine. A line of a mapped tile that was never written is stepped over: there is
nothing under the old material to rewrite, and the manual does not say that it is placed (log 26). -/
def engineRead (integ : Bool) (u : LineUser) (st : Stored) : LineRead → TrmImg
  | .unwritten => .skip
  | .mismatch => u.stray (metaTag (storedMeta st))
  | .noKey => .wait
  | .macFail => .macFail
  | .ccFail => if integ then .ccFail 6 else .lost
  | .ok l => .img l

/-- The newest image of a line and the state after its read, from `r` when it is read from media: a copy in the read cache that fails
CP5 is dropped for the next source (R90, R99). The media read is one of the N16's own (R109, R114, R115, R119, R172, R182, R184). -/
def State.newestImage (s : State) (o : Orig) (reg line : Nat) (u : LineUser) (r : MediaResult) : State × TrmImg :=
  let d := s.liveDesc reg
  let media := fun (s : State) (src : LineSrc) =>
    match src.mpa with
    | none => (s, TrmImg.skip)
    | some mpa =>
      let bulk := (match src with | .bulk _ => true | _ => false)
      match s.ownRead ⟨o, some (dClass d), some (line * 256)⟩ line mpa (!bulk) r with
      | (t, none) => (t, .lost)
      | (t, some st) =>
        let read := t.readStored d (u.key (metaTag (storedMeta st))) line bulk st
        let t := (t.countMac read).laneBusy 17
        (if read = .ccFail ∧ s.integ = false then t.ccMismatch 6 reg else t, engineRead s.integ u st read)
  match s.source line with
  | .vault _ w => (s, s.engineDdr d u w.img 4)
  | .cache _ w =>
    if carryChecks w.img.data ≠ w.img.cc then media ((s.ccMismatch 5 reg).cacheDrop line) (s.mediaSource line)
    else (s, s.engineDdr d u w.img 5)
  | src => media s src

/-- A line that an engine would read from media waits while its class's media-read bucket holds no token (R114). -/
def State.copyWaits (s : State) (reg line : Nat) : Bool := s.budgetBroken (dClass (s.desc reg)) && (s.source line).mpa.isSome

/-- How the terminator reads a line: one with a record under the record's key, so that the record merges with what was under it (R88,
R99). -/
def State.trmReader (s : State) (reg line : Nat) : LineUser :=
  match s.dmrOf line with
  | some rec => ⟨fun _ => rec.key.toNat, fun _ => .lost⟩
  | none => trmUser (s.liveDesc reg)

/-- A line's newest image to the terminator. -/
def State.trmImage (s : State) (reg line : Nat) (r : MediaResult) : State × TrmImg :=
  if s.copyWaits reg line then (s, .wait) else s.newestImage .trm reg line (s.trmReader reg line) r

/-- Cycles of 5 ns from one line to the next at (`r` + 1) × 0.5 GB/s, rounded up (R99, R104; log 76). -/
def linePace (r : Nat) : Nat := (1024 + 10 * (r + 1) - 1) / (10 * (r + 1))

/-- Engine k has a rate token: its own RATE since its last line, mark 310 + k, and RATE_CAP since the last line of all four, mark 314
(R99). -/
def State.trmPaced (s : State) (k : Nat) : Bool :=
  let cap := s.get F.TRM_CFG_RATE_CAP
  s.passed (310 + k) (linePace (s.get (F.TRM_CTL_RATE k))) && cap != 0 && s.passed 314 (linePace (cap - 1))

/-- The image needs no rewriting in key-ID mode: another key's line, or already new (R99). -/
def trmDone (d : BitVec 512) (l : LineImg) : Bool :=
  dTrmMode d == 2 && (l.keyTag.toNat != dTrmKey d || l.kgen.toNat == dTrmKgen d)

/-- Places a line under the new material and advances the boundary as one step (R99). -/
def State.trmPlace (s : State) (reg k b line : Nat) (keys : KeySlot) (old : Option LineImg) : State :=
  let d := s.desc reg
  let m : Material := ⟨BitVec.ofNat 14 (dTrmKey d), none⟩
  let img : LineImg := match old with
    | some l => { l with
        cc := carryChecks l.data
        keyTag := m.key
        kgen := keys.kgen
        integ := s.integ }
    | none => poisonLine m keys.kgen s.integ
  match s.place line (formMac keys line img) with
  | none => s
  | some t =>
    let t := (t.dmrRetire line true).setTrmBound reg k (b + 1)
    (t.laneBusy 16).add64 R.TRM_LINES_LO 1

/-- The region's class lets the terminator rewrite a line: its bucket holds the line's 256 bytes, or has no limit, and the power
bucket is positive (R99, R113, R115). -/
def State.trmAdmits (s : State) (d : BitVec 512) : Bool :=
  decide (0 < s.adm.power) && (s.flag (F.QOS_C_CFG_NOLIMIT (dClass d)) || decide (256 * 64 ≤ s.clsLevel (dClass d)))

/-- The terminator's admission of a line takes its bytes (R112, R113). -/
def State.trmTokens (s : State) (d : BitVec 512) : State :=
  if s.flag (F.QOS_C_CFG_NOLIMIT (dClass d)) then s else s.setCls (dClass d) (s.clsLevel (dClass d) - 256 * 64)

/-- A line is rewritten, or stepped over, by what its image is; `s` is the state after its read (R99). -/
def State.trmUse (s : State) (reg k b line : Nat) (keys : KeySlot) (i : TrmImg) : State :=
  let d := s.liveDesc reg
  match i, s.dmrOf line with
  | .wait, _ => s
  | .macFail, _ => s.raiseHalt 4 0 reg line false
  | .ccFail cp, _ => s.ccHalt cp reg line
  | .skip, none => s.setTrmBound reg k (b + 1)
  | .lost, none => s.trmPlace reg k b line keys none
  | .img l, none => if trmDone d l then s.setTrmBound reg k (b + 1) else s.trmPlace reg k b line keys (some l)
  | i, some rec =>
    let old := match i with
      | .img l => some l
      | .skip => some (zeroLine ⟨rec.key, rec.shadow⟩ 0 s.integ)
      | _ => none
    match s.mergeRec rec old with
    | none => s
    | some l => if trmDone d l then
          (match s.place line l with
            | some t => (t.dmrRetire line true).setTrmBound reg k (b + 1)
            | none => s)
        else s.trmPlace reg k b line keys (some l)

/-- One pass of the loop of R99 for engine k. `r` is what a media read of the line gave, after deep recovery. A pause stops it before
the next line; at the end of the region nothing is left to wait for. -/
def State.trmStep (s : State) (k : Nat) (r : MediaResult) : State :=
  match s.trmRegion k with
  | none => s
  | some reg =>
    let d := s.liveDesc reg
    let b := dTrmBound d
    let line := dBase d * 65536 + b
    if !s.trmBusy k || s.halted || !s.lit then s
    else if b ≥ dSize d * 65536 then s.trmFinish reg k
    else if s.get (F.TRM_STAT_STATE k) ≠ 2 then s
    else if s.tileEmpty (tileOfLine line) then s.setTrmBound reg k ((b / 256 + 1) * 256)
    else if s.lineBusy line || !s.trmAdmits d || !s.trmPaced k || (s.vaultRoom line).isNone ||
      ((s.source line).mpa.isSome && s.budgetBroken (dClass d)) then s
    else
      match s.trmNewKeys d k with
      | none => s
      | some keys =>
        let q := ((((s.trmTokens d).mark (310 + k)).mark 314).wake (s.accessDomains line)).trmImage reg line r
        q.1.trmUse reg k b line keys q.2

/-- TRM_STATUS as a read returns it: engines running, and done since the last read. -/
def State.trmStatus (s : State) : Word :=
  (s.rd R.TRM_STATUS &&& 0xF0#32) |||
    BitVec.ofNat 32 ((List.range 4).foldl (fun m k => if s.get (F.TRM_STAT_STATE k) = 2 then m + 2 ^ k else m) 0)

/-- A read of TRM_STATUS clears the done bits (R104). -/
def State.readTrmStatus (s : State) (p : Path) : State :=
  if s.mayRead p R.TRM_STATUS then (s.say (.regData p s.trmStatus)).wr R.TRM_STATUS 0 else s.say (.regData p 0)

/-! ### The commands -/

def execKekLoad (p : Path) (v : Word) (s : State) : Host.Outcome State Fault Refusal := .next (s.touch.writeKekCtl p v)
def execKekErase (p : Path) (v : Word) (s : State) : Host.Outcome State Fault Refusal := .next (s.touch.writeKekCtl p v)

def execKeyImport (p : Path) (v : Word) (blob : BitVec 1024) (s : State) : Host.Outcome State Fault Refusal :=
  .next (s.touch.writeLoadCtl p v blob)

def execKeyImportDone (readable : Bool) (s : State) : Host.Outcome State Fault Refusal := .next (s.importDone readable)

def execKeyUnload (p : Path) (v : Word) (s : State) : Host.Outcome State Fault Refusal := .next (s.touch.writeLoadCtl p v 0)

def execTrmArm (p : Path) (k : Fin 4) (v : Word) (s : State) : Host.Outcome State Fault Refusal :=
  .next (s.touch.writeTrmCtl p k v)
def execTrmStart (p : Path) (k : Fin 4) (v : Word) (s : State) : Host.Outcome State Fault Refusal :=
  .next (s.touch.writeTrmCtl p k v)
def execTrmPause (p : Path) (k : Fin 4) (v : Word) (s : State) : Host.Outcome State Fault Refusal :=
  .next (s.touch.writeTrmCtl p k v)

def execTrmLineRewrite (k : Fin 4) (r : MediaResult) (s : State) : Host.Outcome State Fault Refusal :=
  .next (s.trmStep k r)

def execTrmStatusRead (p : Path) (s : State) : Host.Outcome State Fault Refusal := .next (s.touch.readTrmStatus p)

end Sys2Proof.Machine
end

