-- ==== Sys2Proof/Machine/Counters.lean ====
section
/-! DEFINITION. The performance counters' and admission controller's registers (R117, R120, R126, R445), and metering
(R121 to R125). -/

namespace Sys2Proof.Machine

/-! ### Performance counters (R117, R120) -/

/-- The counter PMC_SEL selects. -/
def State.pmcSel (s : State) : Nat := s.get F.PMC_SEL_counter

def State.clearOvf (s : State) (i : Nat) : State :=
  s.wr (R.PMC_OVF (i / 32)) (s.rd (R.PMC_OVF (i / 32)) &&& ~~~ (1#32 <<< (i % 32)))

/-- Counter i at 2^48 - 1 counts once more: it wraps and sets its overflow bit (R117). -/
def State.pmcOverflow (s : State) (i : Nat) : State :=
  if s.pmcRuns i && (s.pmcAt i).count == BitVec.allOnes 48 then s.pmcBump i 1 else s

/-- A write of PMC_EVT: the selected counter's event, and the counter and its overflow bit cleared (R117). -/
def State.writePmcEvt (s : State) (p : Path) (v : Word) : State :=
  if !s.mayWrite p R.PMC_EVT then s
  else
    let i := s.pmcSel
    (s.setPmc i { s.pmcAt i with
      evt := BitVec.ofNat 8 (F.PMC_EVT_EVT.of v)
      count := 0 }).clearOvf i

/-- A write of PMC_FILT or PMC_ADDR_*: the selected counter's filters (R118). -/
def State.writePmcFilt (s : State) (p : Path) (off : Nat) (v : Word) : State :=
  if !s.mayWrite p off then s
  else
    let i := s.pmcSel
    let c := s.pmcAt i
    if off = R.PMC_FILT then s.setPmc i { c with filt := v &&& 0x0FFFFFF7#32 }
    else if off = R.PMC_ADDR_BASE_LO then s.setPmc i { c with baseLo := v &&& 0xFFFFFF00#32 }
    else if off = R.PMC_ADDR_BASE_HI then s.setPmc i { c with baseHi := v &&& 0xFFF#32 }
    else if off = R.PMC_ADDR_LIM_LO then s.setPmc i { c with limLo := v &&& 0xFFFFFF00#32 }
    else if off = R.PMC_ADDR_LIM_HI then s.setPmc i { c with limHi := v &&& 0xFFF#32 }
    else s

/-- A write of PMC_CTL: EN, FREEZE and OVF_IRQ, and CLEAR (R126). -/
def State.writePmcCtl (s : State) (p : Path) (v : Word) : State :=
  if !s.mayWrite p R.PMC_CTL then s
  else
    let t := s.plainWrite p R.PMC_CTL v
    if F.PMC_CTL_CLEAR.on v then
      let cleared := t.adm.pmc.foldl (fun m q => mapSet (fun _ => pmcInit) m q.1 { q.2 with count := 0 }) t.adm.pmc
      (List.range 16).foldl (fun s j => s.wr (R.PMC_OVF j) 0) { t with adm.pmc := cleared }
    else t

/-- A read of PMC_LOi: the low bits, with the high bits latched for PMC_HI on this path (R120). A read that PMC_USER denies returns 0;
that it leaves the path's latch as it stands is the model's choice (log 21). -/
def State.readPmcLo (s : State) (p : Path) (i : Nat) : State :=
  if !s.mayRead p (R.PMC_LO i) then s.say (.regData p 0)
  else
    let c := (s.pmcAt i).count.toNat
    (s.setPath p { s.path p with pmcHi := c / 2 ^ 32 }).say (.regData p (BitVec.ofNat 32 c))

/-! ### The admission controller's registers (R126, R445) -/

/-- A write of QOS_Cc_RATE: what the bucket holds above a lowered BURST is lost (R445). -/
def State.writeRate (s : State) (p : Path) (c : Nat) (v : Word) : State :=
  if !s.mayWrite p (R.QOS_C_RATE c) then s
  else
    let t := s.plainWrite p (R.QOS_C_RATE c) v
    t.setCls c (min (t.clsLevel c) (t.clsCap c))

/-- A write of QOS_Cc_MRATE, in the same way (R445). -/
def State.writeMrate (s : State) (p : Path) (c : Nat) (v : Word) : State :=
  if !s.mayWrite p (R.QOS_C_MRATE c) then s
  else
    let t := s.plainWrite p (R.QOS_C_MRATE c) v
    t.setMread c (min (t.mreadLevel c) (t.mreadCap c))

/-- QOS_Cc_LEVEL: tokens in KiB and media-read tokens, two's complement (R126). -/
def State.levelWord (s : State) (c : Nat) : Word :=
  BitVec.ofNat 32 ((s.clsLevel c / 65536).toNat % 65536 + 65536 * twos 16 (s.mreadLevel c / 200))

/-- A read of QOS_Cc_WAITMAX returns it and clears it (R126). -/
def State.readWaitmax (s : State) (p : Path) (c : Nat) : State :=
  if !s.mayRead p (R.QOS_C_WAITMAX c) then s.say (.regData p 0)
  else (s.say (.regData p (s.rd (R.QOS_C_WAITMAX c)))).put (F.QOS_C_WAITMAX_longest c) 0

/-! ### Metering (R121 to R125) -/

/-- Bits 0 to 4 of a buffer's flags: MET_EN, VALID, SKIPPED, RESTORED, LOST (R123). -/
def metFlags (d : BitVec 512) (skipped restored lost : Bool) : BitVec 5 :=
  BitVec.ofNat 5 ((if dMetEn d then 1 else 0) + (if dValid d then 2 else 0) + (if skipped then 4 else 0) +
    (if restored then 8 else 0) + (if lost then 16 else 0))

/-- Latches region r's counters into buffer (e mod 2) at the end of epoch e (R122, R123). -/
def State.latch (s : State) (r e : Nat) : State :=
  let m := s.met r
  let d := s.desc r
  let skipped := match s.rgn.skipLast with | some q => decide (m.since ≤ q) | none => false
  let b : MetBuf := ⟨BitVec.ofNat 64 e, BitVec.ofNat 64 s.aonTick.toNat, m.live, dGen d,
    metFlags d skipped m.restored m.lost⟩
  let m := { m with
    restored := false
    lost := false
    since := e + 1
    finalDue := false }
  s.setMet r (if e % 2 = 0 then { m with buf0 := b } else { m with buf1 := b })

/-- The regions whose counters a boundary latches: the valid ones, and those that became invalid since (R124). -/
def State.latched (s : State) : List Nat :=
  (s.rgn.descs.filter (fun p => dValid p.2 || (s.met p.1).finalDue)).map (·.1)

/-- The length of an epoch in AON ticks (R122). -/
def State.epochTicks (s : State) : Nat := s.get F.MET_CFG_EPOCH_S * 32768

/-- The AON tick at which the next epoch boundary falls: boundary 0 at the first epoch's length from POR (R122). -/
def State.boundaryAt (s : State) : Nat := s.rgn.nextBoundary.getD s.epochTicks

/-- The epoch boundary that is due falls (R122, R124): a changed EPOCH_S counts from it on. -/
def State.epochEnd (s : State) : State :=
  let e := s.rgn.epoch
  let t : State := { s with
    rgn.epoch := e + 1
    rgn.nextBoundary := some (s.boundaryAt + s.epochTicks) }
  if s.aonTick.toNat < s.boundaryAt then s
  else if !s.lit then { t with rgn.skipLast := some e }
  else
    let t : State := { s.latched.foldl (fun s r => s.latch r e) t with rgn.skipLast := none }
    let t := (t.wr64 R.MET_EPOCH_LO e).wr64 R.MET_TICK_LO s.aonTick.toNat
    let t := t.put F.MET_STAT_BUF (e % 2)
    if t.flag F.MET_STAT_SWEEP then
      { (t.put F.MET_STAT_OVERRUN 1).sat F.MET_OVERRUN_CNT_overruns 1 with rgn.sweepPending := t.rgn.sweepPending + 1 }
    else t.put F.MET_STAT_SWEEP 1

/-- The background sweep ends, and one that waited begins (R122, R124). Its duration is a free value within 250 ms. -/
def State.sweepDone (s : State) : State :=
  if !s.flag F.MET_STAT_SWEEP then s
  else
    let (f, t) := s.fresh
    let t := t.put F.MET_SWEEP_US_duration (f.toNat % 250001)
    if t.rgn.sweepPending = 0 then t.put F.MET_STAT_SWEEP 0
    else { t with rgn.sweepPending := t.rgn.sweepPending - 1 }

/-- Logical tiles of a region that hold any data (R121). -/
def State.tilesHeld (s : State) (d : BitVec 512) : Nat :=
  let inside := fun (t : Nat) => decide (dBase d * 256 ≤ t) && decide (t < (dBase d + dSize d) * 256)
  let ts := (s.store.map.filter (fun p => p.2.mapped || p.2.haloCnt != 0)).map (·.1) ++
    s.store.vault.map (fun w => tileOfLine w.2.line) ++ s.key.dmr.map (fun r => tileOfLine r.line)
  (ts.filter inside).eraseDups.length

/-- The occupancy tick, in Lit and Dim only, every 1,024 AON ticks, which are 6,250,000 cycles of 5 ns; mark 330 is the last (R121). -/
def State.occupancy (s : State) : State :=
  if !s.lit || !s.passed 330 6250000 then s
  else (s.rgn.descs.foldl (fun t p => if dValid p.2 then t.meter p.1 p.2 .tileTicks (s.tilesHeld p.2) else t) s).mark 330

/-! ### The commands -/

def execPmcOverflow (i : Fin 512) (s : State) : Host.Outcome State Fault Refusal := .next (s.pmcOverflow i)
def execPmcEvtWrite (p : Path) (v : Word) (s : State) : Host.Outcome State Fault Refusal := .next (s.touch.writePmcEvt p v)
def execPmcClear (p : Path) (v : Word) (s : State) : Host.Outcome State Fault Refusal := .next (s.touch.writePmcCtl p v)
def execPmcLoRead (p : Path) (i : Fin 512) (s : State) : Host.Outcome State Fault Refusal := .next (s.touch.readPmcLo p i)

def execQosRateWrite (p : Path) (c : Fin 8) (v : Word) (s : State) : Host.Outcome State Fault Refusal :=
  .next (s.touch.writeRate p c v)

def execQosMrateWrite (p : Path) (c : Fin 8) (v : Word) (s : State) : Host.Outcome State Fault Refusal :=
  .next (s.touch.writeMrate p c v)

def execQosWaitmaxRead (p : Path) (c : Fin 8) (s : State) : Host.Outcome State Fault Refusal := .next (s.touch.readWaitmax p c)

def execEpochBoundary (s : State) : Host.Outcome State Fault Refusal := .next s.epochEnd
def execMeteringSweepDone (s : State) : Host.Outcome State Fault Refusal := .next s.sweepDone
def execOccupancyTick (s : State) : Host.Outcome State Fault Refusal := .next s.occupancy

end Sys2Proof.Machine
end

