-- ==== Sys2Proof/Machine/Axes.lean ====
section
/-! DEFINITION. The service axis as a function of its conditions (R389), and what follows from a change of it: device-wide
events (R64, R189), the ports' holds (R66), the terminator's pauses (R103), FRESH (R159), the seal (R416) and Orbit's role
(R293). -/

namespace Sys2Proof.Machine

/-- A host port, DDR5 channel, engine cluster or Orbit link is retired on the unit-state board (R389). -/
def State.unitRetired (s : State) : Bool :=
  s.board.ents.any (fun p => p.2.st == ustRetired && [0, 1, 4, 5].contains (unitKind p.1))

/-- A bit of MODE_HOLD_WHY is 1. -/
def State.heldWhy (s : State) : Bool := s.rd R.MODE_HOLD_WHY != 0

/-- The service mode whose condition holds first (R389); Dark keeps Hold unless Halted (R387). -/
def State.serviceTarget (s : State) : Nat :=
  if s.key.haltedRun then svHalted
  else if s.power = pwDark || s.heldWhy then svHold
  else if s.get F.MED_HEALTH_RO_CAUSE ≠ 0 then svReadOnly
  else if s.flag F.MED_HEALTH_MEDIA_DEGRADED || s.unitRetired then svDegraded
  else svNormal

/-- Orbit stops in Halted, Hold and Vendor-debug, is off without ORB_CFG.EN, and otherwise starts alone (R293). -/
def State.orbitFollow (s : State) : State :=
  if !s.flag F.ORB_CFG_EN then s.put F.ORB_STAT_ROLE roleOff
  else if s.service = svHold || s.halted || s.trust = trVendor then s.put F.ORB_STAT_ROLE roleStopped
  else if s.role = roleOff || s.role = roleStopped then
    (((s.put F.ORB_STAT_ROLE roleAlone).put F.ORB_PLANET_PLANET 0).put F.ORB_PLANET_KNOWN 0).put F.ORB_PLANET_NAMED 0 |>.mark 71
  else s

/-- What a change of the service axis brings; the engines' STATE follows it (R238). -/
def State.serviceMoved (s : State) (old new : Nat) : State :=
  let s := s.put F.MED_HEALTH_READ_ONLY (if new = svReadOnly then 1 else 0)
  let s := if new = svReadOnly then s.cxlEventAll .warn "memory module: read-only begun" 0
    else if old = svReadOnly then s.cxlEventAll .warn "memory module: read-only ended" 0 else s
  let s := if new = svHalted then s.cxlEventAll .fatal "memory module: halted" 0 else s
  let s : State := if old = svHold then
      let t : State := { s with
        seq.left := true
        store.fmt := s.store.fmt.map (fun f => { f with fresh := false }) }
      t.put F.BOOT_STAT_SEALED 1
    else s
  let s := ((List.range 4).foldl (fun s k => s.trmFollow k) s.updatePorts).orbitFollow
  s.clu.engs.foldl (fun s q => s.put (F.ENGE_STAT_STATE q.1) (s.engState q.1)) s

/-- Evaluates the service axis again after a change of its conditions, with the cause of R384. -/
def State.reservice (s : State) (cause : Nat) : State :=
  let old := s.service
  let new := s.serviceTarget
  if new = old then s else (s.setService new cause).serviceMoved old new

/-- Sets or clears a bit of MODE_HOLD_WHY (R390). -/
def State.hold (s : State) (f : Fld) (on : Bool) (cause : Nat) : State :=
  (s.put f (if on then 1 else 0)).reservice cause

end Sys2Proof.Machine
end

