-- ==== Sys2Proof/Machine/Groups.lean ====
section
/-! DEFINITION. Tile groups as a whole (R128, R143, R149, R179 to R181): their states, free positions and reserve, the counts
of spares and wear that MED_HEALTH shows (R185, R186), and the Read-only causes (R184, R187, R188). -/

namespace Sys2Proof.Machine

/-! ### Units out of service (R180) -/

/-- The tile of group g on die d is retired. -/
def State.tileOut (s : State) (g d : Nat) : Bool :=
  (s.group g).retired.getLsbD d || s.unitOut (groupCh g) d (groupPlane g)

/-- Dies of a channel and plane that are out as units. -/
def State.diesGone (s : State) (c p : Nat) : Nat := (List.range 16).countP (fun d => s.unitOut c d p)

/-- Tiles of group g that are retired. -/
def State.tilesGone (s : State) (g : Nat) : Nat := (List.range 16).countP (fun d => s.tileOut g d)

/-- Data positions that group g has left. -/
def State.groupCap (s : State) (g : Nat) : Nat := 15 - s.tilesGone g

/-- The die that takes a group's parity: the first from t mod 16 on whose tile is not retired (R128, R181). -/
def State.parityFor (s : State) (g : Nat) : Nat :=
  let t := groupTile s.haloTiles g % 16
  (((List.range 16).map (fun i => (t + i) % 16)).find? (fun d => !s.tileOut g d)).getD t

/-- The dies of a group's data positions. -/
def State.dataDies (s : State) (g : Nat) : List Nat :=
  (List.range 16).filter (fun d => d != (s.group g).parityDie && !s.tileOut g d)

/-- Every data position is dead or void (R149). -/
def State.allDead (s : State) (g : Nat) : Bool :=
  let e := s.group g
  (List.range 16).all (fun d => d == e.parityDie || !e.live.getLsbD d)

/-! ### States of groups -/

/-- The state of a group: groups as the format left them are metadata, reserve or reclaimable by their number (R128, R160,
R187). -/
def State.groupState (s : State) (g : Nat) : GroupSt :=
  match (s.group g).st with
  | .asFormat => if g < metaGroups then .metadata else if g < metaGroups + 128 then .reserve else .reclaimable
  | st => st

/-- Groups of each channel and plane. -/
def State.groupsPer (s : State) : Nat := 131072 - s.haloTiles

/-- Reclaimable groups of a channel and plane that have not changed since the format. -/
def State.untouched (s : State) (key : Nat) : Nat :=
  if s.store.fmt.isNone then 0
  else s.groupsPer - (metaGroups + 127 - key) / 128 - 1 -
    s.store.groups.countP (fun p => groupKey p.1 == key && decide (metaGroups + 128 ≤ p.1))

/-- Listed groups in a state. -/
def State.groupsIn (s : State) (st : GroupSt) : List Nat :=
  (s.store.groups.filter (fun p => s.groupState p.1 == st)).map (·.1)

def State.freeOn (s : State) (c : Nat) : Nat := (s.groupsIn .free).countP (fun g => groupCh g == c)

def State.reclOn (s : State) (c : Nat) : Nat :=
  (s.groupsIn .reclaimable).countP (fun g => groupCh g == c) +
  (List.range 4).foldl (fun n p => n + s.untouched (p * 32 + c)) 0

/-- Groups of the reserve left on a channel (R187). -/
def State.reserveOn (s : State) (c : Nat) : Nat :=
  (List.range 4).countP (fun p =>
      let g := metaGroups + (p * 32 + c + 128 - metaGroups % 128) % 128
      s.groupState g == .reserve) +
  s.store.groups.countP (fun q => groupCh q.1 == c && decide (metaGroups + 128 ≤ q.1) && q.2.st == .reserve)

/-- F of R188: free data positions outside the reserve. -/
def State.freePositions (s : State) : Nat :=
  let fresh := (List.range 128).foldl (fun n k =>
    if s.chanOut (k % 32) then n else n + s.untouched k * (15 - s.diesGone (k % 32) (k / 32))) 0
  let listed := s.store.groups.foldl (fun n q =>
    if s.chanOut (groupCh q.1) then n
    else match s.groupState q.1 with
      | .free => n + s.groupCap q.1
      | .reclaimable => n + s.groupCap q.1
      | .opened => n + (match mapGet? s.store.opened (groupKey q.1) with
          | some o => (s.dataDies q.1).countP (fun d => !o.placed.contains d)
          | none => 0)
      | _ => n) 0
  fresh + listed

/-- Live positions of a group. -/
def State.liveCount (s : State) (g : Nat) : Nat := (List.range 16).countP (fun d => (s.group g).live.getLsbD d)

/-- G of R188: the least live count among the closed groups. -/
def State.leastLive (s : State) : Nat :=
  match (s.groupsIn .closed).map s.liveCount with
  | [] => 0
  | n :: ns => ns.foldl min n

/-- The free group of a channel and plane with the lowest generation, and among equals the lowest tile index (R179). -/
def State.bestFree (s : State) (p : Nat → Bool) : Option Nat :=
  ((s.groupsIn .free).filter p).foldl (fun b g => match b with
    | none => some g
    | some h => if (s.group g).gen < (s.group h).gen then some g else some h) none

/-- Refills each channel's reserve from free groups, ahead of any fold (R187). -/
def State.refillReserve (s : State) (c : Nat) : State :=
  (List.range 4).foldl (fun s _ =>
    if s.reserveOn c ≥ 4 || s.chanOut c then s
    else match s.bestFree (fun g => groupCh g == c) with
      | some g => s.setGroup g { s.group g with st := .reserve }
      | none => s) s

/-- The group of the reserve that replaces a metadata group of channel c, the first by number (R187, R190). -/
def State.reserveGroup (s : State) (c : Nat) : Option Nat :=
  let placed := (List.range 4).map (fun p => metaGroups + (p * 32 + c + 128 - metaGroups % 128) % 128)
  let listed := (s.store.groups.filter (fun q => groupCh q.1 == c && decide (metaGroups + 128 ≤ q.1))).map (·.1)
  (placed ++ listed).find? (fun g => s.groupState g == .reserve)

/-- Groups of the reserve take the place of metadata positions that retired, as far as they are owed, and the reserve is refilled from
free groups, as far as there are any (R187, R190). -/
def State.spareMeta (s : State) (c : Nat) : Nat → State
  | 0 => s
  | n + 1 => match (mapGet? s.wear.metaOwed c).getD 0, s.reserveGroup c with
    | k + 1, some g =>
      let t := s.setGroup g { s.group g with st := .metadata }
      (State.refillReserve { t with wear.metaOwed := mapSet (fun _ => 0) t.wear.metaOwed c k } c).spareMeta c n
    | _, _ => s

/-! ### Counts shown (R161, R185, R191) -/

def State.showGroups (s : State) : State :=
  let chans := List.range 32
  let t := chans.foldl (fun s c =>
    (s.put (F.FOLD_CH_FREE_free c) (s.freeOn c)).put (F.FOLD_CH_RECL_reclaimable c) (s.reclOn c)) s
  let t := t.put F.FOLD_FREE_free (chans.foldl (fun n c => n + s.freeOn c) 0)
  let t := t.put F.FOLD_RECL_reclaimable (chans.foldl (fun n c => n + s.reclOn c) 0)
  t.put F.FOLD_VOID_void (s.store.groups.foldl (fun n q => n + (List.range 16).countP (fun d => q.2.void.getLsbD d)) 0)

/-- Shows the count of mapped tiles (R161). -/
def State.showMapped (s : State) : State :=
  s.wr R.MAP_MAPPED_TILES (BitVec.ofNat 32 (s.store.map.countP (fun p => p.2.mapped)))

/-- SP0: the spares at format, 4 % of the data positions (R185). -/
def State.sparesAtFormat (s : State) : Nat := s.groupsPer * 128 * 15 * 4 / 100

/-- Data positions of channel c that are out of service (R183, R184). -/
def State.positionsOut (s : State) (c : Nat) : Nat :=
  if s.chanOut c then s.groupsPer * 60
  else
    (List.range 4).foldl (fun n p => n + min 15 (s.diesGone c p) * s.groupsPer) 0 +
    s.store.groups.foldl (fun n q => if groupCh q.1 = c then
      n + (min 15 (s.tilesGone q.1) - min 15 (s.diesGone c (groupPlane q.1))) else n) 0

/-- Data positions retired on channel c since the format (R185, R191). -/
def State.retiredOn (s : State) (c : Nat) : Nat := s.positionsOut c - (mapGet? s.wear.retiredAtFormat c).getD 0

def State.retiredAll (s : State) : Nat := (List.range 32).foldl (fun n c => n + s.retiredOn c) 0

/-- SPARE_PCT (R185). -/
def State.sparePct (s : State) : Nat := 100 * (s.sparesAtFormat - s.retiredAll) / max 1 s.sparesAtFormat

/-- Groups in service, of a channel or of all of them. -/
def State.inService (s : State) (c : Option Nat) : Nat :=
  let gone := s.store.groups.countP (fun q => s.groupState q.1 == .retired &&
    (match c with | some c => groupCh q.1 == c | none => true))
  (match c with | some _ => s.groupsPer * 4 | none => s.groupsPer * 128) - gone

/-- Group g is on channel c, when one is named. -/
def onChan (c : Option Nat) (g : Nat) : Bool := match c with | some c => groupCh g == c | none => true

/-- Groups from `first` on, `n` of them, that are on channel c. -/
def chanCount (c : Option Nat) (first n : Nat) : Nat :=
  match c with
  | some c => (first + n + 31 - c) / 32 - (first + 31 - c) / 32
  | none => n

/-- Groups of a role that are not listed, of a channel or of all of them. -/
def State.unlisted (s : State) (role : Nat) (c : Option Nat) : Nat :=
  chanCount c (rolePlaces role).1 (rolePlaces role).2 - s.store.groups.countP (fun q => inRole role q.1 && onChan c q.1)

def State.roleGen (s : State) (role : Nat) : Nat := (mapGet? s.store.roleGens role).getD 0

/-- Generations summed over the groups in service, of a channel or of all of them. -/
def State.genSum (s : State) (c : Option Nat) : Nat :=
  s.store.groups.foldl (fun n q => if s.groupState q.1 != .retired && onChan c q.1 then n + q.2.gen else n)
    ((List.range 5).foldl (fun n r => n + s.roleGen r * s.unlisted r c) 0)

def State.genMean (s : State) (c : Nat) : Nat := s.genSum (some c) / max 1 (s.inService (some c))

def State.genMax (s : State) (c : Nat) : Nat :=
  s.store.groups.foldl (fun n q => if groupCh q.1 = c ∧ s.groupState q.1 ≠ .retired then max n q.2.gen else n)
    ((List.range 5).foldl (fun n r => if s.unlisted r (some c) = 0 then n else max n (s.roleGen r)) 0)

/-- The lowest generation on a channel among the groups in service. -/
def State.genMin (s : State) (c : Nat) : Nat :=
  let l := s.store.groups.filter (fun q => groupCh q.1 == c)
  let roles := (List.range 5).foldl (fun n r => n + s.unlisted r (some c)) 0
  if l.length + roles < s.groupsPer * 4 then 0
  else l.foldl (fun n q => min n q.2.gen)
    ((List.range 5).foldl (fun n r => if s.unlisted r (some c) = 0 then n else min n (s.roleGen r)) (s.genMax c))

/-- A Halo slot lies on a retired unit (R180). -/
def State.slotOut (s : State) (k : Nat) : Bool :=
  let m := slotMpa k
  s.chanOut (mpaCh m) || s.unitOut (mpaCh m) (mpaDie m) (mpaPlane m)

/-- Halo slots marked BAD, or on a retired unit. -/
def State.badSlots (s : State) : Nat :=
  let planes := (List.range 2048).countP (fun i => s.chanOut (i / 64) || s.unitOut (i / 64) (i / 4 % 16) (i % 4))
  s.store.halo.countP (fun p => p.2.bad && !s.slotOut p.1) + planes * s.haloTiles * 64

/-- LIFE_USED (R185). -/
def State.lifeUsed (s : State) : Nat :=
  let a := 100 * s.genSum none / (max 1 (s.inService none) * 100000)
  let b := 100 * s.wear.prog1 / (max 1 (s.haloSlots - s.badSlots) * 50000000)
  min 100 (max a (max b (100 - s.sparePct)))

/-- The WARN that a SPARE_PCT calls for (R186). -/
def warnFor (pct : Nat) : Nat := if pct ≤ 2 then 3 else if pct ≤ 10 then 2 else if pct ≤ 25 then 1 else 0

/-- Issues each health warning reached for the first time since the format, in order; WARN itself follows SPARE_PCT (R186, R191). -/
def State.issueWarnings (s : State) : State :=
  let w := warnFor s.sparePct
  let t := ([1, 2, 3].filter (fun i => decide (s.wear.warned < i) && decide (i ≤ w))).foldl (fun s i =>
    (s.post 0x04 0x02 0 i).cxlEventAll (if i = 3 then .failure else .warn) "memory module: health status change" i) s
  { t.put F.MED_HEALTH_WARN w with wear.warned := max w s.wear.warned }

def State.planeBits (s : State) (c : Nat) : Nat :=
  (List.range 64).foldl (fun n i => if s.unitOut c (i / 4) (i % 4) || s.chanOut c then n + 2 ^ i else n) 0

/-- Shows retirement, wear and health (R185, R191), with the warnings of R186. -/
def State.showHealth (s : State) : State :=
  let t := (List.range 32).foldl (fun s c =>
    let u := s.put (F.MED_RETIRED_POS_data c) (s.retiredOn c)
    let u := (u.put (F.MED_WGEN_mean c) (min 65535 (s.genMean c / 2))).put (F.MED_WGEN_highest c) (min 65535 (s.genMax c / 2))
    (u.wr (R.MED_PLANE_RET_LO c) (BitVec.ofNat 32 (s.planeBits c))).wr (R.MED_PLANE_RET_HI c)
      (BitVec.ofNat 32 (s.planeBits c / 2 ^ 32))) s
  let t := (List.range 32).foldl (fun s c =>
    let out := (List.range 16).filter (fun d => s.wear.diesOut.contains (dieIdx c d))
    (s.put (F.MED_DIE_FAILED_bit c) (out.foldl (fun n d => n + 2 ^ d) 0)).put (F.MED_STAT_DIES_UP c)
      (if [2, 3, 4].contains (s.get (F.MED_STAT_STATE c)) then 16 - out.length else 0)) t
  let t := (t.put F.MED_HEALTH_SPARE_PCT s.sparePct).put F.MED_HEALTH_LIFE_USED s.lifeUsed
  let gone := !(s.wear.planesOut.isEmpty && s.wear.diesOut.isEmpty && s.wear.chansOut.isEmpty)
  let t := t.put F.MED_HEALTH_MEDIA_DEGRADED (if gone then 1 else 0)
  (t.put F.MED_HEALTH_REBUILD (if s.wear.evac.isEmpty then 0 else 1)).issueWarnings

/-! ### Read-only causes (R184, R187, R188) -/

/-- Groups are in service: the media are formatted. -/
def State.formatted (s : State) : Bool := s.get F.MAP_STAT_FMT == 1

/-- The cause that RO_CAUSE shows: the first of 0b11, 0b10 and 0b01 that holds (R188). -/
def State.roCause (s : State) : Nat :=
  if !s.formatted then 0
  else if !s.wear.chansOut.isEmpty then 3
  else if (List.range 32).any (fun c => !s.chanOut c && decide (s.reserveOn c < 4)) then 2
  else if s.wear.roFree then 1
  else 0

/-- Groups or units changed: counts, health, Read-only causes and the service axis follow. -/
def State.settleGroups (s : State) : State :=
  let s := (List.range 32).foldl (fun s c => (s.refillReserve c).spareMeta c ((mapGet? s.wear.metaOwed c).getD 0)) s
  let f := s.freePositions
  let g := s.leastLive
  let ro := s.formatted && (decide (f ≤ g) || (s.wear.roFree && decide (f < g + 481)))
  let t := State.showHealth { s.showGroups with wear.roFree := ro }
  (t.put F.MED_HEALTH_RO_CAUSE t.roCause).reservice (if t.roCause = s.get F.MED_HEALTH_RO_CAUSE then 3 else 4)

/-! ### Positions (R146, R149, R151, R180) -/

/-- Marks a data position dead; its closed group may become reclaimable (R146, R149). -/
def State.markDead (s : State) (pos : Nat) : State :=
  let g := posGroup s.haloTiles pos
  let e := s.group g
  let t := s.setGroup g { e with
    live := e.live &&& ~~~ bit16 (posDie pos)
    dead := e.dead ||| bit16 (posDie pos) }
  if e.st = .closed ∧ t.allDead g = true then
    (t.setGroup g { t.group g with st := .reclaimable }).logDelta (.groupReclaimable g)
  else t

/-- Retires a position at once (R180). -/
def State.retirePos (s : State) (pos : Nat) : State :=
  let g := posGroup s.haloTiles pos
  let e := s.group g
  let t := s.setGroup g { e with
    live := e.live &&& ~~~ bit16 (posDie pos)
    retired := e.retired ||| bit16 (posDie pos) }
  (t.logDelta (.posRetired pos)).post 0x04 0x01 (pos * 256) 0

/-- Unmaps a logical tile: its map entry, Halo slots, vault ways and records go (R56, R149, R234). A fold of it in flight is
discarded at its commit (R148). -/
def State.unmapTile (s : State) (tile : Nat) : State :=
  let e := s.tileEnt tile
  let t := (s.store.halo.filter (fun p => p.2.valid && tileOfLine p.2.line == tile)).foldl (fun s p => s.haloFreeSlot p.1) s
  let ways := (t.store.vault.filter (fun p => tileOfLine p.2.line == tile)).map (·.1)
  let t := ways.foldl (fun s loc => s.vaultDrop loc) t
  let t := t.setDmr (t.key.dmr.filter (fun r => tileOfLine r.line != tile))
  let cached := (t.store.cache.filter (fun p => tileOfLine p.2.line == tile)).map (·.2.line)
  let t := cached.foldl (fun s l => s.cacheDrop l) t
  let t : State := { t with store.poison := mapFilter (fun h _ => h / 1024 != tile) t.store.poison }
  let hits := (t.clu.lines.filter (fun q => q.2.hl / 1024 == tile)).map (fun q => (q.1 / 65536, q.2.hl / 4))
  let t := ((t.ccDropAll (fun _ c => c.hl / 1024 == tile)).add64 R.ENG_CC_INV_LO hits.eraseDups.length).showPoison
  let t := t.dropFills (fun l => l / 256 == tile) ((List.range 256).map (tile * 256 + ·))
  let t := if e.mapped then (t.markDead e.pos).logDelta (.mapClear tile) else t
  let t : State := { t with store.folds := t.store.folds.map (fun f => if f.tile = tile then { f with gone := true } else f) }
  (t.setTile tile { mapEnt0 with
    haloCnt := (t.tileEnt tile).haloCnt
    folding := e.folding }).showMapped

/-- A walking engine takes a released tile: 256 nJ, and one more tile walked (R115, R234). -/
def State.walkTile (s : State) (tile : Nat) : State :=
  ((s.unmapTile tile).charge 256).add64 R.ENG_ZERO_TILES_LO 1

/-! ### Units that evacuate (R180, R182) -/

/-- A position lies on a unit that evacuates or is rebuilt (R182). -/
def State.onEvac (s : State) (g d : Nat) : Bool :=
  s.wear.evac.contains (planeId (groupCh g) d (groupPlane g)) || s.wear.evac.contains (2048 + dieIdx (groupCh g) d)

/-- A Halo slot lies on a unit that evacuates (R182). -/
def State.slotEvac (s : State) (k : Nat) : Bool :=
  let m := slotMpa k
  s.wear.evac.contains (planeId (mpaCh m) (mpaDie m) (mpaPlane m)) || s.wear.evac.contains (2048 + dieIdx (mpaCh m) (mpaDie m))

/-- The logical tiles that own a valid Halo line on slots that `p` names. -/
def State.haloOwners (s : State) (p : Nat → Bool) : List Nat :=
  ((s.store.halo.filter (fun q => q.2.valid && p q.1)).map (fun q => tileOfLine q.2.line)).eraseDups

/-- The owners of Halo lines on units that evacuate go to refresh folds, when an evacuation begins and again at a start that finds
one unfinished (R182, R190). -/
def State.evacFolds (s : State) : State :=
  { s with wear.refresh := (s.haloOwners s.slotEvac).foldl addOnce s.wear.refresh }

/-- An evacuation of a plane or a die begins (R182). -/
def State.beginEvac (s : State) (u : Nat) : State :=
  let t := State.evacFolds { s with wear.evac := addOnce s.wear.evac u }
  (if u ≥ 2048 then t.setUnit (48 + (u - 2048)) ustEvac else t).settleGroups

/-- Retired positions of a plane; at 4,096 of them the plane evacuates (R180). -/
def State.checkPlane (s : State) (c d p : Nat) : State :=
  let n := s.store.groups.countP (fun q => groupCh q.1 == c && groupPlane q.1 == p && q.2.retired.getLsbD d)
  if decide (n ≥ 4096) && !s.unitOut c d p && !s.wear.evac.contains (planeId c d p) then s.beginEvac (planeId c d p) else s

/-- A position is retired at once, and its plane checked (R180). -/
def State.retireNow (s : State) (pos : Nat) : State :=
  let g := posGroup s.haloTiles pos
  (s.retirePos pos).checkPlane (groupCh g) (posDie pos) (groupPlane g)

/-! ### Metadata groups (R128, R178, R179, R187) -/

/-- The group that has a role's place. -/
def State.roleGroup (s : State) (i : Nat) : Nat := (mapGet? s.wear.roles i).getD i

/-- A metadata group has worn out: its positions are retired, and a group of the reserve takes its place (R178, R187). -/
def State.replacePlace (s : State) (i : Nat) : State :=
  let g := s.roleGroup i
  let t := s.setGroup g { s.group g with st := .retired }
  let t := ((List.range 16).filter (fun d => !(s.group g).retired.getLsbD d)).foldl
    (fun s d => s.retirePos (groupPos s.haloTiles g d)) t
  match t.reserveGroup (groupCh g) with
  | some h => { t.setGroup h { t.group h with st := .metadata } with
      wear.roles := mapPut t.wear.roles i h
      wear.roleDue := t.wear.roleDue.filter (· != i) }
  | none => t

/-- Metadata groups of a channel and plane, those that the format placed. -/
def metaOn (c p : Nat) : Nat := (metaGroups + 127 - (p * 32 + c)) / 128

/-- The metadata positions of planes that retire are to be replaced from the reserve, 16 to a group (R187, R190). -/
def State.replaceMeta (s : State) (c : Nat) (planes : List Nat) : State :=
  let n := (planes.foldl (fun n p => n + metaOn c p) 0 + 15) / 16
  if s.store.fmt.isNone || n = 0 then s
  else { s with wear.metaOwed := mapSet (fun _ => 0) s.wear.metaOwed c ((mapGet? s.wear.metaOwed c).getD 0 + n) }

end Sys2Proof.Machine
end

