-- ==== Sys2Proof/Machine/Fold.lean ====
section
/-! DEFINITION. The way from the vault to bulk: drain (R134, R135, R139, R175), fold (R145 to R148), garbage collection
(R150, R179, R181), open groups (R143), reclaim (R149, R178, R180) and the retirement of Halo tiles (R174). -/

namespace Sys2Proof.Machine

/-! ### When background work may be issued (R91 step 5, R115, R156 step 2) -/

def State.backgroundRuns (s : State) : Bool :=
  s.lit && !s.halted && s.formatted && s.store.imageRun.isNone && decide (0 < s.adm.power)

/-! ### Drain (R134, R135) -/

/-- The slot that a vault line drains under: META.KEY_TAG and META.KGEN under R97. -/
def State.drainKeys (s : State) (w : VaultWay) : Option KeySlot :=
  let tag := w.img.keyTag.toNat
  match s.regionAt (w.line * 256) with
  | none => s.slot tag
  | some (_, d) =>
    if dTrmMode d = 2 ∧ tag = dTrmKey d then
      match s.slot tag, s.shadow (dTrmEngine d) with
      | some m, some x => if m.kgen = w.img.kgen then some m else if x.kgen = w.img.kgen then some x else none
      | some m, none => if m.kgen = w.img.kgen then some m else none
      | none, some x => if x.kgen = w.img.kgen then some x else none
      | none, none => none
    else s.slot tag

/-- A write waits for the set of a location (R133). -/
def State.setWaits (s : State) (loc : Nat) : Bool :=
  s.accesses.any (fun a => a.write && !a.device && (s.vaultRoom (lineOf a.dpa)).isNone && setOf s.vaultSets (lineOf a.dpa) == loc / 16)

/-- Units of 31.25 ms since a line was last written, modulo 2^32 (R132). -/
def State.stampAge (s : State) (w : VaultWay) : Nat := (s.stampNow - w.stamp).toNat

/-- The line is older than AGE_MS (R134). -/
def State.aged (s : State) (w : VaultWay) : Bool :=
  s.get F.MAP_VAULT_CFG_AGE_MS != 0 && decide (s.stampAge w * 125 > s.get F.MAP_VAULT_CFG_AGE_MS * 4)

def State.bucketOf (s : State) (line : Nat) : Nat := lineHash line * s.haloBuckets / 2 ^ 32

/-- All 16 ways of the line's bucket are BAD (R175). -/
def State.bucketDead (s : State) (line : Nat) : Bool :=
  (s.bucketSlots line).all (fun k => s.slotOut k || (match mapGet? s.store.halo k with | some e => e.bad | none => false))

/-- A Halo slot that a line is drained to may be programmed: not on a unit that is retired or evacuates, and not in a 1-bit tile that
retires (R174, R180, R182). -/
def State.slotServes (s : State) (k : Nat) : Bool :=
  !s.slotOut k && !s.slotEvac k && !s.wear.haloTiles.contains (k / 64 * 64)

/-- The slot a drain programs: the one that holds the line, or the lowest free way that no drain in flight has taken (R139). -/
def State.drainSlot (s : State) (line : Nat) : Option Nat :=
  let free := (s.bucketSlots line).find? (fun k => !s.store.drains.any (fun d => d.slot == k) && s.slotServes k &&
    (match mapGet? s.store.halo k with
      | some e => !e.valid && !e.bad
      | none => true))
  match s.haloHit line with
  | some (k, _) => if s.slotServes k then some k else free
  | none => free

/-- A dirty line that a drain can take now: its key loaded, no drain of it in flight, a slot to take. -/
def State.canDrain (s : State) (loc : Nat) (w : VaultWay) : Bool :=
  w.dirty && (s.drainKeys w).isSome && !s.store.drains.any (fun d => d.loc == loc) && (s.drainSlot w.line).isSome

/-- No drainable line comes before this one: a waiting set first, then the oldest STAMP (R133, R134). -/
def State.drainTurn (s : State) (loc : Nat) (w : VaultWay) : Bool :=
  let waits := s.setWaits loc
  s.store.vault.all (fun q => q.1 == loc || !s.canDrain q.1 q.2 ||
    (if s.setWaits q.1 then waits && (q.1 / 16 != loc / 16 || decide (s.stampAge q.2 ≤ s.stampAge w))
     else waits || decide (s.stampAge q.2 ≤ s.stampAge w)))

/-- Shows the folds in flight, garbage collection and urgent requests (R161). -/
def State.showFolds (s : State) : State :=
  let t := s.put F.FOLD_STAT_FOLDS (min 63 s.store.folds.length)
  let t := t.put F.FOLD_STAT_GC (if s.store.gcRun.isEmpty && !s.store.folds.any (fun f => f.why == .gc) then 0 else 1)
  let t := t.put F.FOLD_STAT_URGENT (if s.store.urgent.isEmpty then 0 else 1)
  t.put F.HALO_STAT_FOLDING (if s.store.folds.any (fun f => f.why == .ordinary) then 1 else 0)

/-- A bucket has no free way: the line stays, and the tile with the largest HALO_CNT in the bucket is asked for (R139). -/
def State.bucketFull (s : State) (line : Nat) : State :=
  let tiles := (s.bucketSlots line).filterMap (fun k => match mapGet? s.store.halo k with
    | some e => if e.valid then some (tileOfLine e.line) else none
    | none => none)
  let t := s.add64 R.HALO_BFULL_LO 1
  match tiles with
  | [] => t
  | x :: xs =>
    let best := xs.foldl (fun b y => if (s.tileEnt b).haloCnt < (s.tileEnt y).haloCnt then y else b) x
    State.showFolds { t.satReg R.FOLD_URGENT 1 with store.urgent := addOnce t.store.urgent best }

/-- Starts the drain of a vault line (R134, R135 steps 1 to 4). `err` is what the DDR5 readback changed. -/
def State.drainLine (s : State) (line : Nat) (err : LineData) : State :=
  let s : State := { s with store.drainRun := s.drainByOcc }
  match s.vaultHit line with
  | none => s
  | some (loc, w) =>
    let due := s.store.drainAll || s.flag F.SUP_STAT_PEN || s.store.drainRun || s.aged w || s.setWaits loc
    if !s.backgroundRuns || !w.dirty || s.store.drains.any (fun d => d.loc == loc) || !due then s
    else if carryChecks (w.img.data ^^^ err) ≠ w.img.cc then
      s.ccHalt 4 (match s.regionAt (line * 256) with | some (r, _) => r | none => 0) line
    else match s.drainKeys w with
      | none => s
      | some k =>
        if s.bucketDead line then { s with store.deadTiles := addOnce s.store.deadTiles (tileOfLine line) }
        else match s.drainSlot line with
          | none => s.bucketFull line
          | some slot =>
            let m := slotMpa slot
            if !s.drainTurn loc w || !s.planeFree (mpaCh m) (mpaDie m) (mpaPlane m) false then s
            else
              let st := encodeStored k 1 line { w.img with data := w.img.data ^^^ err }
              let t : State := { s with store.drains := s.store.drains ++ [⟨slot, loc, w, st⟩] }
              let t := t.occupy (mpaCh m) (mpaDie m) (mpaPlane m) (.prog1 (m / 256 % 2 ^ 17) (mpaLine m) st)
              (((t.charge 15).maint 0x3B 1 (some (line * 256))).bus (mpaCh (slotMpa slot)) 320).wake
                (lookupDomains ++ [8 + mpaCh (slotMpa slot)])

/-! ### Halo slots that fail (R138, R174) -/

/-- The 64 slots of a 1-bit tile. -/
def tileSlots (k : Nat) : List Nat := (List.range 64).map (fun i => k / 64 * 64 + i)

def State.setBad (s : State) (k : Nat) : State :=
  match mapGet? s.store.halo k with
  | some e => { s with store.halo := mapPut s.store.halo k { e with
      valid := false
      bad := true } }
  | none => { s with store.halo := mapPut s.store.halo k ⟨0, false, true, 0⟩ }

/-- A retiring 1-bit tile with no valid line left has all its slots BAD (R174). -/
def State.finishHaloTiles (s : State) : State :=
  s.wear.haloTiles.foldl (fun s k =>
    if (tileSlots k).any (fun i => match mapGet? s.store.halo i with | some e => e.valid | none => false) then s
    else { (tileSlots k).foldl (fun s i => s.setBad i) s with wear.haloTiles := s.wear.haloTiles.filter (· != k) }) s

/-- Marks a slot BAD; a 1-bit tile with 16 of them retires, and the owners of its lines are folded (R174). -/
def State.markBad (s : State) (k : Nat) : State :=
  let t := (s.haloFreeSlot k).setBad k
  let slots := tileSlots k
  let bad := slots.countP (fun i => match mapGet? t.store.halo i with | some e => e.bad | none => false)
  let t : State := if bad ≥ 16 ∧ bad < 64 then
      let owners := slots.filterMap (fun i => match mapGet? t.store.halo i with
        | some e => if e.valid then some (tileOfLine e.line) else none
        | none => none)
      { t with
        wear.haloTiles := addOnce t.wear.haloTiles (k / 64 * 64)
        wear.refresh := owners.foldl addOnce t.wear.refresh }
    else t
  t.finishHaloTiles

/-- A drain's PROGRAM-1 ends, once it is not suspended (R109, R135 steps 5 and 6, R139, R174, R178, R209). -/
def State.drainDone (s : State) (slot : Nat) (ok : Bool) : State :=
  match s.store.drains.find? (fun d => d.slot == slot) with
  | none => s
  | some d =>
    let m := slotMpa slot
    if s.planeHeld (mpaCh m) (mpaDie m) (mpaPlane m) then s else
    let s : State := { s.vacate (mpaCh m) (mpaDie m) (mpaPlane m) with
      store.drains := s.store.drains.filter (fun q => q.slot != slot)
      wear.prog1 := s.wear.prog1 + 1 }
    if ok then
      let inPlace := (match mapGet? s.store.halo slot with | some e => e.valid && e.line == d.way.line | none => false)
      let t := match s.haloHit d.way.line with
        | some (k, _) => if k = slot then s else s.haloFreeSlot k
        | none => s
      let t := ((t.setCell (slotMpa slot) d.stored).add64 R.HALO_DRAIN_LO 1).haloTake slot d.way.line
      let t := if inPlace then t.add64 R.HALO_INPLACE_LO 1 else t
      if mapGet? t.store.vault d.loc = some d.way then t.vaultDrop d.loc else t
    else
      let (f, t) := s.fresh
      ((((t.setCell (slotMpa slot) (BitVec.ofNat 2432 f.toNat)).satReg R.HALO_PROG_FAIL 1).markBad slot)).post 0x04 0x01 m 0

/-! ### Fold: what is folded (R145, R150, R173, R175, R179) -/

/-- Free and reclaimable groups of a channel. -/
def State.availOn (s : State) (c : Nat) : Nat := s.freeOn c + s.reclOn c

/-- The channels on which garbage collection runs (R150). -/
def State.gcUpdate (s : State) : State :=
  let lo := s.get F.FOLD_GC_CFG_GC_START
  let hi := lo + s.get F.FOLD_GC_CFG_FREE_TARGET
  let run := (List.range 32).filter (fun c => !s.chanOut c &&
    (decide (s.availOn c < lo) || (s.store.gcRun.contains c && decide (s.availOn c < hi))))
  State.showFolds { s with store.gcRun := run }

/-- Static levelling is due on a channel (R179). -/
def State.levels (s : State) (c : Nat) : Bool :=
  s.flag (F.MED_WEAR_CFG_WL_EN c) && decide (s.genMax c - s.genMin c > max 100 (s.get (F.MED_WEAR_CFG_WL_SPREAD c)))

/-- The first of a list by a measure. -/
def leastBy (f : Nat → Nat × Nat) : List Nat → Option Nat
  | [] => none
  | x :: xs => some (xs.foldl (fun b y => if (f y).1 < (f b).1 ∨ ((f y).1 = (f b).1 ∧ (f y).2 < (f b).2) then y else b) x)

/-- The closed groups being emptied on a channel: by garbage collection, static levelling, a retired parity tile, or a unit
that evacuates (R150, R179, R181, R182). -/
def State.victims (s : State) (c : Nat) : List Nat :=
  let closed := (s.groupsIn .closed).filter (fun g => groupCh g == c)
  let gc := if s.store.gcRun.contains c then (leastBy (fun g => (s.liveCount g, (s.group g).closeOrder)) closed).toList else []
  let wl := if s.levels c then (leastBy (fun g => ((s.group g).gen, g)) closed).toList else []
  gc ++ wl ++ closed.filter (fun g => s.tileOut g (s.group g).parityDie ||
    (List.range 16).any (fun d => (s.group g).live.getLsbD d && s.onEvac g d))

/-- Tiles that a refresh fold takes: LOW_MARGIN ones and those that Halo slot health or an evacuation names (R173, R174,
R182). -/
def State.needsRefresh (s : State) (tile : Nat) : Bool :=
  ((s.tileEnt tile).mapped && (s.tileEnt tile).lowMargin) || s.wear.refresh.contains tile

def State.refreshPending (s : State) : Bool :=
  s.store.map.any (fun p => p.2.mapped && p.2.lowMargin && !p.2.folding) ||
  s.wear.refresh.any (fun t => !(s.tileEnt t).folding)

/-- A dirty vault line of the tile has a dead bucket and a loaded key (R175). -/
def State.hasDead (s : State) (tile : Nat) : Bool :=
  s.store.vault.any (fun q => tileOfLine q.2.line == tile && q.2.dirty && s.bucketDead q.2.line && (s.drainKeys q.2).isSome)

/-- An ordinary fold of the tile is due: Halo occupancy, MIN_LINES, and the largest HALO_CNT first (R145). -/
def State.ordinaryDue (s : State) (tile : Nat) : Bool :=
  let occ := s.get F.HALO_STAT_OCC
  let n := (s.tileEnt tile).haloCnt
  s.flag F.FOLD_CFG_EN && decide (occ ≥ s.foldStartPct) && decide (0 < n) &&
  (decide (s.get F.FOLD_CFG_MIN_LINES ≤ n) || decide (occ ≥ s.haloThrottle)) &&
  s.store.map.all (fun p => p.2.folding || decide (p.2.haloCnt ≤ n))

/-- Why a fold of the tile may start now, in the order of R145 and R173. -/
def State.foldReason (s : State) (tile : Nat) : Option FoldWhy :=
  let e := s.tileEnt tile
  let urgentLeft := s.store.urgent.any (fun t => !(s.tileEnt t).folding)
  if e.folding then none
  else if s.store.urgent.contains tile then some .urgent
  else if urgentLeft then none
  else if s.needsRefresh tile then some .refresh
  else if s.refreshPending then none
  else if s.flag F.FOLD_CFG_EN && s.hasDead tile then some .deadBucket
  else if e.mapped && (s.victims (mpaCh (e.pos * 256))).contains (posGroup s.haloTiles e.pos) then some .gc
  else if s.ordinaryDue tile then some .ordinary
  else none

/-! ### Fold: sources and positions (R143, R146, R175) -/

/-- The source of a line of a tile (R146); dead buckets' tiles take dirty vault lines (R175). -/
def State.foldSource (s : State) (tile i : Nat) (dead : Bool) : FoldSrc :=
  let line := tile * 256 + i
  let vault := match s.vaultHit line with
    | some (loc, w) => if dead && w.dirty && (s.drainKeys w).isSome then some (loc, w) else none
    | none => none
  match vault with
  | some (loc, w) => .vault loc w
  | none => match s.haloHit line with
    | some (k, e) => .halo k e.seq
    | none => if (s.tileEnt tile).mapped then .bulk ((s.tileEnt tile).pos * 256 + i) else .erased

/-- Opens the next group of a channel and plane, with its parity where R128 and R181 have it now (R179). -/
def State.openGroup (s : State) (key : Nat) : Option (OpenGroup × State) :=
  (s.bestFree (fun g => groupKey g == key)).map (fun g =>
    let o : OpenGroup := ⟨g, [], [], s.now⟩
    let e : GroupEnt := { s.group g with
      st := .opened
      parityDie := s.parityFor g }
    (o, State.showGroups { s.setGroup g e with store.opened := mapPut s.store.opened key o }))

/-- The plane of a position can take a tile's program. -/
def State.posFree (s : State) (pos : Nat) : Bool :=
  s.planeFree (mpaCh (pos * 256)) (mpaDie (pos * 256)) (mpaPlane (pos * 256)) true

/-- The program of a tile at a position is suspended. -/
def State.posHeld (s : State) (pos : Nat) : Bool := s.planeHeld (mpaCh (pos * 256)) (mpaDie (pos * 256)) (mpaPlane (pos * 256))

def State.posVacate (s : State) (pos : Nat) : State := s.vacate (mpaCh (pos * 256)) (mpaDie (pos * 256)) (mpaPlane (pos * 256))

/-- The next free position, in rising die order and in rotation over channels and planes (R143); none while its plane is not free. -/
def State.takePos (s : State) : Option (Nat × State) :=
  ((List.range 128).map (fun i => (s.store.nextKey + i) % 128)).findSome? (fun key =>
    if s.chanOut (key % 32) then none
    else
      let found := match mapGet? s.store.opened key with
        | some o => some (o, s)
        | none => s.openGroup key
      match found with
      | none => none
      | some (o, t) => match (t.dataDies o.group).find? (fun d => !o.placed.contains d && !t.onEvac o.group d) with
        | none => none
        | some d => if !t.posFree (groupPos t.haloTiles o.group d) then none else some (groupPos t.haloTiles o.group d, { t with
            store.opened := mapPut t.store.opened key { o with
              placed := o.placed ++ [d]
              last := t.now }
            store.nextKey := (key + 1) % 128 }))

/-- A position taken and not programmed becomes void; it is reset with its group (R143, R148). -/
def State.voidPos (s : State) (pos : Nat) : State :=
  let g := posGroup s.haloTiles pos
  let e := s.group g
  (s.setGroup g { e with void := e.void ||| bit16 (posDie pos) }).showGroups

/-- Media reads that a fold's sources take. -/
def foldReads (src : List FoldSrc) : Nat := src.countP (fun f => match f with | .halo .. => true | .bulk _ => true | _ => false)

/-- The media position of a source. -/
def FoldSrc.mpa : FoldSrc → Option Nat
  | .halo k _ => some (slotMpa k)
  | .bulk m => some m
  | _ => none

/-- Charge of the 48 PROGRAM-4 passes of a tile, in nJ (R115, R204). -/
def tileCharge : Nat := 48 * 150

/-- A tile's program is sent to a position: 7,200 nJ, its bytes on the bus, its channel awake, its plane taken (R109, R115, R202). -/
def State.chargeTile (s : State) (pos : Nat) : State :=
  let m := pos * 256
  (((s.charge tileCharge).bus (mpaCh m) (16 + 256 * 304 + 48 * 16)).wake [8 + mpaCh m]).occupy (mpaCh m) (mpaDie m) (mpaPlane m)
    (.prog4 (pos % 2 ^ 17) 0 1)

/-- The class whose budget a tile's maintenance reads heed: its region's. -/
def State.tileClass (s : State) (tile : Nat) : Option Nat := (s.regionAt (tile * 65536)).map (fun p => dClass p.2)

/-- Maintenance reads of a tile's class wait while its media-read bucket is below 1 (R114). -/
def State.readsWait (s : State) (tile : Nat) : Bool :=
  match s.tileClass tile with | some c => s.budgetBroken c | none => false

/-- A source of a fold cannot be read now: it lies on a retired channel, whose data a later start may bring back (R184; log 69), or
its class's reads wait (R114). -/
def State.foldBlocked (s : State) (tile : Nat) (src : List FoldSrc) : Bool :=
  src.any (fun f => match f.mpa with
    | some m => s.chanOut (mpaCh m)
    | none => false) || (decide (0 < foldReads src) && s.readsWait tile)

/-- A source is read (R146): a bulk line of a failed die is reconstructed, and one on a plane that is to be read around too (R109, R114,
R115, R167, R182). -/
def State.foldRead (s : State) (b : Reader) (tile : Nat) (f : FoldSrc) : State :=
  match f with
  | .halo k _ => s.issueRead b (slotMpa k) tile true
  | .bulk m =>
    if s.unitOut (mpaCh m) (mpaDie m) (mpaPlane m) || s.readsAround m false then s.issueRecon b m else s.issueRead b m tile false
  | _ => s

/-- Reads the sources and takes a position (R146). -/
def State.beginFold (s : State) (tile : Nat) (why : FoldWhy) : State :=
  let e := s.tileEnt tile
  let src := (List.range 256).map (fun i => s.foldSource tile i (s.hasDead tile))
  if s.foldBlocked tile src then s
  else
    let s := (src.foldl (fun s f => s.foldRead ⟨.maint, s.tileClass tile, some (tile * 65536)⟩ tile f) s).wake lookupDomains
    let (pos, s) := match s.takePos with
      | some (p, t) => (some p, t.chargeTile p)
      | none => (none, s)
    let s := s.setTile tile { e with folding := true }
    State.showFolds { s with store.folds := s.store.folds ++ [⟨tile, e, src, why, pos, false, s.now⟩] }

/-- A fold starts when a reason for it holds (R145, R173). -/
def State.foldStart (s : State) (tile : Nat) (refreshOnly : Bool) : State :=
  let s := s.gcUpdate
  if !s.backgroundRuns || decide (s.get F.MAP_USER_TILES_user ≤ tile) then s
  else match s.foldReason tile with
    | none => s
    | some why => if refreshOnly && why != .refresh then s else s.beginFold tile why

/-- Forgets a fold; the position it took becomes void (R148). -/
def State.dropFold (s : State) (f : FoldRec) : State :=
  let t : State := { s with store.folds := s.store.folds.filter (fun q => q.tile != f.tile) }
  let t := t.setTile f.tile { t.tileEnt f.tile with folding := false }
  State.showFolds (match f.pos with
    | some p => (t.posVacate p).voidPos p
    | none => t)

/-- A fold that has not committed within 1 s is abandoned and restarted (R147). -/
def State.foldTimeout (s : State) (tile : Nat) : State :=
  match s.store.folds.find? (fun f => f.tile == tile) with
  | none => s
  | some f =>
    if s.now < f.began + oneSecond then s
    else
    let t := s.dropFold f
    if t.backgroundRuns && ((t.tileEnt tile).mapped || (t.tileEnt tile).haloCnt != 0) then t.beginFold tile f.why else t

/-! ### Fold: commit (R146, R147, R148) -/

/-- A source on a failed die is gone: a Halo line, and a bulk line that cannot be reconstructed from its group (R182, R190). -/
def State.sourceGone (s : State) (src : FoldSrc) : Bool :=
  match src with
  | .halo k _ => s.slotOut k
  | .bulk p => s.unitOut (mpaCh p) (mpaDie p) (mpaPlane p) && s.reconBlocked p
  | _ => false

/-- What a bulk source holds: its cells, or its reconstruction where its die has failed (R182). -/
def State.bulkLine (s : State) (p : Nat) : Stored :=
  if s.unitOut (mpaCh p) (mpaDie p) (mpaPlane p) then s.reconstruct p else s.cell p

/-- What one source becomes in the target: none where the key it needs is missing. A written line keeps its ciphertext; a
lost one is formed poisoned under the region's key (R59). -/
def State.foldLine (s : State) (line : Nat) (src : FoldSrc) (lost : Bool) : Option Stored :=
  let region := match s.regionAt (line * 256) with | some (r, _) => r | none => 0
  let m := s.lostMaterial region line
  let gone := (s.materialKeys m).map (fun x => encodeStored x 1 line (formMac x line (poisonLine m x.kgen s.integ)))
  match src with
  | .erased => some erased
  | .vault _ w => (s.drainKeys w).map (fun k => encodeStored k 1 line w.img)
  | .halo k _ => if lost then gone else some (reencodeStored (metaInteg (storedMeta (s.cell (slotMpa k)))) (s.cell (slotMpa k)))
  | .bulk p =>
    if lost && s.sourceGone src then gone
    else if isUnwritten (s.bulkLine p) then some erased
    else if lost then gone
    else some (reencodeStored (metaInteg (storedMeta (s.bulkLine p))) (s.bulkLine p))

/-- The lines of a fold that are lost: those that deep recovery gave up, and those that failed dies took. -/
def State.foldLost (s : State) (f : FoldRec) (lost : List Nat) : List Nat :=
  ((f.src.zipIdx).filter (fun p => lost.contains p.2 || s.sourceGone p.1)).map (·.2)

/-- The target's 256 lines, when every key they need is there. -/
def State.foldLines (s : State) (f : FoldRec) (lost : List Nat) : Option (List Stored) :=
  (f.src.zipIdx).mapM (fun p => s.foldLine (f.tile * 256 + p.2) p.1 (lost.contains p.2))

/-- What the reads of a fold's sources say of their margin: `c` beyond t stands for a first-pass decode that failed, as that of a
lost line did; a reconstruction's reads say it of the tiles that they read (R172, R174). -/
def State.noteSources (s : State) (f : FoldRec) (lost : List Nat) (reads : List (Nat × Nat))
    (recon : List (Nat × List (Fin 16 × Nat))) : State :=
  (f.src.zipIdx).foldl (fun s p =>
    let c := match reads.find? (fun r => r.1 == p.2) with | some r => r.2 | none => 0
    let failed := lost.contains p.2 || decide (s.bchT < c)
    match p.1 with
    | .halo k _ => s.noteSlot f.tile k c failed
    | .bulk m => (match recon.find? (fun r => r.1 == p.2) with
      | some r => s.noteRecon m r.2
      | none => s.noteBulk f.tile (m / 256) c failed)
    | _ => s) s

/-- Programs a position and adds it to its group's accumulator (R142, R146). -/
def State.programPos (s : State) (pos : Nat) (lines : List Stored) : State :=
  let t := lines.zipIdx.foldl (fun s p => s.setCell (pos * 256 + p.2) p.1) s
  let key := groupKey (posGroup s.haloTiles pos)
  match mapGet? t.store.opened key with
  | none => t
  | some o =>
    let par := lines.zipIdx.foldl (fun m p => mapSet (fun _ => 0) m p.2 (mapGet (fun _ => 0) m p.2 ^^^ p.1)) o.parity
    { t with store.opened := mapPut t.store.opened key { o with parity := par } }

/-- Marks a position live. -/
def State.markLive (s : State) (pos : Nat) : State :=
  let g := posGroup s.haloTiles pos
  s.setGroup g { s.group g with live := (s.group g).live ||| bit16 (posDie pos) }

/-- What a source leaves behind at the commit: an unchanged Halo slot is freed or marked BAD, an unchanged vault way is
emptied (R147, R174, R175). -/
def State.dropSource (s : State) : FoldSrc → State
  | .halo k q => (match mapGet? s.store.halo k with
    | some e =>
      if e.valid && e.seq == q then
        if s.wear.badAtFold.contains k then
          State.markBad { s with wear.badAtFold := s.wear.badAtFold.filter (· != k) } k
        else s.haloFreeSlot k
      else s
    | none => s)
  | .vault loc w => if mapGet? s.store.vault loc = some w then s.vaultDrop loc else s
  | _ => s

/-- Poisons the lines of the target that were lost, with a record of each; cluster caches drop their copies (R59, R148, R258). -/
def State.noteLost (s : State) (tile pos : Nat) (lost : List Nat) : State :=
  (lost.foldl (fun s i =>
    ((s.notePoison (tile * 256 + i) 0xF false).invalidate (tile * 256 + i)).post 0x04 0x04 (pos * 256 + i) 0) s).showPoison

/-- A fold takes a free position, when there is one (R146, R148). -/
def State.foldTake (s : State) (tile : Nat) : State :=
  let (p, t) := match s.takePos with
    | some (p, u) => (some p, u.chargeTile p)
    | none => (none, s)
  State.settleGroups { t with store.folds := t.store.folds.map (fun q => if q.tile = tile then { q with pos := p } else q) }

/-- The map entry of a fold's tile has changed since the fold began: the tile was unmapped, or folded (R146, R148). -/
def State.foldStale (s : State) (f : FoldRec) : Bool :=
  let e := s.tileEnt f.tile
  f.gone || !e.folding || e.pos != f.entry.pos || e.mapped != f.entry.mapped

/-- A fold is discarded at its commit: the new position is dead (R146). -/
def State.foldAbort (s : State) (tile pos : Nat) : State :=
  let t := (s.markDead pos).satReg R.FOLD_ABORT 1
  ((t.setTile tile { t.tileEnt tile with folding := false }).showFolds).settleGroups

/-- A fold's commit, as one step (R146): the map entry and its delta record, the sources that are unchanged, the old position. -/
def State.foldMap (s : State) (f : FoldRec) (pos : Nat) (lost : List Nat) : State :=
  let tile := f.tile
  let e := s.tileEnt tile
  let e' : MapEnt := { e with
    pos := pos
    epoch := epochOf 0 s.drift
    mapped := true
    folding := false
    lowMargin := false }
  let t := (s.setTile tile e').logDelta (.mapSet tile e')
  let t := f.src.foldl (fun s q => s.dropSource q) t
  let t := if e.mapped then t.markDead e.pos else t
  let t : State := { t with
    store.urgent := t.store.urgent.filter (· != tile)
    store.deadTiles := t.store.deadTiles.filter (· != tile)
    wear.refresh := t.wear.refresh.filter (· != tile)
    wear.corrected := mapDel t.wear.corrected tile }
  let t := (t.noteLost tile pos lost).finishHaloTiles
  let t := t.add64 R.FOLD_DONE_LO 1
  let t := if f.why = .gc then t.add64 R.FOLD_GC_LO 1 else t
  ((t.showMapped.gcUpdate).showFolds).settleGroups

/-- A fold's program ends (R146): `ok` is its status, `lost` the source lines that deep recovery could not decode, `reads` the bits
that decoding corrected in the others. Its strips count once they have verified (R119, R204); those that verified before one that failed are not
counted (log 84). -/
def State.foldCommit (s : State) (tile : Nat) (ok : Bool) (lost : List Nat) (reads : List (Nat × Nat))
    (recon : List (Nat × List (Fin 16 × Nat))) : State :=
  match s.store.folds.find? (fun f => f.tile == tile) with
  | none => s
  | some f =>
    let lost := s.foldLost f lost
    if s.halted || !s.lit || s.store.imageRun.isSome || !s.deltaRoom 3 then s
    else match s.foldLines f lost with
      | none => s
      | some lines => match f.pos with
        | none => s.foldTake tile
        | some pos =>
          if s.posHeld pos then s
          else if !ok then (((s.posVacate pos).retireNow pos).satReg R.FOLD_RETRY 1).foldTake tile
          else
            let stale := s.foldStale f
            let s := (s.posVacate pos).maint 0x3C 16 (some (tile * 65536))
            let t := if stale then s else s.noteSources f lost reads recon
            let t := (t.programPos pos lines).markLive pos
            let t : State := { t with store.folds := t.store.folds.filter (fun q => q.tile != tile) }
            if stale then t.foldAbort tile pos else t.foldMap f pos lost

/-! ### Open groups close (R143) -/

/-- A fold in flight has taken a position of the group. -/
def State.foldInto (s : State) (g : Nat) : Bool :=
  s.store.folds.any (fun f => match f.pos with | some p => posGroup s.haloTiles p == g | none => false)

/-- The die that takes an open group's parity at its close: where its tile has retired meanwhile, the next in rising order modulo 16
whose tile is neither retired nor placed (R143, R181). -/
def State.closeParity (s : State) (o : OpenGroup) : Nat :=
  let d := (s.group o.group).parityDie
  if !s.tileOut o.group d then d
  else (((List.range 16).map (fun i => (d + i) % 16)).find? (fun d => !s.tileOut o.group d && !o.placed.contains d)).getD d

/-- Closes the open group of a channel and plane: parity is programmed, and positions not programmed become void. -/
def State.closeGroup (s : State) (key : Nat) : State :=
  match mapGet? s.store.opened key with
  | none => s
  | some o =>
    if o.placed.isEmpty || s.foldInto o.group then s
    else
      let g := o.group
      let e := { s.group g with parityDie := s.closeParity o }
      let ppos := groupPos s.haloTiles g e.parityDie
      let t := if s.tileOut g e.parityDie then s
        else (List.range 256).foldl (fun s i => s.setCell (ppos * 256 + i) (mapGet (fun _ => 0) o.parity i)) s
      let left := (s.dataDies g).filter (fun d => d != e.parityDie && !o.placed.contains d)
      let t := t.setGroup g { e with
        st := .closed
        void := left.foldl (fun v d => v ||| bit16 d) e.void
        closeOrder := s.store.closeCount }
      let t := State.logDelta { t with
        store.opened := mapDel t.store.opened key
        store.closeCount := s.store.closeCount + 1 } (.groupClosed g)
      if t.allDead g then (t.setGroup g { t.group g with st := .reclaimable }).logDelta (.groupReclaimable g) else t

/-- CLOSE_MS in 5 ns cycles; 0 acts as 1 (R161). -/
def State.closeCycles (s : State) : Nat := max 1 (s.get F.FOLD_CFG_CLOSE_MS) * 200000

/-- An open group is due to close: every data position that it has left is placed, or CLOSE_MS has passed since the last placement
(R143). -/
def State.closeDue (s : State) (o : OpenGroup) : Bool :=
  (s.dataDies o.group).all (fun d => o.placed.contains d) || decide (o.last + s.closeCycles ≤ s.now)

/-- An open group closes: full, or CLOSE_MS after its last placement (R143). `ok` is how its parity's program ends: where it fails, the
parity's position is retired and the group stays open for the next (R180, R181). -/
def State.groupClose (s : State) (c p : Nat) (ok : Bool) : State :=
  match mapGet? s.store.opened (p * 32 + c) with
  | none => s
  | some o =>
    let pos := groupPos s.haloTiles o.group (s.closeParity o)
    if s.backgroundRuns && s.deltaRoom 3 && s.closeDue o && !o.placed.isEmpty && !s.foldInto o.group then
      if s.tileOut o.group (s.closeParity o) then (s.closeGroup (p * 32 + c)).settleGroups
      else if !s.posFree pos then s
      else
        let t := (s.chargeTile pos).posVacate pos
        if ok then ((t.closeGroup (p * 32 + c)).maint 0x3C 16 none).settleGroups else (t.retireNow pos).settleGroups
    else s

/-! ### Reclaim (R149, R178, R180) -/

/-- Groups of a channel that are being reset towards FREE_TARGET (R149). -/
def State.resettingOn (s : State) (c : Nat) : Nat := (s.groupsIn .resetting).countP (fun g => groupCh g == c)

/-- The dies on which a group's tiles are reset: those in service. -/
def State.resetDies (s : State) (g : Nat) : List Nat := (List.range 16).filter (fun d => !s.tileOut g d)

/-- A group's tiles are reset, each on its own plane (R109, R149). -/
def State.groupReset (s : State) (g : Nat) : State :=
  let c := groupCh g
  let p := groupPlane g
  if (s.resetDies g).all (fun d => s.planeFree c d p true) && s.backgroundRuns && s.groupState g == .reclaimable && s.store.fmt.isSome && !s.chanOut c &&
      decide (g < s.groupsPer * 128) && decide (s.freeOn c + s.resettingOn c < s.get F.FOLD_GC_CFG_FREE_TARGET) then
    let t := (((s.setGroup g { s.group g with st := .resetting }).charge 32000).maint 0x3D 16 none).wake [8 + c]
    State.settleGroups ((s.resetDies g).foldl (fun s d => s.occupy c d p (.reset (groupTile s.haloTiles g))) t)
  else s

/-- The resets of a group's tiles are over. -/
def State.groupVacate (s : State) (g : Nat) : State :=
  (List.range 16).foldl (fun s d => s.vacate (groupCh g) d (groupPlane g)) s

/-- Erases the 16 tiles of a group. -/
def State.eraseGroup (s : State) (g : Nat) : State :=
  { s with store.cells := mapFilter (fun m _ =>
      m / 256 % 2 ^ 17 < s.haloTiles || posGroup s.haloTiles (m / 256) != g) s.store.cells }

/-- A group's resets end (R149, R178, R180): generation + 1, failed and marked positions retired, and the group free, or retired
whole at 100,000. None ends while one of them is suspended (R109). -/
def State.groupResetDone (s : State) (g : Nat) (failed : BitVec 16) : State :=
  if s.groupState g != .resetting || !s.deltaRoom 17 ||
      (List.range 16).any (fun d => s.planeHeld (groupCh g) d (groupPlane g)) then s
  else
    let s := s.groupVacate g
    let e := s.group g
    let n := e.gen + 1
    let pos := fun d => groupPos s.haloTiles g d
    let marked := (List.range 16).filter (fun d => s.wear.retireNext.contains (pos d))
    let worn := decide (n ≥ 100000)
    let gone := (List.range 16).filter (fun d => !e.retired.getLsbD d && (worn || failed.getLsbD d || marked.contains d))
    let t := (s.eraseGroup g).add64 R.FOLD_RESET_LO 1
    let t : State := { t with wear.retireNext := t.wear.retireNext.filter (fun p => posGroup s.haloTiles p != g) }
    let t := t.setGroup g { e with
      st := if worn then .retired else .free
      live := 0
      dead := 0
      void := 0
      gen := n }
    let t := gone.foldl (fun s d => s.retirePos (pos d)) t
    let t := t.setGroup g { t.group g with parityDie := t.parityFor g }
    let t := if worn then t else t.logDelta (.groupFree g n)
    let t := gone.foldl (fun s d => s.checkPlane (groupCh g) d (groupPlane g)) t
    (t.settleGroups).gcUpdate

/-! ### The commands -/

def execDrainLine (line : LineNo) (err : LineData) (s : State) : Host.Outcome State Fault Refusal :=
  .next (s.drainLine line.toNat err)

def execFoldStart (tile : BitVec 28) (s : State) : Host.Outcome State Fault Refusal := .next (s.foldStart tile.toNat false)

def execFoldCommit (tile : BitVec 28) (ok : Bool) (src : FoldReads) (s : State) : Host.Outcome State Fault Refusal :=
  .next (s.foldCommit tile.toNat ok (src.lost.map (·.val)) (src.reads.map (fun p => (p.1.val, p.2)))
    (src.recon.map (fun p => (p.1.val, p.2))))

def execFoldTimeout (tile : BitVec 28) (s : State) : Host.Outcome State Fault Refusal := .next (s.foldTimeout tile.toNat)

def execGroupClose (ch : Fin 32) (plane : CloseEnd) (s : State) : Host.Outcome State Fault Refusal :=
  .next (s.groupClose ch plane.plane plane.ok)

def execGroupReset (g : Nat) (s : State) : Host.Outcome State Fault Refusal := .next (s.groupReset g)

def execGroupResetDone (g : Nat) (failed : BitVec 16) (s : State) : Host.Outcome State Fault Refusal :=
  .next (s.groupResetDone g failed)

def execRefreshFold (tile : BitVec 28) (s : State) : Host.Outcome State Fault Refusal := .next (s.foldStart tile.toNat true)

end Sys2Proof.Machine
end

