-- ==== Sys2Proof/Machine/Images.lean ====
section
/-! DEFINITION. Checkpoints (R152, R153), images (R154 to R157), the media format (R160), and replay at a start (R158, R159,
R165, R102, R125, R300). -/

namespace Sys2Proof.Machine

/-! ### Metadata roles (R128, R179) -/

/-- A group has a place of a role. -/
def State.hasRole (s : State) (role g : Nat) : Bool :=
  (inRole role g && s.roleGroup g == g) || s.wear.roles.any (fun q => inRole role q.1 && q.2 == g)

/-- The places of a role whose groups have reached 100,000 resets (R178). -/
def State.placesWorn (s : State) (role : Nat) : List Nat :=
  if s.store.groups.foldl (fun n q => max n q.2.gen) (s.roleGen role) < 100000 then []
  else
    let p := rolePlaces role
    ((List.range p.2).map (p.1 + ·)).filter (fun i => s.groupState (s.roleGroup i) != .retired &&
      decide (100000 ≤ (s.group (s.roleGroup i)).gen))

/-- Every group that has a place of a role is reset: its cells are erased and its generation advances; one that reaches 100,000
retires, and the reserve replaces it (R160, R178, R187). -/
def State.ageRole (s : State) (role : Nat) : State :=
  let gens := mapPut s.store.roleGens role (s.roleGen role + 1)
  let t : State := { s with
    store.cells := mapFilter (fun m _ => m / 256 % 2 ^ 17 < s.haloTiles || !s.hasRole role (posGroup s.haloTiles (m / 256)))
      s.store.cells
    store.roleGens := gens
    store.groups := s.store.groups.filterMap (fun q =>
      let e := if s.hasRole role q.1 then { q.2 with gen := q.2.gen + 1 } else q.2
      if e = groupInit gens s.haloTiles q.1 then none else some (q.1, e)) }
  (t.placesWorn role).foldl (fun s i => s.replacePlace i) t

/-- A place whose group is far above the channel's mean moves to the free group with the lowest generation, and its old group
becomes an ordinary free group (R179). -/
def State.movePlace (s : State) (i : Nat) : State :=
  match s.bestFree (fun _ => true) with
  | none => s
  | some h =>
    let g := s.roleGroup i
    let t := (s.setGroup g { s.group g with st := .free }).setGroup h { s.group h with st := .metadata }
    { t with
      wear.roles := mapPut t.wear.roles i h
      wear.roleDue := t.wear.roleDue.filter (· != i) }

/-- The places of a role whose groups are now more than WL_SPREAD above their channels' means; none can be while no generation
exceeds 100 (R179). -/
def State.placesDue (s : State) (role : Nat) : List Nat :=
  if s.store.groups.foldl (fun n q => max n q.2.gen) (s.roleGen role) ≤ 100 then []
  else
    let lim := (List.range 32).map (fun c => s.genMean c + max 100 (s.get (F.MED_WEAR_CFG_WL_SPREAD c)))
    let p := rolePlaces role
    ((List.range p.2).map (p.1 + ·)).filter (fun i =>
      decide (lim.getD (groupCh (s.roleGroup i)) 0 < (s.group (s.roleGroup i)).gen))

/-- Every group of a role is reset: places noted at the last reset move, and those now far above the mean are noted (R179). -/
def State.resetRole (s : State) (role : Nat) : State :=
  let t := (s.wear.roleDue.filter (fun i => inRole role i)).foldl (fun s i => s.movePlace i) (s.ageRole role)
  State.settleGroups { t with wear.roleDue := (t.placesDue role).foldl addOnce t.wear.roleDue }

/-! ### Checkpoints (R152, R153) -/

/-- Bytes 0 to 63 of a descriptor with dwords 7 to 15 zero (R153). -/
def mirrorDesc (d : BitVec 512) : BitVec 512 := (List.range 9).foldl (fun d i => setDw d (i + 7) 0) d

/-- The copy that holds the newest complete checkpoint: false is A. -/
def State.newestB (s : State) : Bool :=
  match s.store.ckptA, s.store.ckptB with
  | some a, some b => decide (a.seq < b.seq)
  | none, some _ => true
  | _, _ => false

def State.newestCkpt (s : State) : Option Checkpoint := if s.newestB then s.store.ckptB else s.store.ckptA

/-- CKPT_S as it acts (R161). -/
def State.ckptSeconds (s : State) : Nat :=
  let c := s.get F.MAP_DELTA_CFG_CKPT_S
  if 10 ≤ c ∧ c ≤ 3600 then c else 60

/-- A checkpoint is due: the log has reached half of L, or CKPT_S seconds have passed since the last one (R152). -/
def State.ckptDue (s : State) : Bool :=
  decide (s.get F.MAP_CFG_DELTA_64M * 2 ^ 25 ≤ s.deltaUnits * 16) ||
  decide (s.store.ckptAt + s.ckptSeconds * 32768 ≤ s.aonTick.toNat)

/-- Shows the newest complete checkpoint (R161). -/
def State.showCkpt (s : State) : State :=
  (s.put F.MAP_CKPT_STAT_COPY (if s.newestB then 1 else 0)).wr R.MAP_CKPT_SEQ
    (BitVec.ofNat 32 (match s.newestCkpt with | some c => c.seq | none => 0))

/-- A checkpoint to the copy that does not hold the newest one: its groups are reset, P is noted, and the map and the descriptors
are written as they stand (R152, R153). -/
def State.ckptStart (s : State) : State :=
  if !s.lit || s.halted || !s.formatted || s.store.imageRun.isSome || s.store.ckptRun.isSome || !s.ckptDue then s
  else
    let toB := s.newestCkpt.isSome && !s.newestB
    let seq := (match s.newestCkpt with | some c => c.seq | none => 0) + 1
    let c : Checkpoint := ⟨seq, s.store.deltaBase + s.store.delta.length, s.store.map,
      s.rgn.descs.map (fun p => (p.1, mirrorDesc p.2))⟩
    let t : State := if toB then { s with store.ckptB := none } else { s with store.ckptA := none }
    let t := t.resetRole (if toB then 3 else 2)
    State.put { t with store.ckptRun := some c } F.MAP_CKPT_STAT_BUSY 1

/-- The trailer is written and the log before P is discarded (R152). -/
def State.ckptDone (s : State) : State :=
  match s.store.ckptRun with
  | none => s
  | some c =>
    let toB := s.newestCkpt.isSome && !s.newestB
    let t : State := if toB then { s with store.ckptB := some c } else { s with store.ckptA := some c }
    let t : State := { t with
      store.ckptRun := none
      store.ckptAt := t.aonTick.toNat
      store.delta := t.store.delta.drop (c.logPos - t.store.deltaBase)
      store.deltaBase := c.logPos }
    let t := ((t.put F.MAP_CKPT_STAT_BUSY 0).showCkpt).satReg R.MAP_CKPT_CNT 1
    t.wr R.MAP_DELTA_USED (BitVec.ofNat 32 ((t.deltaUnits * 16 + 63) / 64))

/-! ### Admitted writes end (R61, R91 step 6, R156 step 3, R398 step 3) -/

/-- The line's newest contents for a user of key ID `key`; none when they are lost or of another key (R51, R52). -/
def State.lineFor (s : State) (a : Access) (key line : Nat) : Option LineImg :=
  (s.lineNow a.region line).bind (fun l => match s.readKeys (s.accDesc a) key l.keyTag.toNat l.kgen.toNat with
    | .mismatch => none
    | _ => some l)

/-- The old line of a write that is settled: the line as it stands, its record applied first (R52, R88). -/
def State.settleOld (s : State) (a : Access) : Option LineImg :=
  let line := lineOf a.dpa
  match s.dmrOf line with
  | none => s.lineFor a a.key.toNat line
  | some d => if d.key = a.material.key then s.mergeRec d (s.lineFor a d.key.toNat line) else none

/-- The merge read of a write that is settled fails its MAC, or CP6 with integrity on: the write is neither stored nor completed
(R82, R91 step 1). -/
def State.settleFails (s : State) (a : Access) : Bool :=
  match s.readNow a.region (lineOf a.dpa) with
  | .macFail => true
  | .ccFail => s.integ
  | _ => false

/-- A settled write's line goes to the way that its admission kept for it, and the write completes (R133). A record of the line under
the line's key ID is resolved when the merge took it in; one under another was for the line that this one replaces (R52, R86). -/
def State.settlePlace (s : State) (a : Access) (img : LineImg) (merged : Bool) : State :=
  match s.place (lineOf a.dpa) img with
  | some t =>
    let t := match t.dmrOf (lineOf a.dpa) with
      | some r => if r.key ≠ img.keyTag then t.dmrRetire (lineOf a.dpa) false
          else if merged then t.dmrRetire (lineOf a.dpa) true else t
      | none => t
    t.finishWrite a true
  | none => s.endAccess a.id

/-- The merge read of a write that is settled: issued now unless it was before; the media operations of Eclipse are charged to no
bucket (R115). -/
def State.settleRead (s : State) (a : Access) : State :=
  let t := s.readAs a.reader (a.stage != .lookup) a.region (lineOf a.dpa)
  if s.power == pwEclipse then { t with adm := s.adm } else t

/-- An admitted write is placed in the vault and completed, its merge taking the line as it stands. -/
def State.settleWrite (s : State) (a : Access) : State :=
  match a.stage with
  | .waiting => s
  | .reflecting _ => (s.markDirty (s.accDesc a) a.region (lineOf a.dpa)).finishWrite a true
  | .forming img => s.settlePlace a img false
  | _ =>
    if s.settleFails a then (s.settleRead a).endAccess a.id
    else match s.materialKeys a.material with
      | none => s.endAccess a.id
      | some k =>
        let old := s.settleOld a
        let done := fun (s : State) (a : Access) => (s.settleRead a).settlePlace a
          (mergeLine k a.material s.integ (lineOf a.dpa) old a.image a.mask) true
        match a.amo with
        | none => done s a
        | some q => match amoOld a q.off old with
          | some v => done s (a.amoWrite q v)
          | none => s.endAccess a.id

/-- An access in a list by the order in which accesses passed admission. -/
def insertAccess (a : Access) : List Access → List Access
  | [] => [a]
  | b :: bs => if a.order < b.order then a :: b :: bs else b :: insertAccess a bs

/-- Every admitted write is settled, in the order in which they passed admission (R34). -/
def State.settleWrites (s : State) : State :=
  ((s.accesses.filter (fun a => a.write && !a.device && a.stage != .waiting)).foldl (fun l a => insertAccess a l) []).foldl
    (fun s a => s.settleWrite a) s

/-- The deferred merge pool is copied to the vault's record area (R91 step 7, R156 step 3, R398 step 3). -/
def State.saveDmr (s : State) : State := { s with store.recArea := s.key.dmr }

/-! ### Images (R154 to R157) -/

/-- Fold, drain, reclaim and checkpoint stop; folds in flight are discarded and their positions void (R148, R156 step 2). -/
def State.stopBackground (s : State) : State :=
  let t := s.store.folds.foldl (fun s f => s.dropFold f) s
  let t := t.store.drains.foldl (fun (s : State) d =>
    s.vacate (mpaCh (slotMpa d.slot)) (mpaDie (slotMpa d.slot)) (mpaPlane (slotMpa d.slot))) t
  let t := (t.groupsIn .resetting).foldl (fun s g => (s.groupVacate g).setGroup g { s.group g with st := .reclaimable }) t
  (State.showFolds { t with
    store.drains := []
    store.urgent := []
    store.deadTiles := []
    store.ckptRun := none
    store.gcRun := [] }).put F.MAP_CKPT_STAT_BUSY 0

/-- An image begins: steps 2 to 4 of R156, and what is suspended on a die goes on (R209). None is written unless the media are
formatted (R154). -/
def State.beginImage (s : State) (clean : Bool) : State :=
  let t := (s.stopBackground.resumeDies true).settleWrites.saveDmr.tagFlush
  if !s.formatted then t
  else
    let t := (List.range 128).foldl (fun s key => s.closeGroup key) t
    let t : State := State.mark { t with store.imageRun := some clean } 99
    (t.put F.MAP_ECL_STAT_RUN 1).put F.MAP_ECL_STAT_COMPLETE 0

/-- DDR5 fitted, as an image's header names it (R155). -/
def State.geometry (s : State) : Nat := s.store.ddrGib

/-- The image as it is written (R154, R155). -/
def State.makeImage (s : State) (clean : Bool) : Image where
  seq := s.store.imageSeq + 1
  drift := s.drift
  vGib := s.get F.MAP_CFG_VAULT_GIB
  h64 := s.get F.MAP_CFG_HALO_64
  l64m := s.get F.MAP_CFG_DELTA_64M
  geometry := s.geometry
  ckptB := s.newestB
  ckptSeq := (match s.newestCkpt with | some c => c.seq | none => 0)
  clean := clean
  complete := true
  vault := s.store.vault
  halo := s.store.halo
  delta := s.store.delta
  dmr := s.store.recArea
  met := s.rgn.met.map (fun p => (p.1, p.2.live))
  logPos := (match s.newestCkpt with | some c => c.logPos | none => 0)

/-- The trailer reads back (R155): the image, which began at mark 99, is complete in the armed band, the one that BAND does not
name. -/
def State.imageDone (s : State) : State :=
  match s.store.imageRun with
  | none => s
  | some clean =>
    let i := s.makeImage clean
    let us := s.usSince 99
    let t : State := if s.flag F.MAP_STAT_BAND then { s with store.bandA := some i } else { s with store.bandB := some i }
    let t : State := { t with
      store.imageRun := none
      store.imageSeq := i.seq }
    let t := ((t.put F.MAP_ECL_STAT_RUN 0).put F.MAP_ECL_STAT_COMPLETE 1).put F.MAP_ECL_STAT_SEQ i.seq
    (t.put F.MAP_ECL_US_duration us).post 0x01 0x02 i.seq us

/-! ### The media format (R160) -/

/-- Shows S and the user capacity of the sizes in force (R129, R130). -/
def State.showSizes (s : State) : State :=
  let h := s.get F.MAP_CFG_HALO_64
  let t := s.put F.MAP_USER_TILES_user (userTiles h)
  t.wr64 R.MAP_ECL_SIZE_LO (saveSize (s.get F.MAP_CFG_VAULT_GIB) h (s.get F.MAP_CFG_DELTA_64M))

/-- The store with nothing mapped and nothing held, as a start finds DDR5. -/
def State.emptyDdr (s : State) : State :=
  let t : State := { s with
    store.vault := []
    store.cache := []
    store.cacheUse := []
    store.recArea := []
    store.halo := []
    store.drains := []
    store.map := []
    store.folds := []
    store.urgent := []
    store.deadTiles := []
    store.opened := []
    store.delta := []
    store.metaArr := []
    key.tags := [] }
  let t := (t.setDmr []).wr64 R.HALO_VALID_LO 0
  let t := t.ccDropAll (fun _ _ => true)
  ((t.wr R.MAP_DELTA_USED 0).showHalo.showVault).showMapped.showPoison.showFolds

/-- The store's contents after a format began: with them go the poison list, what was pending for tiles and slots, and the mark
MEASURED of the level tables (R167). -/
def State.emptyStore (s : State) : State :=
  let t : State := { s.emptyDdr with
    store.poison := []
    wear.corrected := []
    wear.badAtFold := []
    wear.refresh := []
    wear.haloTiles := []
    wear.levels := s.wear.levels.map (fun q => (q.1, { q.2 with measured := false })) }
  t.showPoison

/-- What a format places on a channel and plane with retired groups among the lowest: the places in order, on the groups that are left
in rising tile order, and the reserve on the next of them (R128, R187). -/
def State.placeLive (s : State) (key : Nat) : List (Nat × Nat) × Option Nat :=
  let n := (metaGroups + 127 - key) / 128
  let gone := s.store.groups.countP (fun q => groupKey q.1 == key && q.2.st == .retired)
  let live := ((List.range (n + 1 + gone)).map (fun j => key + 128 * j)).filter (fun g => (s.group g).st != .retired)
  (((live.take n).zipIdx.map (fun q => (key + 128 * q.2, q.1))).filter (fun q => q.1 != q.2), live[n]?)

/-- The format places roles and reserve where their own groups are retired (R128). -/
def State.placeRoles (s : State) : State :=
  let keys := ((s.store.groups.filter (fun q => q.2.st == .retired && decide (q.1 < metaGroups + 128))).map (fun q => groupKey q.1)).eraseDups
  keys.foldl (fun s key =>
    let (roles, res) := s.placeLive key
    let s := roles.foldl (fun (s : State) q =>
      { s.setGroup q.2 { s.group q.2 with st := .metadata } with wear.roles := mapPut s.wear.roles q.1 q.2 }) s
    match res with
    | some g => s.setGroup g { s.group g with st := .reserve }
    | none => s) { s with wear.roles := [] }

/-- A write of MAP_FMT_CTL (R160, R161). -/
def State.writeFmtCtl (s : State) (p : Path) (v : Word) : State :=
  if !s.mayWrite p R.MAP_FMT_CTL || !F.MAP_FMT_CTL_GO.on v then s
  else
    let refuse := fun (c : Nat) => s.put F.MAP_FMT_CTL_CODE c
    if F.MAP_FMT_CTL_KEY.of v ≠ 0x464D then refuse 1
    else if s.rgn.descs.any (fun q => dValid q.2) then refuse 2
    else if s.store.fmtRun then refuse 3
    else if s.halted then refuse 4
    else
      let t := refuse 0
      let t := ((t.put F.MAP_CFG_VAULT_GIB (t.get F.MAP_CFG_NEXT_VAULT_GIB)).put F.MAP_CFG_HALO_64
        (t.get F.MAP_CFG_NEXT_HALO_64)).put F.KEY_CFG_INTEG (t.get F.KEY_CFG_INTEG_NEXT)
      let groups := t.store.groups.filterMap (fun q =>
        let e : GroupEnt := { q.2 with
          st := if q.2.st = .retired then .retired else .asFormat
          live := 0
          dead := 0
          void := 0
          parityDie := t.parityFor q.1
          closeOrder := 0 }
        if e = groupInit t.store.roleGens t.haloTiles q.1 then none else some (q.1, e))
      let t : State := { t.emptyStore with
        store.fmtRun := true
        store.fmt := none
        store.groups := groups
        store.closeCount := 0
        store.ckptA := none
        store.ckptB := none
        store.ckptRun := none
        store.bandA := none
        store.bandB := none
        rgn.releases := []
        wear.roleDue := []
        wear.metaOwed := []
        wear.roFree := false
        wear.warned := 0 }
      (t.placeRoles.showSizes).showReleases.put F.MAP_STAT_FMT 2

/-- The format completes: bands, checkpoint copies and the reserve are reset, and the record is written with FRESH (R160). -/
def State.formatDone (s : State) : State :=
  if !s.store.fmtRun then s
  else
    let made : FormatRec := ⟨s.get F.MAP_CFG_VAULT_GIB, s.get F.MAP_CFG_HALO_64, s.integ, true⟩
    let t : State := { s with
      store.fmtRun := false
      store.fmt := some made
      store.ckptAt := s.aonTick.toNat
      wear.retiredAtFormat := (List.range 32).filterMap (fun c =>
        if s.positionsOut c = 0 then none else some (c, s.positionsOut c)) }
    let t := [0, 1, 2, 3].foldl (fun s r => s.resetRole r) t
    let t := t.ageRole 4
    ((t.put F.MAP_STAT_FMT 1).put F.MAP_STAT_ARMED 1).showCkpt.settleGroups

/-! ### Replay (R158, R159) -/

/-- A record of the log applied to the map and the descriptors (R151, R153). -/
def applyDelta (m : SMap MapEnt × SMap (BitVec 512)) : DeltaRec → SMap MapEnt × SMap (BitVec 512)
  | .mapSet t e => (mapPut m.1 t e, m.2)
  | .mapClear t => (mapDel m.1 t, m.2)
  | .descriptor r d => (m.1, mapPut m.2 r d)
  | _ => m

/-- The map and descriptors that an image gives: its checkpoint with its log over it (R158 steps 2 and 3). -/
def replayed (c : Option Checkpoint) (i : Image) : SMap MapEnt × SMap (BitVec 512) :=
  i.delta.foldl applyDelta (match c with | some c => (c.map, c.descs) | none => ([], []))

/-- An entry of the restored map: HALO_CNT from the restored Halo index, no fold in progress. -/
def restoreEnt (halo : SMap HaloEnt) (t : Nat) (e : MapEnt) : MapEnt :=
  { e with
    haloCnt := halo.countP (fun p => p.2.valid && tileOfLine p.2.line == t)
    folding := false }

/-- The restored map, with an entry for every tile that the map or the Halo index names. -/
def restoreMap (m : SMap MapEnt) (halo : SMap HaloEnt) : SMap MapEnt :=
  let tiles := m.map (·.1) ++ (halo.filter (fun p => p.2.valid)).map (fun p => tileOfLine p.2.line)
  tiles.foldl (fun acc t => mapSet (fun _ => mapEnt0) acc t (restoreEnt halo t (mapGet (fun _ => mapEnt0) m t))) []

/-- A restored descriptor: dword 7 shows ROLE 0b001 broken; the rest of dwords 7 to 11 is zero until the terminator records are
copied (R153). -/
def restoreDesc (d : BitVec 512) : BitVec 512 :=
  let d := mirrorDesc d
  if dRole d = 1 then setDw d 7 (fieldPut 0 28 1 1) else d

/-- Copies the terminator records of the NV store into their regions; each engine that one names is stopped (R102). -/
def State.loadTrm (s : State) : State :=
  let recs := match s.recUsed 3 with
    | some bs => (chunks 16 (bs.length / 16) bs).map TrmRec.ofBytes
    | none => []
  let recs := recs.filter (fun r => r.mode != 0)
  recs.foldl (fun (s : State) r =>
    let w := BitVec.ofNat 32 (r.key + 2 ^ 14 * r.mode + 2 ^ 16 * r.engine + 2 ^ 18 + 2 ^ 19 * r.kgen)
    ((s.setDesc r.region (setDw (s.desc r.region) 8 w)).setTrmBound r.region r.engine r.bound).put
      (F.TRM_STAT_STATE r.engine) 5) { s with
        key.trmRecs := recs
        rgn.trmCut := (recs.filter (·.cut)).map (·.region) }

/-- P of a tile re-encoded at drift clock d, at the scale that R163 gives its age: EPOCH, and whether LOW_MARGIN is set (R165). -/
def restamp (d age : Nat) : BitVec 12 × Bool :=
  let p := d - age
  let scale := if age < 512 then 0 else if age < 512 * 32 then 1 else if age < 512 * 1024 then 2 else 3
  (epochOf scale p, decide (age ≥ 16777216))

/-- Restamps every mapped tile, each change a map entry set of the delta log (R151, R165). `off` is the drift clock when the image in
use was written. -/
def State.restampAll (s : State) (off : Nat) : State :=
  s.store.map.foldl (fun s q =>
    if q.2.mapped then
      let p := off - ageOf off q.2.epoch
      let r := restamp s.drift (s.drift - p)
      let e : MapEnt := { q.2 with
        epoch := r.1
        lowMargin := q.2.lowMargin || r.2 }
      if e = q.2 then s else (s.setTile q.1 e).logDelta (.mapSet q.1 e)
    else s) s

/-- The live counters are lost at a start without an image (R125); epochs that passed without a latch are still to be flagged
(R124). -/
def State.lostMet (s : State) : State :=
  s.rgn.descs.foldl (fun s p => s.setMet p.1 { metInit with lost := true }) s

/-- A group of the table as a start rebuilds it (R150): a data position is live when a tile's map entry names it, and dead when one
did; a group that power loss caught open, with its positions void, or resetting is closed or reclaimable. -/
def rebuildGroup (ht : Nat) (live : List Nat) (g : Nat) (e : GroupEnt) : GroupEnt :=
  let on := (List.range 16).foldl (fun v d => if live.contains (groupPos ht g d) then v ||| bit16 d else v) (0 : BitVec 16)
  let dead := (e.dead ||| e.live) &&& ~~~ on
  let e := { e with
    live := on
    dead := dead
    void := if e.st = GroupSt.opened then e.void ||| ~~~ (on ||| dead ||| e.retired ||| bit16 e.parityDie) else e.void }
  match e.st with
  | .resetting => { e with st := .reclaimable }
  | .opened => { e with st := if on = 0 then .reclaimable else .closed }
  | .closed => { e with st := if on = 0 then .reclaimable else .closed }
  | .reclaimable => { e with st := if on = 0 then .reclaimable else .closed }
  | _ => e

/-- Rebuilds the group table from the tile map, the log, the metadata list and the retirement tables (R150, R158 step 6). -/
def State.rebuildGroups (s : State) : State :=
  let live := (s.store.map.filter (fun p => p.2.mapped)).map (fun p => p.2.pos)
  { s with
    store.opened := []
    store.groups := mapMapD (groupInit s.store.roleGens s.haloTiles) (rebuildGroup s.haloTiles live) s.store.groups }

/-- Every unit of a region with ROLE 0b001 is marked at a start (R153, R300). -/
def State.markRoles (s : State) : State :=
  { s with rgn.dirtyMap := s.rgn.descs.filterMap (fun p => if dRole p.2 = 1 then some (p.1, allUnits p.2) else none) }

/-- What every start does that replays no image: the group table is rebuilt (R150), the terminator records are copied (R102), and the
counts and causes follow the retirement tables (R184, R191). -/
def State.startBare (s : State) : State := (s.rebuildGroups.loadTrm.showCkpt).settleGroups

/-- The descriptors return as the newest complete checkpoint left them (R153). -/
def State.ckptDescs (s : State) : State :=
  State.markRoles { s with rgn.descs := match s.newestCkpt with
    | some c => c.descs.map (fun p => (p.1, restoreDesc p.2))
    | none => [] }

/-- No image can be used (R159): code 2 where none is there, 3 where one is incomplete. -/
def State.startLost (s : State) (code : Nat) : State :=
  let t := (s.emptyDdr.put F.MAP_STAT_FMT 3).put F.MAP_STAT_START code
  (t.ckptDescs.lostMet.startBare).post 0x01 0x05 t.store.imageSeq 0

/-- Replays an image (R158 steps 2 to 7, R165). No rule gives HALO_SEQ after a replay: the model takes the largest SEQ restored plus 1,
so that no fold meets an older one again; and MAP_REPLAY_US takes a free value (log 65). -/
def State.replayImage (s : State) (i : Image) (bandB half : Bool) : State :=
  let (m, ds) := replayed (if i.ckptB then s.store.ckptB else s.store.ckptA) i
  let t := s.emptyDdr
  let stamp := t.stampNow
  let t : State := { t with
    store.map := restoreMap m i.halo
    store.halo := i.halo
    store.delta := i.delta
    store.vault := i.vault.map (fun p => (p.1, { p.2 with
      dirty := true
      stamp := stamp }))
    store.metaArr := i.vault.map (fun p => (p.1, metaBlock { p.2 with
      dirty := true
      stamp := stamp }))
    store.imageSeq := i.seq
    store.recArea := i.dmr
    store.ckptAt := t.aonTick.toNat
    rgn.descs := ds.map (fun p => (p.1, restoreDesc p.2))
    rgn.met := i.met.map (fun p => (p.1, { metInit with
      live := p.2
      restored := true })) }
  let t := t.rgn.descs.foldl (fun s p => if dValid p.2 then s.setMet p.1 { s.met p.1 with restored := true } else s) t
  let t := t.setDmr i.dmr
  let t := t.wr64 R.HALO_VALID_LO (i.halo.countP (fun p => p.2.valid))
  let t := t.wr R.HALO_SEQ (BitVec.ofNat 32 (i.halo.foldl (fun n p => max n (p.2.seq.toNat + 1)) 0))
  let t := t.wr R.MAP_DELTA_USED (BitVec.ofNat 32 ((t.deltaUnits * 16 + 63) / 64))
  let t := State.rebuildGroups { t.markRoles with store.bandResetDue := true }
  let t := t.loadTrm
  let t := (t.rgn.descs.filter (fun p => dValid p.2 && dType p.2 == 0 && !dPart p.2)).foldl (fun s p =>
    (List.range (dSize p.2 * 256)).foldl (fun s i => s.unmapTile (dBase p.2 * 256 + i)) s) t
  let t := t.restampAll i.drift
  let t := (((t.put F.MAP_STAT_FMT 1).put F.MAP_STAT_START 0).put F.MAP_STAT_BAND (if bandB then 1 else 0)).put
    F.MAP_STAT_CLEAN (if i.clean then 1 else 0)
  let other := if bandB then t.store.bandA else t.store.bandB
  let t := t.put F.MAP_STAT_ARMED (if other.isNone && !half then 1 else 0)
  let (f, t) := t.fresh
  let t := t.put F.MAP_REPLAY_US_duration f.toNat
  (t.showHalo.showVault).showMapped.showPoison.showRefl.showCkpt.evacFolds.settleGroups

/-- The image a start uses: the complete one with the higher sequence (R158 step 1, R159). -/
def State.startImage (s : State) : Option (Image × Bool) :=
  match s.store.bandA, s.store.bandB with
  | some a, some b => if a.seq < b.seq then some (b, true) else some (a, false)
  | some a, none => some (a, false)
  | none, some b => some (b, true)
  | none, none => none

/-- DDR_MIB as it acts (R281). -/
def State.ddrMib (s : State) : Nat := min 4096 (s.get F.STQ_CFG_DDR_MIB)

/-- The read cache's sets: what DDR5 leaves after the fixed areas, the stream area and the Orbit area (R127, R133). -/
def State.cacheSetsFor (s : State) : Nat :=
  let v := s.get F.MAP_CFG_VAULT_GIB * 2 ^ 30
  let h := s.get F.MAP_CFG_HALO_64 * 2 ^ 36
  let l := s.get F.MAP_CFG_DELTA_64M * 2 ^ 26
  let fixed := v + v / 8 + 5 * 2 ^ 20 + h / 16 + 8 * s.get F.MAP_USER_TILES_user + l + 64 * s.groupsPer * 128 + 128 * 76 * 2 ^ 10 +
    256 * 2 ^ 20 + 512 * 2 ^ 20
  let areas := s.ddrMib * 2 ^ 20 + s.get F.ORB_CFG_AREA_16M * 2 ^ 24
  (s.store.ddrGib * 2 ^ 30 - fixed - areas) * 8 / 9 / 4096

/-- Every range whose release record is present is walked again, after replay and before a commit can be accepted (R234). -/
def State.walkAgain (s : State) : State :=
  let t := s.rgn.releases.foldl (fun s r => (List.range (r.2.2 - r.2.1)).foldl (fun s i => s.walkTile (r.2.1 + i)) s) s
  State.showReleases { t with
    rgn.releases := []
    rgn.walked := [] }

/-- A section CMAC of the image fails at a start: an integrity failure in a metadata tile (R94, R159). The line that KEY_HALT_ADDR
names is a free value: the manual gives the lines of a band no numbers (log 70). -/
def State.imageHalt (s : State) : State :=
  let (f, t) := s.fresh
  ((t.put F.MAP_STAT_FMT 1).startBare).raiseHalt 7 0 0 (f.toNat % 2 ^ 36) true

/-- The areas of DDR5 that a start fixes: the stream area in force, and the read cache in what is left (R133, R269, R281). -/
def State.fixAreas (s : State) : State :=
  let t := s.showSizes.put F.STQ_STAT_AREA s.ddrMib
  { t with store.cacheSets := t.cacheSetsFor }

/-- A start finds the media (R158, R159): `halfImage` says that a band holds an image without its trailer, `read` what reading the
lines of the image gave. Where no format record says which sizes are in force, the model takes those of the next format (log 86). -/
def State.findMedia (s : State) (halfImage : Bool) (read : ImageRead) : State :=
  let s := s.put F.MAP_CFG_DELTA_64M (s.get F.MAP_CFG_NEXT_DELTA_64M)
  match s.store.fmt with
  | none =>
    let s := (s.put F.MAP_CFG_VAULT_GIB (s.get F.MAP_CFG_NEXT_VAULT_GIB)).put F.MAP_CFG_HALO_64 (s.get F.MAP_CFG_NEXT_HALO_64)
    ((s.fixAreas.put F.MAP_STAT_FMT 0).put F.MAP_STAT_START 1).startBare
  | some f =>
    let s := ((s.put F.MAP_CFG_VAULT_GIB f.v).put F.MAP_CFG_HALO_64 f.h).put F.KEY_CFG_INTEG (if f.integ then 1 else 0)
    let s := s.fixAreas
    match s.startImage with
    | some (i, b) =>
      if i.geometry ≠ s.geometry then (((s.put F.MAP_STAT_FMT 1).put F.MAP_STAT_START 4).startBare).put F.MODE_HOLD_WHY_GEOM 1
      else match read with
        | .good => (s.replayImage i b halfImage).walkAgain
        | .undecodable => (s.startLost 3).walkAgain
        | .badCmac _ => s.imageHalt
    | none =>
      if f.fresh then
        ((((State.ckptDescs { s with store.ckptAt := s.aonTick.toNat }).put F.MAP_STAT_FMT 1).put F.MAP_STAT_START 1).put
          F.MAP_STAT_ARMED (if halfImage then 0 else 1)).startBare.evacFolds.walkAgain
      else (s.startLost (if halfImage then 3 else 2)).walkAgain

/-- The band just used is reset, as reclaim resets groups: in the background in Normal or Degraded service, when the power bucket
allows (R158 step 8). The model takes it as one step of an idle cycle (log 68). -/
def State.resetUsedBand (s : State) : State :=
  if s.store.bandResetDue && s.backgroundRuns && (s.service == svNormal || s.service == svDegraded) then
    let b := s.flag F.MAP_STAT_BAND
    let t : State := { s with
      store.bandResetDue := false
      store.bandA := if b then s.store.bandA else none
      store.bandB := if b then none else s.store.bandB }
    t.resetRole (if b then 1 else 0)
  else s

/-- The other band's last programmed group has verified after its reset (R158 step 8). -/
def State.bandArmed (s : State) : State :=
  if s.flag F.MAP_STAT_ARMED || !s.lit || !s.formatted then s
  else
    let t : State := if s.flag F.MAP_STAT_BAND then { s with store.bandA := none } else { s with store.bandB := none }
    (t.resetRole (if s.flag F.MAP_STAT_BAND then 0 else 1)).put F.MAP_STAT_ARMED 1

/-! ### The commands -/

def execCheckpointStart (s : State) : Host.Outcome State Fault Refusal := .next s.ckptStart
def execCheckpointDone (s : State) : Host.Outcome State Fault Refusal := .next s.ckptDone

def execMediaFormat (p : Path) (v : Word) (s : State) : Host.Outcome State Fault Refusal := .next (s.touch.writeFmtCtl p v)
def execMediaFormatDone (s : State) : Host.Outcome State Fault Refusal := .next s.formatDone

end Sys2Proof.Machine
end

