-- ==== Sys2Proof/Machine/Ddr.lean ====
section
/-! DEFINITION. What lies encrypted under the device key: DDR5, row by row (R69, R78, R127, R132, R138, R141, R151, R153), and the
metadata groups on media, Eclipse bands and checkpoint copies with their mirrors (R79, R128, R152 to R155). State holds these as
plain values (log 22); this file computes the stored bytes from them. Layouts that the manual does not give are the model's
(log 71). -/

namespace Sys2Proof.Machine

/-! ### DDR5 areas (R127) -/

/-- Sizes of the DDR5 areas in R127's order for V in GiB, H and L in 64 GiB and 64 MiB units: vault data, vault metadata array, vault
record area, Halo index, tile map, map delta log, group table with open-group parity, region descriptor table, working area. -/
def ddrSizes (v h l : Nat) : List Nat :=
  [v * 2 ^ 30, v * 2 ^ 27, 5 * 2 ^ 20, h * 2 ^ 32, 8 * userTiles h, l * 2 ^ 26, 64 * ((131072 - h * 2048) * 128) + 128 * 76 * 2 ^ 10,
    2 ^ 28, 2 ^ 29]

/-- DDR5 location at which area `i` begins: the areas follow one another in R127's order (log 71). -/
def ddrBase (v h l i : Nat) : Nat := ((ddrSizes v h l).take i).sum

/-- A DDR5 unit of 256 B as stored: XTS under slot 0, its tweak the location divided by 256 (R69, R78). -/
def ddrEnc (loc : Nat) (bs : List Byte) : List Byte :=
  xtsEnc (toBytes 32 deviceKey.k1) (toBytes 32 deviceKey.k2) (xtsTweak (loc / 256) 0 2) bs

/-- A metadata block, or the first `n` bytes of it, as stored: one data unit under domain 0x03 with the tweak of the data line that
it describes (R78, R155). -/
def blockEnc (n loc : Nat) (b : BitVec 256) : List Byte :=
  xtsEnc (toBytes 32 deviceKey.k1) (toBytes 32 deviceKey.k2) (xtsTweak (loc / 256) 0 3) (toBytes n b)

/-- The metadata block of an empty way: FMT 0b000, the rest as it was (R132). -/
def emptyBlock (loc : Nat) : BitVec 256 := (Config.staleDdr (loc / 256)).extractLsb' 0 256 &&& ~~~ (7#256 <<< 21)

/-- Data and metadata block of a way at a location. -/
def wayData (ways : SMap VaultWay) (base w : Nat) : LineData :=
  match mapGet? ways w with
  | some x => x.img.data
  | none => Config.staleDdr (base / 256 + w)

def wayBlock (ways : SMap VaultWay) (base w : Nat) : BitVec 256 :=
  match mapGet? ways w with
  | some x => metaBlock x
  | none => emptyBlock (base + 256 * w)

/-- A Halo index entry, 16 B (R138). -/
def haloBytes (e : HaloEnt) : List Byte :=
  leBytes 5 e.line ++ [BitVec.ofNat 8 ((if e.valid then 1 else 0) + (if e.bad then 2 else 0)), 0, 0] ++ toBytes 4 e.seq ++ leBytes 4 0

/-- A tile map entry, 8 B (R141). -/
def mapBytes (e : MapEnt) : List Byte :=
  leBytes 8 (e.pos + 2 ^ 28 * e.epoch.toNat + 2 ^ 40 * e.haloCnt + (if e.mapped then 2 ^ 49 else 0) +
    (if e.folding then 2 ^ 50 else 0) + if e.lowMargin then 2 ^ 51 else 0)

/-- A record of the delta log, in 16 B positions (R151, R153): a descriptor entry as R153 lays it out; of the others the manual gives
no layout, the model takes kind, subject and value (log 71). -/
def deltaBytes (d : DeltaRec) : List Byte :=
  let short := fun (kind subject : Nat) (v : List Byte) => leBytes 1 kind ++ leBytes 7 subject ++ v
  match d with
  | .mapSet t e => short 1 t (mapBytes e)
  | .mapClear t => short 2 t (leBytes 8 0)
  | .groupClosed g => short 3 g (leBytes 8 0)
  | .groupReclaimable g => short 4 g (leBytes 8 0)
  | .groupFree g n => short 5 g (leBytes 8 n)
  | .posRetired m => short 6 m (leBytes 8 0)
  | .descriptor r x => leBytes 1 0xD5 ++ leBytes 3 r ++ leBytes 12 0 ++ toBytes 64 (mirrorDesc x)

/-- A deferred merge record, 320 B (R85, R87): the line, the key with its generation and shadow, the carry checks, the mask and the
new bytes (log 71). -/
def dmrBytes (r : DmrRec) : List Byte :=
  fitBytes 320 (leBytes 5 r.line ++ leBytes 3 r.region ++ leBytes 2 r.key.toNat ++
    leBytes 2 (r.kgen.toNat + 4 * (match r.shadow with | some k => k.val + 1 | none => 0)) ++ leBytes 4 0 ++ toBytes 8 r.cc ++
    leBytes 8 0 ++ toBytes 32 r.mask ++ toBytes 256 r.data)

/-- Bytes 64 to 111 of a region's entry: its live counters (R121). -/
def liveBytes (m : MetLive) : List Byte :=
  [m.bytesRd, m.bytesWr, m.tileTicks, m.engCycles, m.wrFail, m.rdPoison].flatMap (toBytes 8)

/-- A metering buffer, 64 B (R123). -/
def bufBytes (b : MetBuf) : List Byte :=
  [b.epoch, b.tick, b.live.bytesRd, b.live.bytesWr, b.live.tileTicks, b.live.engCycles, b.live.wrFail].flatMap (toBytes 8) ++
    toBytes 4 b.gen ++ leBytes 4 b.flags.toNat

/-- Bytes 0 to 255 of a region's entry in the region descriptor table (R46, R121, R123). -/
def State.regionBytes (s : State) (r : Nat) : List Byte :=
  toBytes 64 (s.desc r) ++ liveBytes (s.met r).live ++ leBytes 16 0 ++ bufBytes (s.met r).buf0 ++ bufBytes (s.met r).buf1

def haloEmpty : HaloEnt := ⟨0, false, false, 0⟩

def haloRow (halo : SMap HaloEnt) (k : Nat) : List Byte :=
  (List.range 16).flatMap (fun i => haloBytes (mapGet (fun _ => haloEmpty) halo (16 * k + i)))

def mapRow (m : SMap MapEnt) (k : Nat) : List Byte :=
  (List.range 32).flatMap (fun i => mapBytes (mapGet (fun _ => mapEnt0) m (32 * k + i)))

/-- 256 B number `k` of a byte sequence. -/
def rowBytes (bs : List Byte) (k : Nat) : List Byte := fitBytes 256 (bs.drop (256 * k))

/-- The metadata block of vault way w in the metadata array: as tag entries were written back to it (R87); with none since the way was
last empty, that of an empty way. -/
def State.arrayBlock (s : State) (w : Nat) : BitVec 256 :=
  match mapGet? s.store.metaArr w with
  | some b => b
  | none => emptyBlock (256 * w)

/-- Where item i of a queue with `n` items of depth `d` lies, its ring counted by the items enqueued (R269, log 71). -/
def itemSlot (enq n d i : Nat) : Nat := (enq + d - n + i) % d

/-- Host line number h of the stream area: an item of the large queue that lies there, or what was there before (R269). -/
def State.streamLine (s : State) (h : Nat) : Option HostLine :=
  s.stq.findSome? (fun q =>
    let c := q.2
    let d := 2 ^ F.STQ_Q_CFG_DEPTH_LOG2.of c.cfg
    let first := F.STQ_Q_BASE_first.of c.base * 1024
    if c.on && F.STQ_Q_CFG_MODE.on c.cfg && decide (first ≤ h) && decide (h < first + d) then
      (c.items.zipIdx.find? (fun i => first + itemSlot c.enq.toNat c.items.length d i.2 == h)).map (·.1)
    else none)

/-- Data of 256 B number k of the stream area. -/
def State.streamData (s : State) (base k : Nat) : LineData :=
  (List.range 4).foldl (fun l i => match s.streamLine (4 * k + i) with
    | some x => setHostLine l i x
    | none => l) (Config.staleDdr (base + k))

/-- The 256 B at DDR5 location `256 * k` as they are stored: nothing in DDR5 is in clear (R69, R127). The stream area comes first in
what the fixed areas leave, then the Orbit area, then the read cache (R133, log 71). The group table is the N16's own, the working area
holds what a control core put there, and the Orbit area what its owner did: of these the manual gives no contents here. -/
def State.ddrRow (s : State) (k : Nat) : List Byte :=
  let v := s.get F.MAP_CFG_VAULT_GIB
  let h := s.get F.MAP_CFG_HALO_64
  let l := s.get F.MAP_CFG_DELTA_64M
  let base := fun i => ddrBase v h l i / 256
  let cache := base 9 + 4096 * s.get F.STQ_STAT_AREA + 2 ^ 16 * s.get F.ORB_CFG_AREA_16M
  let cacheMeta := cache + 16 * s.store.cacheSets
  let blocks := fun (f : Nat → BitVec 256) (at_ j : Nat) =>
    (List.range 8).flatMap (fun i => blockEnc 32 (at_ + 256 * (8 * j + i)) (f (8 * j + i)))
  if k < base 1 then ddrEnc (256 * k) (toBytes 256 (wayData s.store.vault 0 k))
  else if k < base 2 then blocks s.arrayBlock 0 (k - base 1)
  else if k < base 3 then ddrEnc (256 * k) (rowBytes (s.store.recArea.flatMap dmrBytes) (k - base 2))
  else if k < base 4 then ddrEnc (256 * k) (haloRow s.store.halo (k - base 3))
  else if k < base 5 then ddrEnc (256 * k) (mapRow s.store.map (k - base 4))
  else if k < base 6 then ddrEnc (256 * k) (rowBytes (s.store.delta.flatMap deltaBytes) (k - base 5))
  else if base 7 ≤ k ∧ k < base 8 ∧ (k - base 7) % 4 = 0 then ddrEnc (256 * k) (s.regionBytes ((k - base 7) / 4))
  else if base 9 ≤ k ∧ k < base 9 + 4096 * s.get F.STQ_STAT_AREA then
    ddrEnc (256 * k) (toBytes 256 (s.streamData (base 9) (k - base 9)))
  else if cache ≤ k ∧ k < cacheMeta then ddrEnc (256 * k) (toBytes 256 (wayData s.store.cache (256 * cache) (k - cache)))
  else if cacheMeta ≤ k ∧ k < cacheMeta + 2 * s.store.cacheSets then
    blocks (wayBlock s.store.cache (256 * cache)) (256 * cache) (k - cacheMeta)
  else ddrEnc (256 * k) (toBytes 256 (Config.staleDdr k))

/-! ### Eclipse bands (R154, R155) -/

/-- An Eclipse band line: 256 B, spare bytes 0 to 24, BCH (R155). -/
def bandLine (data spare : List Byte) : Stored :=
  let head := data ++ spare
  ofBytes 2432 (head ++ toBytes 23 (Config.bchBand (ofBytes 2248 head)))

/-- Bytes of the five sections, each rounded up to whole band lines (R154): an empty vault has length 0. -/
def Image.lengths (i : Image) : List Nat :=
  [if i.vault.isEmpty then 0 else i.vGib * 2 ^ 30, i.h64 * 2 ^ 32,
    (i.delta.foldl (fun n r => n + r.units) 0 * 16 + 255) / 256 * 256, 5 * 2 ^ 20, 12 * 2 ^ 20]

/-- The DDR5 location of area `i` under the image's sizes. -/
def Image.base (i : Image) (area : Nat) : Nat := ddrBase i.vGib i.h64 i.l64m area

/-- The metering live counters of region r as stored: bytes 64 to 111 of its entry, three whole blocks of its first unit (R154
section 5). -/
def Image.metBytes (i : Image) (r : Nat) : List Byte :=
  let live := match mapGet? i.met r with
    | some m => m
    | none => metInit.live
  ((ddrEnc (i.base 7 + 1024 * r) (leBytes 64 0 ++ liveBytes live ++ leBytes 144 0)).drop 64).take 48

/-- Data of line k of a section: the DDR5 image of its area as it stands under slot 0, not decrypted (R154). -/
def Image.sectionData (i : Image) (sec k : Nat) : List Byte :=
  match sec with
  | 1 => ddrEnc (256 * k) (toBytes 256 (wayData i.vault 0 k))
  | 2 => ddrEnc (i.base 3 + 256 * k) (haloRow i.halo k)
  | 3 => ddrEnc (i.base 5 + 256 * k) (rowBytes (i.delta.flatMap deltaBytes) k)
  | 4 => ddrEnc (i.base 2 + 256 * k) (rowBytes (i.dmr.flatMap dmrBytes) k)
  | _ => (((List.range 7).flatMap (fun j => i.metBytes (256 * k / 48 + j))).drop (256 * k % 48)).take 256

/-- Spare bytes 0 to 24 of line k of a section (R155). -/
def Image.sectionSpare (i : Image) (sec k : Nat) : List Byte :=
  if sec = 1 then blockEnc 25 (256 * k) (wayBlock i.vault 0 k)
  else leBytes 1 sec ++ leBytes 4 k ++ leBytes 20 0

/-- The CMAC of a section under K3 of slot 0, over data and spare bytes 0 to 24 in line order (R155). -/
def Image.sectionCmac (i : Image) (sec : Nat) : List Byte :=
  cmac (toBytes 32 deviceKey.k3) ((List.range (i.lengths.getD (sec - 1) 0 / 256)).flatMap (fun k =>
    i.sectionData sec k ++ i.sectionSpare sec k))

/-- The header's data: what R155 lists, in its order, 8 B a value (log 71). -/
def Image.header (i : Image) : List Byte :=
  fitBytes 256 (([i.seq, i.vGib * 2 ^ 30, i.h64 * 2 ^ 36, i.l64m * 2 ^ 26, i.geometry, i.ckptSeq, i.logPos] ++ i.lengths ++
    [if i.clean then 1 else 0]).flatMap (leBytes 8))

/-- The trailer's data: the image sequence and each section's CMAC (R155). -/
def Image.trailer (i : Image) : List Byte :=
  fitBytes 256 (leBytes 8 i.seq ++ [1, 2, 3, 4, 5].flatMap i.sectionCmac)

/-- Section and line within it of line n of the sections together. -/
def sectionAt : Nat → List Nat → Nat → Option (Nat × Nat)
  | _, [], _ => none
  | sec, l :: ls, n => if n < l / 256 then some (sec, n) else sectionAt (sec + 1) ls (n - l / 256)

/-- Line n of an image: header, sections 1 to 5, trailer; none beyond it (R154). -/
def Image.lineAt (i : Image) (n : Nat) : Option Stored :=
  if n = 0 then some (bandLine i.header (leBytes 25 0))
  else match sectionAt 1 i.lengths (n - 1) with
    | some (sec, k) => some (bandLine (i.sectionData sec k) (i.sectionSpare sec k))
    | none => if n = 1 + i.lengths.sum / 256 then some (bandLine i.trailer (leBytes 25 6)) else none

/-! ### Metadata tiles (R69, R79, R152, R153) -/

/-- A metadata-tile line: the integrity-on layout, its MAC under slot 0, domain 0x04 (R69, R79). The manual gives a metadata tile no
DPA: its line number here is its place's number among the metadata lines (log 71). -/
def metaTileLine (lineNo : Nat) (data : List Byte) : Stored :=
  let d : LineData := ofBytes 2048 data
  encodeStored deviceKey 4 lineNo (formMac deviceKey lineNo ⟨d, carryChecks d, 0, 0, 0, true, 0⟩)

/-- Data of line n of a checkpoint copy: the tile map, then the trailer with the sequence and P (R152). -/
def Checkpoint.lineData (c : Checkpoint) (tiles n : Nat) : Option (List Byte) :=
  if n < tiles / 32 then some (mapRow c.map n)
  else if n = tiles / 32 then some (fitBytes 256 (leBytes 8 c.seq ++ leBytes 8 c.logPos))
  else none

/-- Data of line n of a descriptor mirror: bytes 0 to 63 of four descriptors (R153). -/
def Checkpoint.mirrorData (c : Checkpoint) (n : Nat) : Option (List Byte) :=
  if n < 65536 then some ((List.range 4).flatMap (fun i => toBytes 64 (mirrorDesc (mapGet (fun _ => 0) c.descs (4 * n + i)))))
  else none

/-- The place that a group holds, when it is a metadata group (R128, R179). -/
def State.placeOf (s : State) (g : Nat) : Option Nat :=
  if decide (g < metaGroups) && s.roleGroup g == g then some g
  else (s.wear.roles.find? (fun q => q.2 == g)).map (·.1)

/-- 256 B number k of a sparse area of bytes. -/
def sparseLine (m : SMap Byte) (k : Nat) : List Byte := (List.range 256).map (fun i => mapGet (fun _ => 0) m (256 * k + i))

/-- The settings mirror: the registers that the settings record sets, offset and word (R417). -/
def State.settingBytes (s : State) : List Byte := s.settings.flatMap (fun q => leBytes 4 q.1 ++ toBytes 4 q.2)

/-- The format record: V, H, INTEG and FRESH (R159, R160). -/
def FormatRec.bytes (f : FormatRec) : List Byte :=
  leBytes 8 (f.v * 2 ^ 30) ++ leBytes 8 (f.h * 2 ^ 36) ++ [if f.integ then 1 else 0, if f.fresh then 1 else 0]

/-- The poison list: host lines, each with whether it was injected (R60). -/
def State.poisonBytes (s : State) : List Byte := s.store.poison.flatMap (fun q => leBytes 7 q.1 ++ [if q.2 then 1 else 0])

/-- The retirement tables: each listed group with its retired positions, parity die and generation, the units out of service, and the
lifetime count of PROGRAM-1 lines (R178 to R182). -/
def State.retireBytes (s : State) : List Byte :=
  leBytes 8 s.wear.prog1 ++ s.wear.planesOut.flatMap (leBytes 4) ++ leBytes 4 0xFFFFFFFF ++ s.wear.diesOut.flatMap (leBytes 4) ++
    leBytes 4 0xFFFFFFFF ++ s.store.groups.flatMap (fun q => leBytes 4 q.1 ++ toBytes 2 q.2.retired ++ leBytes 2 q.2.parityDie ++
      leBytes 8 q.2.gen)

/-- Data of line n of the 547 groups that hold no checkpoint: the descriptor mirrors of copies A and B, the label storage areas, the
settings mirror, the format record, the poison list and the retirement tables, each at a place that the model gives it (R57, R69,
R128, R153, log 71). -/
def State.otherMeta (s : State) (n : Nat) : Option (List Byte) :=
  if n < 65536 then s.store.ckptA.bind (fun c => c.mirrorData n)
  else if n < 131072 then s.store.ckptB.bind (fun c => c.mirrorData (n - 65536))
  else if n < 139264 then some (sparseLine (s.port ((n - 131072) / 1024)).lsa ((n - 131072) % 1024))
  else if n < 139392 then some (rowBytes s.settingBytes (n - 139264))
  else if n = 139392 then s.store.fmt.map (fun f => fitBytes 256 f.bytes)
  else if n < 262144 then some (rowBytes s.poisonBytes (n - 139393))
  else some (rowBytes s.retireBytes (n - 262144))

/-- What the N16 last wrote to metadata line n of place i: bands A and B, checkpoint copies A and B, and the rest in the 547 groups
(log 71). Lines go to the data positions in rising die order, 256 a position. -/
def State.metaData (s : State) (i n : Nat) : Option Stored :=
  let at_ := fun (first : Nat) => (i - first) * 3840 + n
  let tiles := s.get F.MAP_USER_TILES_user
  let tile := (metaTileLine (i * 3840 + n))
  let image := fun (x : Option Image) (n : Nat) => x.bind (fun m => m.lineAt n)
  if i < 40414 then image s.store.bandA (at_ 0)
  else if i < 80828 then image s.store.bandB (at_ 40414)
  else if i < 82655 then (s.store.ckptA.bind (fun c => c.lineData tiles (at_ 80828))).map tile
  else if i < 84482 then (s.store.ckptB.bind (fun c => c.lineData tiles (at_ 82655))).map tile
  else (s.otherMeta (at_ 84482)).map tile

/-- The data dies of a group in rising order. -/
def metaDies (parity : Nat) : List Nat := (List.range 16).filter (· != parity)

/-- What the cells of a media position hold: those of a metadata group what the N16 wrote there, its parity tile the XOR of the other
positions (R142, R152 to R155), unless they hold something of their own. -/
def State.mediaCell (s : State) (mpa : Nat) : Stored :=
  let own := s.cell mpa
  if mpaTile mpa < s.haloTiles || own != erased then own
  else
    let g := posGroup s.haloTiles (mpa / 256)
    match s.placeOf g with
    | none => own
    | some i =>
      let par := (s.group g).parityDie
      let line := fun (d : Nat) => s.metaData i ((metaDies par).idxOf d * 256 + mpaLine mpa)
      if mpaDie mpa = par then
        match (metaDies par).filterMap line with
        | [] => own
        | xs => xs.foldl (· ^^^ ·) 0
      else (line (mpaDie mpa)).getD own

end Sys2Proof.Machine
end

