-- ==== Sys2Proof/Machine/Wear.lean ====
section
/-! DEFINITION. The drift clock and epochs (R162 to R165), level tables and recalibration (R166 to R169), die temperatures
(R170), scrub (R171, R172, R176), unpowered time (R177), and units that leave service (R180, R182, R184). -/

namespace Sys2Proof.Machine

/-! ### The drift clock (R162) -/

def State.driftTick (s : State) : State := s.wr R.MED_DRIFT_CLK (s.rd R.MED_DRIFT_CLK + 1)

/-- Stores the drift clock record in the NV store: the clock in the first group (log 13). -/
def State.storeDrift (s : State) : State := s.storeRecord 2 (leBytes 8 s.drift)

/-- The clock that the record holds. -/
def State.driftRecord (s : State) : Nat := match s.recUsed 2 with | some bs => leNat (bs.take 4) | none => 0

/-! ### The sweep (R163, R164) -/

/-- The action of R163 on a map entry at drift clock d: none while its age is below 512 units. -/
def sweepEnt (d : Nat) (e : MapEnt) : Option MapEnt :=
  let sc := epochScale e.epoch
  let age := ageOf d e.epoch
  if !e.mapped || decide (age < 512 * epochUnit sc) then none
  else if sc = 3 then (if e.lowMargin then none else some { e with lowMargin := true })
  else some { e with epoch := epochOf (sc + 1) (d - age) }

/-- Sweeps the whole map; each change is a map entry set of the delta log (R151, R164). -/
def State.epochSweep (s : State) : State :=
  if !s.lit || !s.formatted || s.store.imageRun.isSome then s
  else s.store.map.foldl (fun s q => match sweepEnt s.drift q.2 with
    | some e => (s.setTile q.1 e).logDelta (.mapSet q.1 e)
    | none => s) s

/-! ### Temperatures (R166, R170, R171) -/

/-- The temperature class (R171). -/
def tempClass (t : Nat) : Nat :=
  let q := tempInt t
  if q ≤ 160 then 0 else if q ≤ 220 then 1 else if q ≤ 280 then 2 else if q ≤ 340 then 3
  else if q ≤ 380 then 4 else if q ≤ 420 then 5 else 6

def State.dieMiss (s : State) (c d : Nat) : Nat := (mapGet? s.wear.miss (dieIdx c d)).getD 0


/-- The class of the hottest temperature that a channel's dies have last reported. -/
def State.chanClass (s : State) (c : Nat) : Nat := (List.range 16).foldl (fun n d => max n (tempClass (s.dieTemp c d))) 0

/-- The class in force in a pass: that of the hottest temperature since it began, and 6 while a die gives none (R170, R171). -/
def State.classNow (s : State) (c : Nat) (q : ScrubSt) : Nat :=
  if (List.range 16).any (fun d => s.dieMiss c d ≥ 3) then 6 else q.cls

/-- Shows the hottest die of a channel (R213), the lowest-numbered among equals. -/
def State.showHot (s : State) (c : Nat) : State :=
  let d := (List.range 16).foldl (fun b d => if tempInt (s.dieTemp c b) < tempInt (s.dieTemp c d) then d else b) 0
  (s.put (F.MED_HOT_TEMP c) (s.dieTemp c d)).put (F.MED_HOT_DIE c) d

/-- The class in force follows the hottest class since the pass began (R171, R190). -/
def State.raiseClass (s : State) (c : Nat) : State :=
  match mapGet? s.wear.scrub c with
  | none => s
  | some q =>
    let q := { q with cls := max q.cls (s.chanClass c) }
    State.put { s with wear.scrub := mapPut s.wear.scrub c q } (F.MED_SCRUB_STAT_CLASS c) (s.classNow c q)

/-- A die's temperature is read, or gives none (R170); an overdue die is sent no TEMP (R208). -/
def State.tempPoll (s : State) (c d : Nat) (reading : Option Nat) : State :=
  let i := dieIdx c d
  if (s.die c d).overdue then s else
  match reading with
  | some t =>
    let t : State := { s with
      wear.temps := mapPut s.wear.temps i t
      wear.miss := mapDel s.wear.miss i }
    (t.showHot c).raiseClass c
  | none =>
    let n := s.dieMiss c d + 1
    let t : State := { s with wear.miss := mapPut s.wear.miss i (min 7 n) }
    let t := if n = 3 then t.post 0x04 0x06 (uDie c d) 0 else t
    t.raiseClass c

/-! ### Level tables (R167 to R169) -/

def insertNat (x : Nat) : List Nat → List Nat
  | [] => [x]
  | y :: ys => if x ≤ y then x :: y :: ys else y :: insertNat x ys

/-- The median of samples: the lower middle one. -/
def median (l : List Nat) : Nat :=
  let t := l.foldl (fun acc x => insertNat x acc) []
  t.getD ((t.length - 1) / 2) 0

/-- VALLEY(h, k) of samples grouped by level: the lowest code among those that hold the fewest samples between the medians of
levels k - 1 and k (R169). -/
def valley (h : List (List Nat)) (k : Nat) : Nat :=
  let a := median (h.getD (k - 1) [])
  let b := median (h.getD k [])
  let lo := min a b
  let n := max a b - lo + 1
  let all := h.flatten
  ((List.range n).map (fun i => (all.count (lo + i), lo + i))).foldl
    (fun best x => if x.1 < best.1 then x else best) (all.count lo, lo) |>.2

/-- THR + (v - THR) div 4, toward zero (R169). -/
def stepThr (thr v : Nat) : Nat := ((thr : Int) + ((v : Int) - (thr : Int)).tdiv 4).toNat

/-- The mean over planes of VALLEY, as a whole number. -/
def meanValley (planes : List (List (List Nat))) (k : Nat) : Nat :=
  planes.foldl (fun n h => n + valley h k) 0 / max 1 planes.length

/-- An entry moved towards the valleys v of k = 1 on. -/
def LevelEnt.toward (e : LevelEnt) (v : Nat → Nat) : LevelEnt := ⟨e.thr.zipIdx.map (fun p => stepThr p.1 (v (p.2 + 1))), true⟩

/-- Updates an entry from the samples of the planes. -/
def LevelEnt.update (e : LevelEnt) (planes : List (List (List Nat))) : LevelEnt := e.toward (meanValley planes)

def codes (l : List (List (List (BitVec 14)))) : List (List (List Nat)) := l.map (fun a => a.map (fun b => b.map (·.toNat)))

/-- The level table entry that a step of a die calibrates now: of its age, or of the 1-bit row (R169). -/
def State.stepEntry (s : State) (c d j : Nat) : Nat :=
  let tb := tempBin (s.dieTemp c d)
  let age := s.drift - s.ladderAt (dieIdx c d) j
  levelKey (dieIdx c d) (if j < 12 then ageBin age * 8 + tb else 256 + tb)

/-- One step of a recalibration (R169): reprogrammed when its age has come, once every plane can take a CALIBRATE (R194); else its
entry moves towards the valleys that `f` takes from the entry as it was. The soft-reads of its lines suspend what runs on their planes,
are charged and cross the bus (R109, R115). -/
def State.calStep (s : State) (c d j : Nat) (f : State → LevelEnt → LevelEnt × State) : State :=
  if s.drift - s.ladderAt (dieIdx c d) j ≥ stepAge j then
    (if (List.range 4).all (fun p => s.planeFree c d p false) then s.calibrate c d j else s)
  else
    let n := 4 * (stepLines j).length
    let k := s.stepEntry c d j
    let s := (List.range 4).foldl (fun s p => s.suspendFor ⟨.maint, none, none⟩ c d p) s
    let (e, t) := f ((s.charge (10 * n)).bus c (n * (16 + 22 + 16 + 1218))) (s.level k)
    { t with wear.levels := mapPut t.wear.levels k e }

/-- Recalibrates a die (R168, R169); it waits while the power level is not positive, and while the die is overdue (R115, R208).
`samples` are by ladder step, plane and level of the cells; `samples1` by plane and level. -/
def State.recalibrate (s : State) (c d : Nat) (samples : List (List (List (List (BitVec 14)))))
    (samples1 : List (List (List (BitVec 14)))) : State :=
  if !s.lit || s.halted || s.chanOut c || decide (s.adm.power ≤ 0) || (s.die c d).overdue then s
  else
    (List.range 13).foldl (fun s j =>
      let h := if j < 12 then samples.getD j [] else samples1
      s.calStep c d j (fun t e => (if h.isEmpty then e else e.update (codes h), t))) (s.wake [8 + c])

/-- Fifteen level codes as free values: the valleys of a step that phase 1 of the catch-up scrub measures (log 7). -/
def State.freeValleys (s : State) : (Nat → Nat) × State :=
  let (f, t) := s.fresh
  (fun k => f.toNat / 2 ^ (14 * (k - 1)) % 2 ^ 14, t)

/-- The dies in service. -/
def State.diesUp (s : State) : List (Nat × Nat) :=
  ((List.range 512).map (fun i => (i / 16, i % 16))).filter (fun q => !s.chanOut q.1 && !s.wear.diesOut.contains (dieIdx q.1 q.2))

/-- Phase 1 of the catch-up scrub recalibrates every die once; what it measures are free values (R176). -/
def State.recalibrateAll (s : State) : State :=
  s.diesUp.foldl (fun s q => (List.range 13).foldl (fun s j =>
    s.calStep q.1 q.2 j (fun t e =>
      let (v, u) := t.freeValleys
      (e.toward v, u))) s) s

/-! ### Scrub (R171, R172, R176) -/

/-- The bulk and the Halo deadline of a class in seconds (R171). -/
def bulkDeadline (cls : Nat) : Nat := [1209600, 604800, 259200, 86400, 28800, 7200, 1800].getD cls 1800
def haloDeadline (cls : Nat) : Nat := [4838400, 2419200, 1036800, 345600, 115200, 28800, 7200].getD cls 7200

/-- The deadlines in force on a channel. -/
def State.deadline (s : State) (c cls : Nat) : Nat := bulkDeadline cls / 2 ^ s.get (F.MED_SCRUB_CFG_DEADLINE_SHIFT c)
def State.haloLimit (s : State) (c cls : Nat) : Nat := haloDeadline cls / 2 ^ s.get (F.MED_SCRUB_CFG_DEADLINE_SHIFT c)

/-- The bulk lines and the Halo lines of a pass, as media positions (R171). -/
def State.scrubBulk (s : State) (c : Nat) : List Nat :=
  (s.store.map.filter (fun p => p.2.mapped && mpaCh (p.2.pos * 256) == c)).flatMap (fun p =>
    (List.range 256).map (fun i => p.2.pos * 256 + i))

def State.scrubHalo (s : State) (c : Nat) : List Nat :=
  (s.store.halo.filter (fun p => p.2.valid && mpaCh (slotMpa p.1) == c)).map (fun p => slotMpa p.1)

/-- The lines of a pass: every line of every mapped bulk tile, and every valid Halo slot, on the channel (R171). -/
def State.scrubSet (s : State) (c : Nat) : List Nat := s.scrubBulk c ++ s.scrubHalo c

/-- A catch-up scrub has come to a tile: no older one on the channel has a line left (R176). -/
def State.oldestFirst (s : State) (c tile : Nat) (seen : List Nat) : Bool :=
  s.store.map.all (fun p => !p.2.mapped || mpaCh (p.2.pos * 256) != c || decide (s.tileAge p.1 ≤ s.tileAge tile) ||
    (List.range 256).all (fun i => seen.contains (p.2.pos * 256 + i)))

/-- Scrub may issue work on a channel; an ordinary pass pauses while EN is 0 (R176, R190). -/
def State.scrubRuns (s : State) (c : Nat) (catchUp : Bool) : Bool :=
  s.backgroundRuns && s.service != svHold && !s.chanOut c &&
  (if catchUp then s.service == svNormal || s.service == svDegraded else s.flag (F.MED_SCRUB_CFG_EN c))

/-- A pass starts; the first after a start is phase 2 of the catch-up scrub (R171, R176). -/
def State.scrubStart (s : State) (c : Nat) : State :=
  let catchUp := s.wear.catchDue.contains c
  if (mapGet? s.wear.scrub c).isSome || !s.scrubRuns c catchUp then s
  else
    let q : ScrubSt := ⟨s.drift, [], s.chanClass c, catchUp⟩
    let t : State := { s with
      wear.scrub := mapPut s.wear.scrub c q
      wear.catchDue := s.wear.catchDue.filter (· != c) }
    ((t.put (F.MED_SCRUB_STAT_PROGRESS c) 0).put (F.MED_SCRUB_STAT_CATCHUP c) (if catchUp then 1 else 0)).put
      (F.MED_SCRUB_STAT_CLASS c) (t.classNow c q)

/-- The logical tile or the line that owns a media position. -/
def State.ownerLine (s : State) (mpa : Nat) : Option (Nat × Bool) :=
  match s.store.map.find? (fun p => p.2.mapped && p.2.pos == mpa / 256) with
  | some (t, _) => some (t * 256 + mpa % 256, false)
  | none => match s.store.halo.find? (fun p => p.2.valid && slotMpa p.1 == mpa) with
    | some (_, e) => some (e.line, true)
    | none => none

/-- A pass has finished a tile: the predicted count may set LOW_MARGIN (R172). -/
def State.predict (s : State) (c tile : Nat) (cls : Nat) : State :=
  let n := (mapGet? s.wear.corrected tile).getD 0
  let age := s.tileAge tile
  let p := n + (ageBin (age + s.deadline c cls) - ageBin age) / 4
  if p ≥ s.rewriteBits c then s.setLowMargin tile else s

/-- A pass ends when its last line has been read. -/
def State.scrubEnd (s : State) (c : Nat) (q : ScrubSt) : State :=
  let t : State := { s with
    wear.scrub := mapDel s.wear.scrub c
    wear.lastPass := mapPut s.wear.lastPass c q.began }
  (t.put (F.MED_SCRUB_STAT_PROGRESS c) 100).put (F.MED_SCRUB_STAT_CATCHUP c) 0

/-- A line that a pass could not read has deep recovery for its region (R38). -/
def State.maintDeep (s : State) (b : Reader) (line : Nat) : State :=
  match s.regionAt (line * 256) with
  | some (g, _) => s.startDeepAt line g (fun u => u.countBy b 0x24 1)
  | none => s

/-- A maintenance read of a pass: it is issued, and says what it found (R109, R114, R115, R119, R172, R174). One of a failed die is
reconstructed where parity serves (R182), one that is to be read around too, and read itself where that fails (R109); a line that does
not decode is recovered (R38). -/
def State.maintRead (s : State) (line mpa : Nat) (halo : Bool) (r : MediaResult) : State :=
  let tile := tileOfLine line
  let b : Reader := ⟨.maint, s.tileClass tile, some (line * 256)⟩
  let out := s.unitOut (mpaCh mpa) (mpaDie mpa) (mpaPlane mpa)
  if out && (halo || s.reconBlocked mpa) then s.maintDeep b line
  else
    let recon := out || s.readsAround mpa halo
    let t := if recon then s.issueRecon b mpa else s.issueRead b mpa tile halo
    match r with
    | .decoded n _ => if recon then t else (t.countBy b 0x25 n).noteRead line mpa halo n false
    | .undecodable =>
      if out then t.maintDeep b line
      else
        let t := if recon then t.issueRead b mpa tile halo else t
        ((t.countBy b 0x20 1).noteRead line mpa halo 0 true).maintDeep b line

/-- The next maintenance read of a pass (R171, R172, R174, R38); it waits while its class's media-read bucket is below 1 (R114), and
phase 2 of the catch-up scrub takes the oldest tiles first (R176). -/
def State.scrubRead (s : State) (c mpa : Nat) (r : MediaResult) : State :=
  match mapGet? s.wear.scrub c with
  | none => s
  | some q =>
    let all := s.scrubSet c
    if !s.scrubRuns c q.catchUp then s
    else if !all.contains mpa || q.seen.contains mpa then
      (if all.all q.seen.contains then s.scrubEnd c q else s)
    else match s.ownerLine mpa with
      | none => s
      | some (line, halo) =>
      if s.readsWait (tileOfLine line) || s.dieSilent mpa halo false || (q.catchUp && !halo && !s.oldestFirst c (tileOfLine line) q.seen) then s
      else
        let q := { q with seen := q.seen ++ [mpa] }
        let s := State.maintRead { s with wear.scrub := mapPut s.wear.scrub c q } line mpa halo r
        let s := if !halo && (List.range 256).all (fun i => q.seen.contains (mpa / 256 * 256 + i)) then
            s.predict c (tileOfLine line) (s.classNow c q) else s
        let s := s.put (F.MED_SCRUB_STAT_PROGRESS c) (min 100 (q.seen.length * 100 / max 1 all.length))
        if all.all q.seen.contains then s.scrubEnd c q else s

/-- A deadline of R171 has passed: of a pass that has bulk lines, or Halo lines, still to read; while EN is 0 and no pass runs, that of
the pass that would be due, counted from the start of the last one (R190). -/
def State.deadlinePassed (s : State) (c : Nat) : Bool :=
  match mapGet? s.wear.scrub c with
  | some q =>
    let k := s.classNow c q
    (decide (s.deadline c k ≤ s.drift - q.began) && (s.scrubBulk c).any (fun m => !q.seen.contains m)) ||
    (decide (s.haloLimit c k ≤ s.drift - q.began) && (s.scrubHalo c).any (fun m => !q.seen.contains m))
  | none => !s.flag (F.MED_SCRUB_CFG_EN c) && decide (s.deadline c (s.chanClass c) ≤ s.drift - (mapGet? s.wear.lastPass c).getD 0)

/-- A pass's deadline passes before it ends, or passes while EN is 0 (R171, R190). -/
def State.scrubDeadline (s : State) (c : Nat) : State :=
  if s.deadlinePassed c then (s.put (F.MED_SCRUB_STAT_MISSED c) 1).post 0x04 0x05 (uChan c) 0 else s

/-- HOURS of MEDn_SCRUB_STAT: since the start of the last completed pass. -/
def State.scrubHours (s : State) (c : Nat) : Nat :=
  match mapGet? s.wear.lastPass c with
  | some b => min 65535 ((s.drift - b) / 3600)
  | none => 0

/-! ### Unpowered time (R162, R177) -/

/-- The largest whole number whose 16th power is at most x, below 2^n. -/
def root16 : Nat → Nat → Nat
  | 0, _ => 0
  | n + 1, x =>
    let r := 2 * root16 n (x / 2 ^ 16)
    if (r + 1) ^ 16 ≤ x then r + 1 else r

/-- Ages that an estimate may find: 0, and 2^(n/16) s in whole seconds, sixteen to an age bin up to 2^26 s (log 74). -/
def estimateAges : List (Nat × Nat) := (List.range 417).map (fun n => (n, root16 28 (2 ^ n)))

/-- THRk of a die at age 2^(n/16) s: between the entries of adjacent age bins linearly in log2 of the age, an entry standing at the
lowest age of its bin (R177, log 74). -/
def State.thrAt (s : State) (c d n k : Nat) : Nat :=
  let at_ := fun (b : Nat) => ((s.level (levelKey (dieIdx c d) (min 31 b * 8 + tempBin (s.dieTemp c d)))).thr).getD (k - 1) 0
  let b := n / 16 + 1
  (at_ b * (16 - n % 16) + at_ (b + 1) * (n % 16)) / 16

/-- The sum over k of |v - THRk| at an age. -/
def State.misfit (s : State) (c d n : Nat) (v : Nat → Nat) : Nat :=
  (List.range 15).foldl (fun a i => a + ((v (i + 1) : Int) - (s.thrAt c d n (i + 1) : Int)).natAbs) 0

/-- The age whose thresholds best match the valleys; the youngest among equals (R177 step 2). -/
def State.bestAge (s : State) (c d : Nat) (v : Nat → Nat) : Nat :=
  (estimateAges.foldl (fun (b : Nat × Nat) q =>
    let m := s.misfit c d q.1 v
    if m < b.1 then (m, q.2) else b) (s.misfit c d 0 v, 1)).2

/-- D_off: the drift clock when the image in use was written (R165); without one, when the drift clock record was (log 74). -/
def State.driftOff (s : State) : Nat := match s.startImage with | some (i, _) => i.drift | none => s.driftRecord

/-- What an estimate is counted from, so that one below zero is a number too. -/
def estimateZero : Nat := 2 ^ 33

/-- A die's estimate, from `estimateZero` on: the median over steps 8 to 11 of the age found less the step's age at D_off; the
soft-reads are charged (R115, R177 steps 1 to 3). -/
def State.dieEstimate (s : State) (c d : Nat) : Nat × State :=
  let r := [8, 9, 10, 11].foldl (fun (a : List Nat × State) j =>
    let (v, t) := ((a.2.charge 160).bus c (16 * (16 + 22 + 16 + 1218))).freeValleys
    (a.1 ++ [estimateZero + t.bestAge c d v - (t.driftOff - t.ladderAt (dieIdx c d) j)], t)) ([], s)
  (median r.1, r.2)

/-- Phase 1 at POR: the unpowered time is estimated and the drift clock, set to its record at the scan, advanced (R162, R177). What the
soft-reads measure are free values. -/
def State.estimateUnpowered (s : State) : State :=
  let r := s.diesUp.foldl (fun (a : List Nat × State) q =>
    let (e, t) := a.2.dieEstimate q.1 q.2
    (a.1 ++ [e], t)) ([], s)
  let t := r.2
  let est := if r.1.isEmpty then estimateZero else median r.1
  let u := min (est - estimateZero) (2 ^ 25 - 1)
  let t := (t.put F.MED_UNPOWERED_U u).put F.MED_UNPOWERED_SAT (if est ≠ estimateZero + u then 1 else 0)
  let t := if est ≠ estimateZero + u then t.post 0x04 0x07 0 u else t
  let t := if est > estimateZero + 7776000 then t.post 0x04 0x07 0 u else t
  t.wr R.MED_DRIFT_CLK (BitVec.ofNat 32 (s.drift + u))

/-! ### Units that leave service (R180, R182, R184) -/

/-- A unit's entry shows a change that leaves its STATE as it is (R23). -/
def State.touchUnit (s : State) (u : Nat) : State :=
  let e := s.unit u
  { s with
    board.ents := mapSet (fun _ => unitInit) s.board.ents u { e with gen := e.gen + 1 }
    board.changed := addOnce s.board.changed u }

/-- Positions or Halo lines that are live on a plane or die. -/
def State.liveOn (s : State) (u : Nat) : Bool :=
  let here := fun (c d p : Nat) => if u ≥ 2048 then 2048 + dieIdx c d == u else planeId c d p == u
  s.store.groups.any (fun q => (List.range 16).any (fun d => q.2.live.getLsbD d && here (groupCh q.1) d (groupPlane q.1))) ||
  (u < 2048 || !s.wear.diesOut.contains (u - 2048)) &&
    s.store.halo.any (fun q => q.2.valid && here (mpaCh (slotMpa q.1)) (mpaDie (slotMpa q.1)) (mpaPlane (slotMpa q.1)))

/-- A die is marked retired (R180); the metadata positions of its planes still in service are replaced (R187). -/
def State.retireDie (s : State) (i : Nat) : State :=
  let planes := if s.wear.diesOut.contains i then [] else (List.range 4).filter (fun p => !s.wear.planesOut.contains (i * 4 + p))
  let t : State := { s.replaceMeta (i / 16) planes with
    wear.diesOut := addOnce s.wear.diesOut i
    wear.evac := s.wear.evac.filter (fun u => u == 2048 + i || u / 4 != i) }
  (t.setUnit (48 + i) ustRetired).post 0x04 0x01 (48 + i) 0

/-- A channel is retired: Read-only until the next start (R184). -/
def State.retireChan (s : State) (c : Nat) : State :=
  if s.chanOut c then s
  else
    let t : State := { s with wear.chansOut := addOnce s.wear.chansOut c }
    (((t.put (F.MED_STAT_STATE c) 5).setUnit (uChan c) ustRetired).post 0x04 0x01 (uChan c) 0).settleGroups

/-- A die fails outright: it is retired at once, its positions are rebuilt from their groups, and its Halo lines are poisoned
(R182). A line that cannot be formed now, for want of its key or of a way, stays in its slot, whose reads come back poisoned. A
channel on which more than 8 dies have failed has failed itself (R180, R209; log 72). The buckets left dead are those that
`State.bucketDead` finds from the retired units. -/
def State.failDie (s : State) (c d : Nat) : State :=
  let i := dieIdx c d
  if s.wear.diesOut.contains i then s
  else
    let t := s.retireDie i
    let t : State := { t with wear.evac := addOnce t.wear.evac (2048 + i) }
    let lost := t.store.halo.filter (fun q => q.2.valid && mpaCh (slotMpa q.1) == c && mpaDie (slotMpa q.1) == d)
    let t := lost.foldl (fun s q =>
      let line := q.2.line
      if (s.vaultHit line).isSome then s.haloFreeSlot q.1
      else
        let region := match s.regionAt (line * 256) with | some (r, _) => r | none => 0
        let s := s.post 0x04 0x04 (slotMpa q.1) 0
        match (s.lostLine region line).bind (s.place line) with
        | some u => u.haloFreeSlot q.1
        | none => (s.notePoison line 0xF false).showPoison) t
    let t := State.evacFolds t
    if 8 < t.wear.diesOut.countP (fun x => x / 16 == c) then t.retireChan c else t.settleGroups

/-- No live data remains on an evacuating unit: it is retired, or its rebuild ends; two retired planes send their die after them
(R180, R182). -/
def State.evacDone (s : State) (u : Nat) : State :=
  if !s.wear.evac.contains u || s.liveOn u then s
  else
    let t : State := { s with wear.evac := s.wear.evac.filter (· != u) }
    if u ≥ 2048 then
      (if t.wear.diesOut.contains (u - 2048) then t else t.retireDie (u - 2048)).settleGroups
    else
      let die := u / 4
      let t : State := { t.replaceMeta (u / 64) [u % 4] with wear.planesOut := addOnce t.wear.planesOut u }
      let t := (t.touchUnit (48 + die)).post 0x04 0x01 (48 + die) 0
      if t.wear.planesOut.countP (fun q => q / 4 == die) ≥ 2 && !t.wear.diesOut.contains die then t.beginEvac (2048 + die)
      else t.settleGroups

/-- The unit that EVACUATION_DONE names. -/
def evacUnit : EvacUnit → Nat
  | .plane c d p => planeId c.val d.val p.val
  | .die c d => 2048 + dieIdx c.val d.val

/-! ### The commands -/

def execDriftClockTick (s : State) : Host.Outcome State Fault Refusal := .next s.driftTick
def execDriftRecordStore (s : State) : Host.Outcome State Fault Refusal := .next s.storeDrift
def execEpochSweep (s : State) : Host.Outcome State Fault Refusal := .next s.epochSweep

def execRecalibration (ch : Fin 32) (die : Fin 16) (samples : List (List (List (List (BitVec 14)))))
    (samples1 : List (List (List (BitVec 14)))) (s : State) : Host.Outcome State Fault Refusal :=
  .next (s.recalibrate ch die samples samples1)

def execDieTempPoll (ch : Fin 32) (die : Fin 16) (reading : Option (BitVec 12)) (s : State) :
    Host.Outcome State Fault Refusal := .next (s.tempPoll ch die (reading.map (·.toNat)))

def execScrubPassStart (ch : Fin 32) (s : State) : Host.Outcome State Fault Refusal := .next (s.scrubStart ch)

def execScrubRead (ch : Fin 32) (pos : Nat) (r : MediaResult) (s : State) : Host.Outcome State Fault Refusal :=
  .next (s.scrubRead ch pos r)

def execScrubDeadline (ch : Fin 32) (s : State) : Host.Outcome State Fault Refusal := .next (s.scrubDeadline ch)

def execEvacuationDone (u : EvacUnit) (s : State) : Host.Outcome State Fault Refusal := .next (s.evacDone (evacUnit u))

end Sys2Proof.Machine
end

