-- ==== Sys2Proof/Machine/Media.lean ====
section
/-! DEFINITION. Media channels and M32 dies: command frames and what a die does with them (R192 to R206), the N16's care of
dies (R203, R207 to R209, R211, R212), bring-up (R210) and MEDn_CTL (R213). -/

namespace Sys2Proof.Machine

/-! ### Frames (R197, R199) -/

/-- The fields of a frame. -/
structure Frame where
  die : Nat
  plane : Nat
  tile : Nat
  line : Nat
  count : Nat
  arg : Nat
  thr : Nat
deriving DecidableEq, Repr

def frameByte (f : BitVec 128) (i : Nat) : Nat := (byteAt f i).toNat

/-- A frame with the command's opcode in byte 0. -/
def frameOf (op : Nat) (f : BitVec 128) : BitVec 128 := BitVec.ofNat 128 (f.toNat - frameByte f 0 + op)

def frameFields (f : BitVec 128) : Frame where
  die := frameByte f 1 % 16
  plane := frameByte f 1 / 16 % 4
  tile := frameByte f 2 + 256 * frameByte f 3 + 65536 * frameByte f 4
  line := frameByte f 5
  count := frameByte f 6
  arg := frameByte f 7
  thr := (frameByte f 8 + 256 * frameByte f 9) % 2 ^ 14

/-- FCRC matches bytes 0 to 13. -/
def frameCrcOk (f : BitVec 128) : Bool :=
  crc16 (toBytes 14 f) == BitVec.ofNat 16 (frameByte f 14 + 256 * frameByte f 15)

/-- Opcodes of R198. -/
def opRead1 : Nat := 0x01
def opRead4 : Nat := 0x02
def opSoft : Nat := 0x03
def opDataOut : Nat := 0x04
def opDataIn : Nat := 0x08
def opProg1 : Nat := 0x09
def opProg4 : Nat := 0x0A
def opResetTile : Nat := 0x0C
def opSuspend : Nat := 0x10
def opResume : Nat := 0x11
def opStatus : Nat := 0x18
def opTemp : Nat := 0x19
def opReadId : Nat := 0x1A
def opCalibrate : Nat := 0x20
def opTrain : Nat := 0x28
def opResetDie : Nat := 0x3F

/-- The reference lines that a frame addresses. -/
def Frame.isRef (f : Frame) : Bool := f.arg % 2 == 1

/-- Address out of range (ERR 0b011). -/
def Frame.badAddress (f : Frame) (op : Nat) : Bool :=
  if op = opRead1 ∨ op = opProg1 then decide (f.tile > 131071) || decide (f.line > 63)
  else if op = opRead4 ∨ op = opResetTile then decide (f.tile > 131071)
  else if op = opSoft then decide (f.tile > 131071) || (f.isRef && decide (f.line > 49))
  else if op = opDataIn then decide (f.tile > 131071) || decide (f.line + (if f.count = 0 then 256 else f.count) > 256)
  else if op = opProg4 then decide (f.tile > 131071) || f.arg / 16 % 4 == 0
  else if op = opCalibrate then decide (f.tile > 131071) || decide (f.arg % 16 > 12)
  else false

/-- The opcodes of R198. -/
def opcodes : List Nat :=
  [opRead1, opRead4, opSoft, opDataOut, opDataIn, opProg1, opProg4, opResetTile, opSuspend, opResume, opStatus, opTemp, opReadId,
    opCalibrate, opTrain, opResetDie]

/-- The 48 passes of R204 as (strip, pass). -/
def passOrder : List (Nat × Nat) :=
  (List.range 18).flatMap (fun k => (if k ≤ 15 then [(k, 1)] else []) ++
    (if 1 ≤ k ∧ k ≤ 16 then [(k - 1, 2)] else []) ++ (if 2 ≤ k then [(k - 2, 3)] else []))

/-- The pass that a PROGRAM-4 frame names is next in order on its plane (R204). -/
def PlaneSt.passOk (x : PlaneSt) (f : Frame) : Bool :=
  passOrder[x.order]? == some (f.arg % 16, f.arg / 16 % 4) && (x.order == 0 || x.orderTile == f.tile)

/-- The array operation that a frame asks for. -/
def Frame.arrOp (f : Frame) (op : Nat) (thr : BitVec 256) (data : Stored) : Option ArrOp :=
  if op = opRead1 then some (.read1 f.tile f.line f.thr)
  else if op = opRead4 then some (.read4 f.tile f.line thr)
  else if op = opSoft then some (.soft f.isRef f.tile f.line (f.arg / 2 % 4))
  else if op = opProg1 then some (.prog1 f.tile f.line data)
  else if op = opProg4 then some (.prog4 f.tile (f.arg % 16) (f.arg / 16 % 4))
  else if op = opResetTile then some (.reset f.tile)
  else if op = opCalibrate then some (.calibrate (f.arg % 16))
  else none

/-- Some PROGRAM-4 pass runs or is queued on a plane. -/
def PlaneSt.prog4Busy (x : PlaneSt) : Bool :=
  (match x.run with | some (.prog4 ..) => true | _ => false) || x.queued.isSome

/-- The code with which a die rejects a frame, 0 where it takes it (R194, R199): the lowest code that applies. -/
def DieSt.reject (d : DieSt) (op : Nat) (f : BitVec 128) : Nat :=
  let g := frameFields f
  let x := d.plane g.plane
  let array := [opRead1, opRead4, opSoft, opProg1, opProg4, opResetTile, opCalibrate].contains op
  let high := [opProg4, opResetTile, opCalibrate].contains op
  let write := [opProg1, opProg4, opResetTile, opCalibrate].contains op
  let queues := op == opProg4 && (match x.run with | some (.prog4 ..) => true | _ => false) && x.queued.isNone && x.susp.isNone
  if !frameCrcOk f then 1
  else if !opcodes.contains op || (List.range 4).any (fun i => frameByte f (10 + i) != 0) || frameByte f 1 / 64 != 0 then 2
  else if g.badAddress op then 3
  else if (array && x.run.isSome && !queues && !(write && x.susp.isSome)) || (op == opDataIn && x.prog4Busy) then 4
  else if op == opResume && x.susp.isSome && x.run.isSome then 4
  else if (high && !queues && decide (d.highOn g.plane ≥ 2)) ||
      (op == opResume && (match x.susp with | some o => o.high | none => false) && decide (d.highOn g.plane ≥ 2)) then 5
  else if op == opProg4 && !x.passOk g then 6
  else if write && x.susp.isSome then 7
  else 0

/-! ### What a die does with a frame it takes -/

/-- Operations that the N16 repeats when a die reset ended them: reads, RESET-TILE and CALIBRATE (R209). -/
def ArrOp.repeated : ArrOp → Bool
  | .prog1 .. | .prog4 .. => false
  | _ => true

/-- What a die runs or has suspended that is to be repeated after its reset (R209). -/
def DieSt.abandoned (d : DieSt) : List (Nat × ArrOp) :=
  (d.planes.flatMap (fun q => (q.2.run.toList ++ q.2.susp.toList).map (fun o => (q.1, o)))).filter (fun q => q.2.repeated)

/-- A die reset: every operation is abandoned, its buffers and queue cleared, and no temperature converted yet (R198, R200, R201). The
N16 notes what it has to repeat (R209). -/
def DieSt.cleared (d : DieSt) : DieSt := { d with
  planes := []
  err := 0
  wasReset := true
  tempValid := false
  standby := false
  overdue := false
  again := d.again ++ d.abandoned }

/-- The STATUS word (R200). -/
def DieSt.status (d : DieSt) : Word :=
  let bit := fun (b : Bool) (i : Nat) => if b then 2 ^ i else 0
  let ps := (List.range 4).foldl (fun n p =>
    let x := d.plane p
    n + bit x.run.isSome (8 + 6 * p) + bit x.susp.isSome (9 + 6 * p) + bit x.fail (10 + 6 * p) +
      bit x.bufValid (11 + 6 * p) + bit x.done (12 + 6 * p) + bit x.queued.isSome (13 + 6 * p)) 0
  let ready := (List.range 4).all (fun p => (d.plane p).run.isNone && (d.plane p).queued.isNone)
  BitVec.ofNat 32 (bit ready 0 + 2 * d.err + bit d.wasReset 4 + ps)

/-- STATUS with CLR has been reported. -/
def DieSt.acked (d : DieSt) : DieSt :=
  (List.range 4).foldl (fun d p => d.setPlane p { d.plane p with
    done := false
    halted := false
    last := none }) { d with
    err := 0
    wasReset := false
    ownReset := false }

/-- A response with its CRC (R197). -/
def withCrc (bs : List Byte) : List Byte := bs ++ toBytes 2 (crc16 bs)

/-- The READ-ID response (R201): stepping and serial number are the die's own. -/
def State.readIdBytes (c d : Nat) : List Byte :=
  leBytes 2 0x4B52 ++ leBytes 2 0x0032 ++ [byteAt (Config.dieId c d) 0] ++ [BitVec.ofNat 8 d, 4, 3] ++
  toBytes 8 ((Config.dieId c d).extractLsb' 8 64)

def trainPattern : List Byte := (List.range 64).map (fun i => BitVec.ofNat 8 (29 * i + 90))

/-- Starts an array operation on a plane, or queues a pass behind the running one. -/
def DieSt.start (d : DieSt) (p : Nat) (o : ArrOp) : DieSt :=
  let x := d.plane p
  let x := match o with
    | .prog4 t _ _ => { x with
        order := (x.order + 1) % 48
        orderTile := t }
    | .read1 .. | .read4 .. | .soft .. => { x with bufValid := false }
    | _ => x
  d.setPlane p (if x.run.isSome then { x with queued := some o } else { x with
    run := some o
    susps := if x.susp.isSome then x.susps else 0 })

/-- A channel's dies have power. -/
def State.diesPowered (s : State) : Bool := s.power != pwDark

/-- A frame crosses the bus of channel c; the die it names takes or rejects it (R197 to R199). `act` is what a die that takes it
does. An overdue die is sent STATUS, RESUME and DATA-OUT alone (R208). -/
def State.frame (s : State) (c op : Nat) (f0 : BitVec 128) (payload : Nat)
    (act : State → Nat → Frame → DieSt → State) : State :=
  let f := frameOf op f0
  let g := frameFields f
  if !s.diesPowered || ((s.die c g.die).overdue && !([opStatus, opResume, opDataOut].contains op)) then s
  else
    let t := (s.wake [8 + c]).bus c (16 + payload)
    let d := { t.die c g.die with standby := false }
    match d.reject op f with
    | 0 => act t g.die g d
    | e => t.setDie c g.die { d with err := e }

/-- What an array command draws from the power bucket, in nJ (R115). -/
def opCharge (op : Nat) : Nat :=
  if op = opRead1 ∨ op = opRead4 ∨ op = opSoft then 10
  else if op = opProg1 then 15
  else if op = opProg4 then 150
  else if op = opResetTile then 2000
  else 0

/-- The event that an array command is counted under when it is sent (R119); a strip is counted when it verifies (R204). -/
def opEvent (op : Nat) : Option Nat :=
  if op = opRead1 then some 0x39 else if op = opRead4 then some 0x3A else if op = opProg1 then some 0x3B
  else if op = opResetTile then some 0x3D else none

/-- Programs and resets wait while the power level is not positive, but for those of Eclipse (R115). -/
def State.frameHeld (s : State) (op : Nat) : Bool :=
  [opProg1, opProg4, opResetTile].contains op && decide (s.adm.power ≤ 0) && s.power != pwEclipse

/-- An array command (R198, R202), charged and counted when the die takes it; its traffic is maintenance, with no region and no DPA
(R115, R119, log 20). -/
def State.arrayFrame (s : State) (c op : Nat) (f : BitVec 128) (payload : Nat) (thr : BitVec 256) (data : Stored) : State :=
  if s.frameHeld op then s
  else s.frame c op f payload (fun t n g d => match g.arrOp op thr data with
    | some o =>
      let t := if s.power == pwEclipse then t else t.charge (opCharge op)
      let t := match opEvent op with
        | some code => t.maint code 1 none
        | none => t
      t.setDie c n (d.start g.plane o)
    | none => t)

/-- A plane's read buffer as DATA-OUT gives it: a line, or samples with their CRC (R198). -/
def PlaneSt.out (x : PlaneSt) : List Byte := if x.soft then withCrc (toBytes 1216 x.buf) else toBytes 304 x.buf

/-- DATA-OUT: the read buffer crosses the bus; BUF_VALID stays (R198). -/
def State.dataOut (s : State) (c : Nat) (f : BitVec 128) : State :=
  s.frame c opDataOut f 0 (fun t n g d =>
    let bytes := (d.plane g.plane).out
    ((t.setDie c n d).bus c bytes.length).say (.die c n bytes))

/-- DATA-IN: lines LINE to LINE + COUNT - 1 of the tile buffer (R198, R204). -/
def State.dataIn (s : State) (c : Nat) (f : BitVec 128) (lines : List Stored) : State :=
  s.frame c opDataIn f (304 * lines.length) (fun t n g d =>
    let k := if g.count = 0 then 256 else g.count
    let x := d.plane g.plane
    let buf := ((lines.take k).zipIdx).foldl (fun m q => mapSet (fun _ => erased) m (g.line + q.2) q.1) x.tileBuf
    t.setDie c n (d.setPlane g.plane { x with
      tileBuf := buf
      order := 0 }))

/-- SUSPEND (R205, R206). A frame that no access asks for counts as media maintenance, with no region and no DPA, under the filters of
event 0x38: the manual does not attribute it (log 20). -/
def State.suspendOp (s : State) (c : Nat) (f : BitVec 128) : State :=
  s.frame c opSuspend f 0 (fun t n g d =>
    let t := (t.add64 R.QOS_SUSPEND_LO 1).maint 0x38 1 none
    t.setDie c n (d.setPlane g.plane (d.plane g.plane).suspend))

/-- A read that the N16 has issued on a die is still to come, or queued behind one: of a line there, or one of the 15 of a
reconstruction (R109, R110). -/
def State.readsOn (s : State) (c d : Nat) : Bool :=
  s.accesses.any (fun a => match a.stage with
    | .media m _ => mpaCh m == c && ((a.lead && mpaDie m == d) || (a.spec && mpaDie m != d))
    | .recon m => mpaCh m == c && mpaDie m != d
    | _ => false)

/-- RESUME (R206). The N16 sends none while a read is queued for the die (R109). -/
def State.resumeOp (s : State) (c : Nat) (f : BitVec 128) : State :=
  let g := frameFields f
  if s.readsOn c g.die then s
  else s.frame c opResume f 0 (fun t n g d =>
    let x := d.plane g.plane
    match x.susp with
    | some o => t.setDie c n (d.setPlane g.plane { x with
        run := some o
        susp := none })
    | none => t.setDie c n d)

/-- STATUS (R200). -/
def State.statusFrame (s : State) (c : Nat) (f : BitVec 128) : State :=
  s.frame c opStatus f 0 (fun t n g d =>
    (((t.setDie c n (if g.arg % 2 = 1 then d.acked else d)).bus c 6)).say (.die c n (withCrc (toBytes 4 d.status))))

/-- TEMP (R201). -/
def State.tempFrame (s : State) (c : Nat) (f : BitVec 128) : State :=
  s.frame c opTemp f 0 (fun t n _ d =>
    ((t.setDie c n d).bus c 4).say (.die c n (withCrc (leBytes 2 (d.temp.toNat + (if d.tempValid then 32768 else 0))))))

/-- READ-ID (R201). -/
def State.idFrame (s : State) (c : Nat) (f : BitVec 128) : State :=
  s.frame c opReadId f 0 (fun t n _ d => ((t.setDie c n d).bus c 18).say (.die c n (withCrc (State.readIdBytes c n))))

/-- TRAIN: the pattern, or the 64 B received, with the CRC that a response ends with (R197, R198). -/
def State.trainFrame (s : State) (c : Nat) (f : BitVec 128) (data : BitVec 512) : State :=
  let wr := frameByte f 7 % 2 = 1
  s.frame c opTrain f (if wr then 64 else 0) (fun t n _ d =>
    ((t.setDie c n d).bus c 66).say (.die c n (withCrc (if wr then toBytes 64 data else trainPattern))))

/-! ### Operations abandoned (R198, R208, R209) -/

/-- Lines whose cells hold no stated value after a program or reset that failed or is not complete. -/
def State.freeCells (s : State) (mpas : List Nat) : State :=
  mpas.foldl (fun s m =>
    let (v, t) := s.freeLine
    t.setCell m v) s

/-- An operation of a plane did not end as it should: what it was writing holds no stated value (log 7). -/
def State.spoil (s : State) (c d p : Nat) : ArrOp → State
  | .prog1 tile l _ => s.freeCells [mpaOf c d p tile l]
  | .prog4 tile strip _ => s.freeCells ((List.range 16).map (fun i => mpaOf c d p tile (16 * strip + i)))
  | .reset tile => s.freeCells ((List.range 256).map (mpaOf c d p tile))
  | .calibrate j => (stepLines j).foldl (fun s l =>
      let (v, t) := s.freeLine
      t.setRef (planeId c d p) l v) s
  | .read1 .. | .read4 .. | .soft .. => s

/-- The operations that a die runs or has suspended are abandoned. -/
def State.abandon (s : State) (c d : Nat) : State :=
  (s.die c d).planes.foldl (fun s q =>
    let s := match q.2.run with
      | some o => s.spoil c d q.1 o
      | none => s
    match q.2.susp with
      | some o => s.spoil c d q.1 o
      | none => s) s

/-- Folds whose position lies on a die are discarded and their positions void (R209). -/
def State.dropFoldsOn (s : State) (c d : Nat) : State :=
  (s.store.folds.filter (fun f => match f.pos with
    | some p => mpaCh (p * 256) == c && mpaDie (p * 256) == d
    | none => false)).foldl (fun s f => s.dropFold f) s

/-- RESET-DIE (R198, R209, R213). -/
def State.resetDieFrame (s : State) (c : Nat) (f : BitVec 128) : State :=
  s.frame c opResetDie f 0 (fun t n _ d =>
    let t := if d.active then (t.dropFoldsOn c n).abandon c n else t
    (t.setDie c n { d.cleared with ownReset := true }).sat (F.MED_TIMEOUT_DIE_RESETS c) 1)

/-- MnRESET_N low: every die of the channel resets (R195, R201). -/
def State.resetPin (s : State) (c : Nat) : State :=
  if !s.diesPowered then s
  else (List.range 16).foldl (fun s d => (s.abandon c d).setDie c d (s.die c d).cleared) s

/-! ### Array operations end (R202, R204) -/

/-- The plane after its operation ended: a queued pass starts unless it failed (R204). -/
def PlaneSt.ended (x : PlaneSt) (fail : Bool) : PlaneSt := { x with
  run := if fail then none else x.queued
  queued := none
  fail := fail
  done := true
  last := x.run
  susps := 0 }

/-- The sample of cell i: that of a cell at rest at its level, moved by the deviation given for the cell. -/
def sampleOf {n : Nat} (mode4 : Bool) (level : Nat) (dev : BitVec n) (i : Nat) : Nat :=
  ((Config.cellSample mode4 level).toNat + (dev.extractLsb' (14 * i) 14).toNat) % 2 ^ 14

/-- The level of 4-bit cell c of a stored line (R193). -/
def cellLevel (st : Stored) (c : Nat) : Nat := codeLevel (st.extractLsb' (4 * c) 4).toNat

/-- The state of 1-bit cell c of a stored line: 0 low, which reads 1, and 1 high (R193). -/
def cellState (st : Stored) (c : Nat) : Nat := if st.getLsbD c then 0 else 1

/-- READ-1: a cell reads as 0 when its sample is at or above the threshold (R193). -/
def read1Line (st : Stored) (thr : Nat) (dev : BitVec 34048) : Stored :=
  BitVec.ofNat 2432 ((List.range 2432).foldl (fun n c => if thr ≤ sampleOf false (cellState st c) dev c then n else n + 2 ^ c) 0)

/-- READ-4: a cell's level is the number of thresholds that its sample reaches, and its bits are the level's code (R193). -/
def read4Line (st : Stored) (thr : BitVec 256) (dev : BitVec 34048) : Stored :=
  BitVec.ofNat 2432 ((List.range 608).foldl (fun n c =>
    let v := sampleOf true (cellLevel st c) dev c
    let l := (List.range 15).countP (fun k => decide ((thr.extractLsb' (16 * k) 14).toNat ≤ v))
    n + levelCode l * 2 ^ (4 * c)) 0)

/-- SOFT-READ: 608 samples of 14 bits, 2 B each, of a 4-bit line or of a quarter of a 1-bit line (R198). -/
def softLine (st : Stored) (mode4 : Bool) (quarter : Nat) (dev : BitVec 8512) : BitVec 9728 :=
  ofBytes 9728 ((List.range 608).flatMap (fun i =>
    leBytes 2 (sampleOf mode4 (if mode4 then cellLevel st i else cellState st (608 * quarter + i)) dev i)))

/-- The operation of a plane ends with `r`. A SOFT-READ frame names no mode: of a tile line it samples in 1-bit mode in the Halo band,
else in 4-bit mode (R128, R198; log 85). -/
def State.arrayDone (s : State) (c d p : Nat) (r : ArrayResult) : State :=
  if !s.diesPowered then s
  else
    let e := s.die c d
    let x := e.plane p
    let line := fun (tile l : Nat) => mpaOf c d p tile l
    let reads := fun (b : BitVec 9728) (soft : Bool) => s.setDie c d (e.setPlane p { x with
      run := none
      done := true
      last := x.run
      bufValid := true
      soft := soft
      buf := b })
    let ends := fun (s : State) (ok : Bool) => s.setDie c d (e.setPlane p (x.ended (!ok)))
    match x.run, r with
    | some (.read1 tile l thr), .read dev => reads (BitVec.ofNat 9728 (read1Line (s.mediaCell (line tile l)) thr dev).toNat) false
    | some (.read4 tile l thr), .read dev => reads (BitVec.ofNat 9728 (read4Line (s.mediaCell (line tile l)) thr dev).toNat) false
    | some (.soft true _ l q), .samples dev => reads (softLine (s.refLine (planeId c d p) l) (decide (l < 48)) q dev) true
    | some (.soft false tile l q), .samples dev =>
      reads (softLine (s.mediaCell (line tile l)) (decide (s.haloTiles ≤ tile)) q dev) true
    | some (.prog1 tile l data), .verify ok => ends (if ok then s.setCell (line tile l) data else s.spoil c d p (.prog1 tile l data)) ok
    | some (.prog4 tile strip pass), .verify ok =>
      if pass = 3 ∧ ok = true then
        ends (((List.range 16).map (16 * strip + ·)).foldl (fun s l =>
          s.setCell (line tile l) (mapGet (fun _ => erased) x.tileBuf l)) (s.maint 0x3C 1 none)) true
      else ends (s.spoil c d p (.prog4 tile strip pass)) ok
    | some (.reset tile), .verify ok =>
      ends (if ok then ((List.range 256).map (line tile)).foldl (fun s m => s.setCell m erased) s else s.spoil c d p (.reset tile)) ok
    | some (.calibrate j), .verify ok =>
      ends (if ok then (s.writeRefs (planeId c d p) j).setLadder (dieIdx c d) j else s.spoil c d p (.calibrate j)) ok
    | _, _ => s

/-- An array operation's opcode (R198). -/
def ArrOp.opcode : ArrOp → Nat
  | .read1 .. => opRead1
  | .read4 .. => opRead4
  | .soft .. => opSoft
  | .prog1 .. => opProg1
  | .prog4 .. => opProg4
  | .reset _ => opResetTile
  | .calibrate _ => opCalibrate

/-- The N16 repeats what a reset of the die ended, each as soon as its plane and the die's limit let it (R194, R208, R209). -/
def State.repeatWork (s : State) (c d : Nat) : State :=
  (s.die c d).again.foldl (fun s q =>
    let e := s.die c d
    let op := q.2.opcode
    if !s.planeFree c d q.1 q.2.high || s.frameHeld op then s
    else
      let t := s.setDie c d { e.start q.1 q.2 with again := e.again.erase q }
      let t := (t.charge (opCharge op)).bus c (if op = opRead4 then 48 else 16)
      match opEvent op with
      | some code => t.maint code 1 none
      | none => t) s

/-- The operation of a plane ends; what waits for it goes on. While an image runs and in Halted, what is suspended on the die goes on as
soon as it may (R209). -/
def State.arrayEnd (s : State) (c d p : Nat) (r : ArrayResult) : State :=
  let t := (s.arrayDone c d p r).repeatWork c d
  if s.store.imageRun.isSome || s.halted then t.setDie c d ((t.die c d).resumeAll false) else t

/-- A plane's operations are let end, suspended and queued ones too; a free value says whether each verifies (R210, log 7). -/
def State.finishPlane (s : State) (c d p : Nat) : State :=
  (List.range 3).foldl (fun s _ =>
    let x := (s.die c d).plane p
    let s := match x.susp with
      | some o => s.setDie c d ((s.die c d).setPlane p { x with
          run := some o
          susp := none })
      | none => s
    let (f, t) := s.fresh
    t.arrayDone c d p (.verify (f.getLsbD 0))) s

/-- Every operation on the dies is let end (R210). -/
def State.finishDies (s : State) : State :=
  s.dies.foldl (fun s q => q.2.planes.foldl (fun s x =>
    if x.2.run.isSome || x.2.susp.isSome then s.finishPlane (q.1 / 16) (q.1 % 16) x.1 else s) s) s

/-- A die converts its temperature; none where its sensor fails its self-check (R201). -/
def State.convert (s : State) (c d : Nat) (t : Option (BitVec 12)) : State :=
  if !s.diesPowered then s
  else match t with
    | some v => s.setDie c d { s.die c d with
        temp := v
        tempValid := true }
    | none => s.setDie c d { s.die c d with tempValid := false }

/-! ### The N16's care of dies (R203, R207 to R209, R211, R212) -/

/-- DIE_RESET is found set without a RESET-DIE from the N16: the die's folds are discarded, and twice within 1 s fails it (R207,
R209). -/
def State.strayReset (s : State) (c d : Nat) (e : DieSt) : State :=
  if !e.wasReset || e.ownReset then s
  else
    let t := s.dropFoldsOn c d
    match e.strayAt with
    | some k => if s.now < k + oneSecond then t.failDie c d else t
    | none => t

/-- The Halo slot at a media position of the band (R136). -/
def slotAt (c d p tile l : Nat) : Nat := tile * 131072 + p * 32768 + d * 2048 + c * 64 + l

/-- A PROGRAM-4 pass on a position failed: the position retires, and a fold that had taken it goes on with another (R148). -/
def State.progFailed (s : State) (pos : Nat) : State :=
  match s.store.folds.find? (fun f => f.pos == some pos) with
  | some f => (((s.posVacate pos).retireNow pos).satReg R.FOLD_RETRY 1).foldTake f.tile
  | none => (s.retireNow pos).settleGroups

/-- What the N16 does when STATUS shows that an operation failed: as R148, R174 and R180 say of its unit, with a media-health event
(R209). A failed CALIBRATE retires nothing. -/
def State.opFailed (s : State) (c d p : Nat) : ArrOp → State
  | .prog1 tile l _ =>
    if s.haloTiles ≤ tile then s
    else if s.store.drains.any (fun q => q.slot == slotAt c d p tile l) then s.drainDone (slotAt c d p tile l) false
    else ((s.satReg R.HALO_PROG_FAIL 1).markBad (slotAt c d p tile l)).post 0x04 0x01 (mpaOf c d p tile l) 0
  | .prog4 tile _ _ => if tile < s.haloTiles then s else s.progFailed (mpaOf c d p tile 0 / 256)
  | .reset tile => if tile < s.haloTiles then s else (s.retireNow (mpaOf c d p tile 0 / 256)).settleGroups
  | .calibrate _ => s.post 0x04 0x01 (mpaOf c d p 0 0) 0
  | .read1 .. | .read4 .. | .soft .. => s

/-- What the N16 does about one plane of a die that it attends, as STATUS shows the plane: DATA-OUT for a read that ended, and the
outcome of a program, reset or calibration that failed (R203, R209). -/
def State.attendPlane (s : State) (c d p : Nat) (x : PlaneSt) : State :=
  match x.done, x.last with
  | true, some o =>
    if o.suspendable then (if x.fail then s.opFailed c d p o else s)
    else (s.bus c (16 + x.out.length)).say (.die c d x.out)
  | _, _ => s

/-- The N16 takes a die's attention: STATUS with CLR, what its planes report, a reset, whose abandoned work is repeated, and a
rejection recorded (R203, R207, R209). -/
def State.attend (s : State) (c d : Nat) : State :=
  let e := s.die c d
  if !s.lit || !e.attention then s
  else
    let t := ((s.strayReset c d e).setDie c d { e.acked with
      strayAt := if e.wasReset && !e.ownReset then some s.now else e.strayAt }).bus c 22
    let t := (List.range 4).foldl (fun t p => t.attendPlane c d p (e.plane p)) t
    let t := if e.wasReset && !t.wear.diesOut.contains (dieIdx c d) then t.repeatWork c d else t
    if e.err < 2 then t
    else ((t.sat (F.MED_ERR_COUNT c) 1).put (F.MED_ERR_CODE c) e.err).put (F.MED_ERR_DIE c) d

/-- Planes of a die that have an operation to report. -/
def DieSt.waiting (d : DieSt) : Nat := (List.range 4).countP (fun p => (d.plane p).run.isSome || (d.plane p).susp.isSome)

/-- Steps 3 to 5 of R208: RESET-DIE, READ-ID and STATUS, and on a correct READ-ID the die's abandoned work is repeated; else it has
failed. -/
def State.resetOverdue (s : State) (c d : Nat) (restored : Bool) : State :=
  let t := ((s.sat (F.MED_TIMEOUT_DIE_RESETS c) 1).dropFoldsOn c d).abandon c d
  let t := (t.setDie c d (t.die c d).cleared.acked).bus c (16 + 34 + 22)
  if restored then t.repeatWork c d else (t.setDie c d { t.die c d with again := [] }).failDie c d

/-- A die is overdue (R208). A resend helps, here the first STATUS; or after three the N16 resumes what is suspended and waits for the
die's other planes, and the same command says again that this wait has ended, by their reports or by their being overdue too. With no
other plane to wait for, the die is reset at once (log 34). -/
def State.overdue (s : State) (c d : Nat) (resendOk restored : Bool) : State :=
  if !s.lit || s.chanOut c || s.wear.diesOut.contains (dieIdx c d) then s
  else if (s.die c d).overdue then s.resetOverdue c d restored
  else
    let t := (s.sat (F.MED_TIMEOUT_COUNT c) 1).put (F.MED_TIMEOUT_DIE c) d
    if resendOk then t.bus c 22
    else
      let t := (t.setDie c d { (t.die c d).resumeAll false with overdue := true }).bus c (3 * 22)
      if (t.die c d).waiting ≤ 1 then t.resetOverdue c d restored else t

/-- MIN_EYE as it acts (R213). -/
def State.minEye (s : State) (c : Nat) : Nat :=
  let e := s.get (F.MED_TRAIN_CFG_MIN_EYE c)
  if 8 ≤ e ∧ e ≤ 48 then e else 23

/-- Shows a retrain and its eye. -/
def State.noteTrain (s : State) (c d eye : Nat) : State :=
  ((s.sat (F.MED_TRAIN_STAT_RETRAINS c) 1).put (F.MED_TRAIN_STAT_EYE c) eye).put (F.MED_TRAIN_STAT_DIE c) d

/-- The die whose turn a periodic retrain is: the first in service from the turn on (R211). -/
def State.trainNext (s : State) (c : Nat) : Option Nat :=
  let k := (mapGet? s.wear.trainTurn c).getD 0
  ((List.range 16).map (fun i => (k + i) % 16)).find? (fun d => !s.wear.diesOut.contains (dieIdx c d))

/-- A channel's last periodic retrain, or bring-up, was INTERVAL_MS ago: mark 1000 + c (R211). -/
def State.trainDue (s : State) (c : Nat) : Bool :=
  s.get (F.MED_TRAIN_CFG_INTERVAL_MS c) != 0 && s.passed (1000 + c) (200000 * s.get (F.MED_TRAIN_CFG_INTERVAL_MS c))

/-- A die has had its turn: three reads of the pattern have crossed the bus (R211). -/
def State.trained (s : State) (c d : Nat) : State :=
  State.mark ({ s with wear.trainTurn := mapPut s.wear.trainTurn c ((d + 1) % 16) }.bus c (3 * (16 + 66))) (1000 + c)

/-- The phase of a die's strobes after a retrain, of the 64 steps: a free value says whether it stays or moves by one (R211). -/
def State.stepPhase (s : State) (c d : Nat) : State :=
  let (f, s) := s.fresh
  let e := s.die c d
  s.setDie c d { e with phase := if f.toNat % 3 = 0 then e.phase else if f.toNat % 3 = 1 then min 63 (e.phase + 1) else e.phase - 1 }

/-- The phase that a full sweep finds: a free value (R210). -/
def State.sweepPhase (s : State) (c d : Nat) : State :=
  let (f, s) := s.fresh
  s.setDie c d { s.die c d with phase := f.toNat % 64 }

/-- A periodic retrain of the die whose turn it is; an eye below MIN_EYE has a full sweep, and a die that still fails has failed
(R211). It is work for its channel (R30). -/
def State.retrain (s : State) (c d eye sweep : Nat) : State :=
  if !s.lit || s.chanOut c || !s.trainDue c || s.trainNext c != some d || (s.die c d).overdue then s
  else
    let s := s.wake [8 + c]
    if eye ≥ s.minEye c then ((s.noteTrain c d eye).trained c d).stepPhase c d
    else
      let t := ((s.noteTrain c d sweep).trained c d).sweepPhase c d
      if sweep ≥ s.minEye c then t else (t.dropFoldsOn c d).failDie c d

/-- A die with no operation enters standby after MnCK stopped (R212); no die stands by while a Strict region is reached (R32). -/
def State.standby (s : State) (c d : Nat) : State :=
  let e := s.die c d
  if s.power == pwDim && !s.isAwake (8 + c) && !s.strictReached && !e.active then s.setDie c d { e with standby := true } else s

/-- MEDn_CTL.RETRAIN: every die of the channel in service is to be trained in turn (R213). -/
def State.retrainAll (s : State) (c : Nat) : State :=
  let dies := (List.range 16).filter (fun d => !s.wear.diesOut.contains (dieIdx c d))
  (State.put { s.wake [8 + c] with wear.retrainDue := mapPut s.wear.retrainDue c dies } (F.MED_STAT_STATE c) 4).setUnit (uChan c) ustBringUp

/-- Steps 4 to 6 of R210 on the next die of a channel that has no operation; a free value gives its eye. With none left the channel is
in service again. -/
def State.retrainNext (s : State) (c : Nat) (due : List Nat) : State :=
  match due.find? (fun d => !(s.die c d).active && !(s.die c d).overdue) with
  | none => s
  | some d =>
    let left := due.filter (fun e => e != d && !s.wear.diesOut.contains (dieIdx c e))
    let (f, s) := s.fresh
    let eye := f.toNat % 64
    let s := (s.noteTrain c d eye).sweepPhase c d
    let s : State := { s with
      wear.retrainDue := if left.isEmpty then mapDel s.wear.retrainDue c else mapPut s.wear.retrainDue c left }
    let s := if left.isEmpty then (State.showAwake (s.put (F.MED_STAT_STATE c) 2)).setUnit (uChan c) ustService else s
    if eye ≥ s.minEye c then s else s.failDie c d

/-- The dies that MEDn_CTL.RETRAIN has named go on being trained, one of a channel at a time (R213). -/
def State.retrainPending (s : State) : State :=
  s.wear.retrainDue.foldl (fun s q => if s.lit && !s.chanOut q.1 then s.retrainNext q.1 q.2 else s) s

/-- The N16 sends RESET-DIE to a die with no operation (R213). -/
def State.sendResetDie (s : State) (c d : Nat) : State :=
  if !(s.die c d).active && s.diesPowered then
    ((s.setDie c d { (s.die c d).cleared with ownReset := true }).sat (F.MED_TIMEOUT_DIE_RESETS c) 1).bus c 16
  else s

/-- A write of MEDn_CTL (R213). -/
def State.writeMedCtl (s : State) (p : Path) (c : Nat) (v : Word) : State :=
  if !s.mayWrite p (R.MED_CTL c) then s
  else
    let s := if (F.MED_CTL_CNT_CLR c).on v then
        ((s.wr (R.MED_ERR c) 0).wr (R.MED_TIMEOUT c) 0).wr64 (R.MED_BUSY_LO c) 0 else s
    let d := s.get (F.MED_DIE_SEL_DIE c)
    let s := if (F.MED_CTL_DIE_RST c).on v then s.sendResetDie c d else s
    if (F.MED_CTL_RETRAIN c).on v && s.lit && !s.chanOut c then s.retrainAll c else s

/-- MEDn_DIE_INFO and MEDn_DIE_TEMP show the die of MEDn_DIE_SEL. -/
def State.dieInfoWord (s : State) (c : Nat) : Word :=
  let i := Config.dieId c (s.get (F.MED_DIE_SEL_DIE c))
  BitVec.ofNat 32 ((i.extractLsb' 0 8).toNat + 65536 * (i.extractLsb' 8 16).toNat)

def State.dieTempWord (s : State) (c : Nat) : Word :=
  let d := s.get (F.MED_DIE_SEL_DIE c)
  let valid := (mapGet? s.wear.temps (dieIdx c d)).isSome && s.dieMiss c d == 0
  BitVec.ofNat 32 (s.dieTemp c d + (if valid then 4096 else 0) + 8192 * s.dieMiss c d + 65536 * tempBin (s.dieTemp c d))

/-! ### Bring-up (R184, R210) -/

/-- The channels that a bring-up is for: `all` includes retired ones (R184, R210). -/
def State.bringUpChans (s : State) (all : Bool) : List Nat := (List.range 32).filter (fun c => all || !s.chanOut c)

/-- Bring-up begins (R210 step 1): at a warm reset what runs on the dies ends first; then they are reset. -/
def State.beginBringUp (s : State) (all : Bool) : State :=
  let s := if all then s else s.finishDies
  (s.bringUpChans all).foldl (fun s c =>
    let s := (List.range 16).foldl (fun s d => s.setDie c d { (s.die c d).cleared with again := [] }) s
    (State.put { s with wear.retrainDue := mapDel s.wear.retrainDue c } (F.MED_STAT_STATE c) 1).setUnit (uChan c) ustBringUp) s

/-- What bring-up finds of a die, 26 bits of a free value of its channel: bit 0, no correct READ-ID; 1 to 6, its narrowest eye; 7 to
12, its phase; 13, no temperature; 14 to 25, its temperature (log 7). -/
structure DieFound where
  silent : Bool
  eye : Nat
  phase : Nat
  cold : Bool
  temp : Nat
deriving DecidableEq, Repr

def dieFound (f : BitVec 512) (d : Nat) : DieFound :=
  let v := f.toNat / 2 ^ (26 * d)
  ⟨v.testBit 0, v / 2 % 64, v / 2 ^ 7 % 64, v.testBit 13, v / 2 ^ 14 % 4096⟩

/-- A channel shows its narrowest eye, with the die that has it (R210 step 6). -/
def State.showEyes (s : State) (c : Nat) (dies : List (Nat × DieFound)) : State :=
  let b := dies.foldl (fun (b : Nat × Nat) q => if q.2.eye < b.1 then (q.2.eye, q.1) else b) (63, (dies.map (·.1)).headD 0)
  ((s.put (F.MED_TRAIN_STAT_EYE c) b.1).put (F.MED_TRAIN_STAT_DIE c) b.2).put (F.MED_TRAIN_STAT_RETRAINS c) 0

/-- A channel enters service, its temperatures read (R210 step 7), without the dies that failed. -/
def State.chanUp (s : State) (c : Nat) (good : List (Nat × DieFound)) (bad : List Nat) : State :=
  let s : State := { s with wear.chansOut := s.wear.chansOut.filter (· != c) }
  let s := (s.put (F.MED_STAT_STATE c) 2).setUnit (uChan c) ustService
  let s := good.foldl (fun s q => (((s.setDie c q.1 { s.die c q.1 with phase := q.2.phase }).setUnit (uDie c q.1) ustService).tempPoll c
    q.1 (if q.2.cold then none else some q.2.temp))) s
  bad.foldl (fun s d =>
    let t := s.retireDie (dieIdx c d)
    { t with wear.evac := addOnce t.wear.evac (2048 + dieIdx c d) }) s

/-- Bring-up of one channel ends (R210): dies whose READ-ID or training fails have failed, as one has whose strap or serial number is
not the one recorded; with more than 8 of them, or none that answers, the channel has (R207, R209). -/
def State.bringUpChan (s : State) (c : Nat) : State :=
  let (f, s) := s.fresh
  let dies := ((List.range 16).filter (fun d => !s.wear.diesOut.contains (dieIdx c d))).map (fun d => (d, dieFound f d))
  let there := dies.filter (fun q => !q.2.silent)
  let good := there.filter (fun q => decide (s.minEye c ≤ q.2.eye))
  let bad := (dies.filter (fun q => !(good.any (fun g => g.1 == q.1)))).map (·.1)
  let s := (List.range 16).foldl (fun s d => s.setDie c d (s.die c d).acked) s
  let s := ((s.put (F.MED_DIE_PRESENT_bit c) (there.foldl (fun n q => n + 2 ^ q.1) 0)).showEyes c there).mark (1000 + c)
  if bad.length > 8 || there.isEmpty then
    let s : State := { s with wear.chansOut := addOnce s.wear.chansOut c }
    ((s.put (F.MED_STAT_STATE c) 5).setUnit (uChan c) ustRetired).post 0x04 0x01 (uChan c) 0
  else s.chanUp c good bad

/-- Bring-up ends on the channels where it began; after a warm reset, what it retired shows at once (R184, R210). -/
def State.bringUp (s : State) (all : Bool) : State :=
  let t := ((s.bringUpChans all).filter (fun c => s.get (F.MED_STAT_STATE c) == 1)).foldl (fun s c => s.bringUpChan c) s
  if all then t else t.settleGroups

/-! ### The commands -/

def execRead1 (ch : Fin 32) (f : BitVec 128) (s : State) : Host.Outcome State Fault Refusal :=
  .next (s.arrayFrame ch opRead1 f 0 0 0)

def execRead4 (ch : Fin 32) (f : BitVec 128) (thr : BitVec 256) (s : State) : Host.Outcome State Fault Refusal :=
  .next (s.arrayFrame ch opRead4 f 32 thr 0)

def execSoftRead (ch : Fin 32) (f : BitVec 128) (s : State) : Host.Outcome State Fault Refusal :=
  .next (s.arrayFrame ch opSoft f 0 0 0)

def execDataOut (ch : Fin 32) (f : BitVec 128) (s : State) : Host.Outcome State Fault Refusal := .next (s.dataOut ch f)

def execDataIn (ch : Fin 32) (f : BitVec 128) (lines : List Stored) (s : State) : Host.Outcome State Fault Refusal :=
  .next (s.dataIn ch f lines)

def execProgram1 (ch : Fin 32) (f : BitVec 128) (line : Stored) (s : State) : Host.Outcome State Fault Refusal :=
  .next (s.arrayFrame ch opProg1 f 304 0 line)

def execProgram4 (ch : Fin 32) (f : BitVec 128) (s : State) : Host.Outcome State Fault Refusal :=
  .next (s.arrayFrame ch opProg4 f 0 0 0)

def execResetTile (ch : Fin 32) (f : BitVec 128) (s : State) : Host.Outcome State Fault Refusal :=
  .next (s.arrayFrame ch opResetTile f 0 0 0)

def execSuspend (ch : Fin 32) (f : BitVec 128) (s : State) : Host.Outcome State Fault Refusal := .next (s.suspendOp ch f)
def execResume (ch : Fin 32) (f : BitVec 128) (s : State) : Host.Outcome State Fault Refusal := .next (s.resumeOp ch f)
def execDieStatus (ch : Fin 32) (f : BitVec 128) (s : State) : Host.Outcome State Fault Refusal := .next (s.statusFrame ch f)
def execTemp (ch : Fin 32) (f : BitVec 128) (s : State) : Host.Outcome State Fault Refusal := .next (s.tempFrame ch f)
def execReadId (ch : Fin 32) (f : BitVec 128) (s : State) : Host.Outcome State Fault Refusal := .next (s.idFrame ch f)

def execCalibrate (ch : Fin 32) (f : BitVec 128) (s : State) : Host.Outcome State Fault Refusal :=
  .next (s.arrayFrame ch opCalibrate f 0 0 0)

def execTrain (ch : Fin 32) (f : BitVec 128) (data : BitVec 512) (s : State) : Host.Outcome State Fault Refusal :=
  .next (s.trainFrame ch f data)

def execResetDie (ch : Fin 32) (f : BitVec 128) (s : State) : Host.Outcome State Fault Refusal := .next (s.resetDieFrame ch f)
def execMediaResetPin (ch : Fin 32) (s : State) : Host.Outcome State Fault Refusal := .next (s.resetPin ch)

def execDieArrayDone (ch : Fin 32) (die : Fin 16) (plane : Fin 4) (r : ArrayResult) (s : State) :
    Host.Outcome State Fault Refusal := .next (s.arrayEnd ch die plane r)

def execDieTempConversion (ch : Fin 32) (die : Fin 16) (t : Option (BitVec 12)) (s : State) :
    Host.Outcome State Fault Refusal := .next (s.convert ch die t)

def execAttention (ch : Fin 32) (die : Fin 16) (s : State) : Host.Outcome State Fault Refusal := .next (s.attend ch die)

def execDieOverdue (ch : Fin 32) (die : Fin 16) (resendOk restored : Bool) (s : State) :
    Host.Outcome State Fault Refusal := .next (s.overdue ch die resendOk restored)

def execPeriodicRetrain (ch : Fin 32) (die : Fin 16) (eye sweepEye : BitVec 6) (s : State) :
    Host.Outcome State Fault Refusal := .next (s.retrain ch die eye.toNat sweepEye.toNat)

def execDieStandby (ch : Fin 32) (die : Fin 16) (s : State) : Host.Outcome State Fault Refusal := .next (s.standby ch die)

def execMedRetrain (p : Path) (ch : Fin 32) (v : Word) (s : State) : Host.Outcome State Fault Refusal :=
  .next (s.touch.writeMedCtl p ch v)
def execMedDieRst (p : Path) (ch : Fin 32) (v : Word) (s : State) : Host.Outcome State Fault Refusal :=
  .next (s.touch.writeMedCtl p ch v)
def execMedCntClr (p : Path) (ch : Fin 32) (v : Word) (s : State) : Host.Outcome State Fault Refusal :=
  .next (s.touch.writeMedCtl p ch v)

end Sys2Proof.Machine
end

