-- ==== Sys2Proof/Machine/Engine.lean ====
section
/-! DEFINITION. Near-memory engines: binding (R219, R220), the queue loop (R221 to R223, R230), the instructions (R224 to
R228), barriers (R250), completions and timeouts (R240, R252), metering (R235) and what a debugger does to an engine
(R236). -/

namespace Sys2Proof.Machine

/-! ### Binding (R219, R220) -/

/-- ENGe_STAT.BERR of a bind: the first check that fails (R219). -/
def State.bindCheck (s : State) (e : Nat) : Nat :=
  let d := s.engDesc e
  let q := s.ringLog e
  if !(dValid d && dType d == 0) then 1
  else if !dEngEn d then 2
  else if (if dKeySrc d then decide (s.get (F.ENGE_CTX_KALIAS e) ≥ 2 ^ dSpan d) else s.get (F.ENGE_CTX_KALIAS e) != 0) then 3
  else if s.flag (F.ENGE_DEV_EN e) && !devOk (s.desc (s.devRegion e)) then 4
  else if !(decide (4 ≤ q) && decide (q ≤ 16) && s.ringFits e d) then 5
  else if s.get (F.ENGE_QCFG_PROG_FIRST e) > s.get (F.ENGE_QCFG_PROG_LAST e) then 6
  else if !([svNormal, svDegraded, svReadOnly].contains s.service) then 7
  else 0

/-- A bind: on success the slice is zeroed, the registers are 0 and CONS is read (R219, R263). -/
def State.engBind (s : State) (e : Nat) : State :=
  let b := s.bindCheck e
  let t := s.put (F.ENGE_STAT_BERR e) b
  if b ≠ 0 then t.put (F.ENGE_CTX_BIND e) 0
  else
    let t := (((t.put (F.ENGE_CTX_BIND e) 1).wr (R.ENGE_CONS e) 0).zeroPads (· == e)).setEng e (t.eng e).fresh
    (t.wake [1 + e / 8]).ringRead e (t.ringOff e + 64) .readCons

/-- BIND written 0 (R220). -/
def State.engUnbind (s : State) (e : Nat) : State :=
  let g := s.eng e
  if g.inHand then s.setEng e { g with leaving := true } else s.engLeave e

/-- A write of ENGe_CTX (R219, R220): while bound only BIND = 0 and ABORT = 1 act. DESIGN CHOICE: while unbound a write of ABORT = 1
does not bind (log 83). -/
def State.writeEngCtx (s : State) (p : Path) (e : Nat) (v : Word) : State :=
  if !s.mayWrite p (R.ENGE_CTX e) then s
  else if s.engBound e then
    (if (F.ENGE_CTX_ABORT e).on v then s.engWithdraw e
    else if !(F.ENGE_CTX_BIND e).on v then s.engUnbind e
    else s)
  else
    let t := (s.put (F.ENGE_CTX_REGION e) ((F.ENGE_CTX_REGION e).of v)).put (F.ENGE_CTX_KALIAS e) ((F.ENGE_CTX_KALIAS e).of v)
    if (F.ENGE_CTX_BIND e).on v && !(F.ENGE_CTX_ABORT e).on v then t.engBind e else t

/-- A write of ENGe_DEV, ENGe_QBASE or ENGe_QCFG, discarded while the engine is bound (R219). -/
def State.writeEngBound (s : State) (p : Path) (e off : Nat) (v : Word) : State :=
  if s.engBound e then s else s.plainWrite p off v

/-! ### Programs (R222, R224, R231 to R233) -/

/-- The program whose first slot is p, in the engine's cluster: its slots (R231). -/
def State.progLen (s : State) (e p : Nat) : Option Nat := mapGet? s.clu.progs (e / 8 * 64 + p)

/-- The PC is within the slots of the program's load (R224). -/
def State.pcInside (s : State) (e : Nat) : Bool :=
  let g := s.eng e
  match s.progLen e g.prog with
  | some n => decide (g.prog * 4096 ≤ g.pc) && decide (g.pc < (g.prog + n) * 4096)
  | none => false

/-- The instruction word at the PC. -/
def State.fetchWord (s : State) (e : Nat) : Word :=
  let g := s.eng e
  ((mapGet? s.clu.prog (e / 8 * 64 + g.pc / 4096)).getD []).getD (g.pc / 4 % 1024) 0

/-- Engines of a cluster. -/
def engsOf (k : Nat) : List Nat := (List.range 8).map (8 * k + ·)

/-- ENG_LOAD_STAT.CODE of a load or unload of slots f to f + n - 1 (R232). -/
def State.loadCheck (s : State) (clusters f n : Nat) : Nat :=
  let addr := (s.rd R.ENG_LOAD_ADDR_LO).toNat + 2 ^ 32 * (s.rd R.ENG_LOAD_ADDR_HI).toNat
  let inUse := (List.range 32).any (fun e => clusters.testBit (e / 8) && s.engBound e &&
    overlap (s.get (F.ENGE_QCFG_PROG_FIRST e)) (s.get (F.ENGE_QCFG_PROG_LAST e) + 1 - s.get (F.ENGE_QCFG_PROG_FIRST e)) f n)
  if f + n > 64 ∨ clusters = 0 then 1
  else if inUse then 2
  else if addr + n * 4096 > workArea then 3
  else if s.service = svHalted ∨ s.service = svHold ∨ s.trust = trVendor then 4
  else 0

/-- Empties slots f to f + n - 1 of the clusters named, with every program that overlaps them (R231, R232). -/
def State.emptySlots (s : State) (clusters f n : Nat) : State :=
  { s with
    clu.prog := mapFilter (fun k _ => !(clusters.testBit (k / 64) && decide (f ≤ k % 64) && decide (k % 64 < f + n))) s.clu.prog
    clu.progs := mapFilter (fun k m => !(clusters.testBit (k / 64) && overlap (k % 64) m f n)) s.clu.progs }

/-- A write of ENG_LOAD_CTL: GO, which is ignored while a load runs, starts a load, and UNLOAD empties slots, under the checks of R232
(R231, R239). DESIGN CHOICE: a write with both bits loads and does not unload (log 83). -/
def State.writeEngLoad (s : State) (p : Path) (v : Word) : State :=
  if !s.mayWrite p R.ENG_LOAD_CTL then s
  else
    let t := s.plainWrite p R.ENG_LOAD_CTL v
    let go := F.ENG_LOAD_CTL_GO.on v
    if (go && t.clu.loadRun.isSome) || !(go || F.ENG_LOAD_CTL_UNLOAD.on v) then t
    else
      let c := F.ENG_LOAD_CTL_CLUSTERS.of v
      let f := F.ENG_LOAD_CTL_SLOT.of v
      let n := F.ENG_LOAD_CTL_NSLOTS.of v + 1
      let code := t.loadCheck c f n
      let t := ((t.put F.ENG_LOAD_STAT_CODE code).put F.ENG_LOAD_STAT_SLOT f).put F.ENG_LOAD_STAT_NSLOTS (n - 1)
      if code ≠ 0 then t
      else if go then { t.put F.ENG_LOAD_STAT_BUSY 1 with clu.loadRun := some ⟨c, f, n⟩ }
      else t.emptySlots c f n

/-- A word of an image, zero beyond what was placed. -/
def imageWord (image : List Word) (i : Nat) : Word := image.getD i 0

/-- A load ends: the slots hold the image as one program, and its digest is shown (R231). -/
def State.engLoadDone (s : State) (image : List Word) : State :=
  match s.clu.loadRun with
  | none => s
  | some r =>
    let t := s.emptySlots r.clusters r.slot r.n
    let words := (List.range (r.n * 1024)).map (imageWord image)
    let ks := (List.range 4).filter (fun k => r.clusters.testBit k)
    let t : State := ks.foldl (fun s k => { s with
      clu.prog := (List.range r.n).foldl (fun m i => mapPut m (k * 64 + r.slot + i) ((words.drop (1024 * i)).take 1024)) s.clu.prog
      clu.progs := mapPut s.clu.progs (k * 64 + r.slot) r.n }) t
    let digest := sha384 (words.flatMap (toBytes 4))
    let t := (List.range 12).foldl (fun s i =>
      s.wr (R.ENG_LOAD_DIGEST i) (ofBytes 32 ((digest.drop (4 * i)).take 4))) t
    { t.put F.ENG_LOAD_STAT_BUSY 0 with clu.loadRun := none }

/-! ### The queue loop (R223, R230) -/

/-- Data of the queue loop crosses CP8: it is metered, and a mismatch is counted (R218, R230, R235). -/
def State.ringCross (s : State) (e : Nat) (poison cp8 : Bool) : State :=
  let r := s.engRegion e
  let d := (s.eng e).ringDesc
  let t := s.meter r d .bytesRd 64
  let t := if poison || cp8 then t.meter r d .rdPoison 1 else t
  if cp8 then t.ccMismatch 8 r else t

def bytesOf (h : HostLine) (off n : Nat) : Nat := h.toNat / 2 ^ (8 * off) % 2 ^ (8 * n)

/-- Pushes a memory operation of the queue loop. -/
def State.pushRing (s : State) (e ea : Nat) (kind : MemKind) (data : HostLine) (be : BitVec 64) (gate : MemGate) : State :=
  let g := s.eng e
  let o : MemOp :=
    { tag := g.nextTag, ea := ea, kind := kind, dev := false, data := data, be := be, gate := gate,
      stage := .held, old := 0, hl := (dBase (s.engDesc e) * 2 ^ 24 + ea) / 64, key := s.engKey e, drop := false,
      region := (s.decodes e false).1, desc := (s.decodes e false).2 }
  s.setEng e { g with
    ops := g.ops ++ [o]
    nextTag := g.nextTag + 1 }

/-- Writes the completion and then CONS + 1, as a release (R222, R223, R230); with CONS the reserved bytes of the header up to the
first entry are written as 0 (R221). `whole` rewrites the entry from its first byte. -/
def State.writeCompletion (s : State) (e : Nat) (whole : Bool) : State :=
  let g := s.eng e
  let data := BitVec.ofNat 512 ((g.ret.toNat + 2 ^ 64 * (g.code + (if g.wrFailed then 256 else 0)) +
    2 ^ 96 * min g.cycles (2 ^ 32 - 1)) * 2 ^ 384)
  let be := if whole then BitVec.allOnes 64 else 0xFFFF000000000000#64
  let t := (s.setPhase e .completing).pushRing e (s.entryOff e) .completion data be gate0
  let t := [128, 192].foldl (fun s i => s.pushRing e (s.ringOff e + i) .completion 0 (BitVec.allOnes 64) gate0) t
  let n := (t.eng e).nextTag
  let cons := BitVec.ofNat 512 (t.engCons e + 1).toNat
  (t.pushRing e (t.ringOff e + 64) .cons cons (BitVec.allOnes 64) ⟨n, 0, n, 0⟩).settle e

/-- A descriptor is taken (R223): its checks, and the registers it starts with. -/
def State.takeDescriptor (s : State) (e : Nat) (d : HostLine) : State :=
  let g := s.eng e
  let ea := s.entryOff e
  let regs := (List.range 5).foldl (fun g i => EngSt.set g (i + 1) (BitVec.ofNat 64 (bytesOf d (8 + 8 * i) 8))) { g with x := [] }
  let regs := (regs.set 6 (BitVec.ofNat 64 ea)).set 7 ((s.engCons e).zeroExtend 64)
  let p := bytesOf d 2 2
  let g' := { regs with
    pc := p % 64 * 4096
    prog := p % 64
    phase := .running
    code := 0
    ret := 0
    cycles := 0
    charged := 0
    wrFailed := false
    ring := none
    ldGate := gate0
    stGate := gate0 }
  let t := s.setEng e g'
  if bytesOf d 0 1 ≠ 1 ∨ bytesOf d 1 1 ≠ 0 ∨ bytesOf d 4 4 ≠ 0 then t.engFault e 0x01 ea false
  else if p < s.get (F.ENGE_QCFG_PROG_FIRST e) ∨ p > s.get (F.ENGE_QCFG_PROG_LAST e) ∨ (s.progLen e p).isNone = true then
    t.engFault e 0x02 ea false
  else t.showEng e

/-- The queue loop's read in hand has not been sent: the class queues were full (R214). It is sent now, or the loop looks again. -/
def State.ringResend (s : State) (e : Nat) : State :=
  if s.accesses.any (fun a => a.own == .ring e) then s
  else match (s.eng e).phase with
    | .readCons => s.ringRead e (s.ringOff e + 64) .readCons
    | .readProd => s.readProd e
    | .readDesc => s.engNext e
    | _ => s

/-- A read of the queue loop returns, or a held engine may take (R223, R229, R230); an engine that has come to be held from taking
leaves the descriptor in its ring (R238, R239). The read of CONS at the bind does as a PROD read does: DESIGN CHOICE (log 35). -/
def State.descriptorTake (s : State) (e : Nat) (cp8 : Bool) : State :=
  let g := s.eng e
  if g.dbg || !s.isAwake (1 + e / 8) then s
  else match g.phase, g.ring with
    | .held, _ => s.engNext e
    | .readCons, some .noKey => s.awaitKey e .keyCons
    | .readCons, some (.data h poison) =>
      let t := s.ringCross e poison cp8
      if poison || cp8 then
        let t := (t.noteFault e 0x08 (s.ringOff e + 64)).setPhase e .badCons
        if cp8 then t.faultEvent e 0x08 (s.ringOff e + 64) else t
      else (t.wr (R.ENGE_CONS e) (BitVec.ofNat 32 (bytesOf h 0 4))).readProd e
    | .readProd, some .noKey => s.awaitKey e .keyProd
    | .readProd, some (.data h poison) =>
      let t := s.ringCross e poison cp8
      if poison || cp8 then
        let t := (t.noteFault e 0x08 (s.ringOff e)).setPhase e .idle
        let t := if cp8 then t.faultEvent e 0x08 (s.ringOff e) else t
        if (t.eng e).bell then t.readProd e else t
      else (t.setEng e { t.eng e with prod := BitVec.ofNat 32 (bytesOf h 0 4) }).engNext e
    | .readDesc, some .noKey => s.awaitKey e .keyDesc
    | .readDesc, some (.data h poison) =>
      let t := s.ringCross e poison cp8
      if !s.mayTake e then t.setPhase e .held
      else if poison || cp8 then
        let ea := s.entryOff e
        let t := (t.noteFault e 0x08 ea).put (F.ENGE_STAT_LAST_CODE e) 0x08
        let t := if cp8 then t.faultEvent e 0x08 ea else t
        (t.setEng e { t.eng e with
          code := 8
          ret := 0
          cycles := 0
          charged := 0
          wrFailed := false }).writeCompletion e true
      else t.takeDescriptor e h
    | _, none => s.ringResend e
    | _, _ => s

/-- The barrier at the end of a descriptor has passed: the completion and CONS are written, unless Read-only holds
them (R223, R238). -/
def State.descriptorComplete (s : State) (e : Nat) : State :=
  let g := s.eng e
  if g.phase = .ended ∧ g.mine.isEmpty = true ∧ g.dbg = false ∧ s.halted = false ∧ s.service ≠ svReadOnly then
    s.writeCompletion e false
  else s.showEng e

/-- The write of CONS is complete: the descriptor is done with (R223, R235). -/
def State.descriptorDone (s : State) (e : Nat) : State :=
  let t := ((s.wr (R.ENGE_CONS e) (s.engCons e + 1)).add64 R.ENG_DESC_LO 1).chargeCycles e
  if (t.eng e).leaving then t.engLeave e else t.engNext e

/-- An engine that waits for its key finds, every 1 ms, whether the slot has become valid (R229). -/
def State.keyRecheck (s : State) (e : Nat) : State :=
  if !s.passed (200 + e) 200000 then s
  else if (s.slot (s.engKey e).toNat).isNone then
    (match (s.eng e).phase with
      | .keyCons | .keyProd | .keyDesc => s.mark (200 + e)
      | _ => s)
  else match (s.eng e).phase with
    | .keyCons => s.ringRead e (s.ringOff e + 64) .readCons
    | .keyProd => s.readProd e
    | .keyDesc => s.engNext e
    | _ => s

/-! ### Issuing an instruction (R214, R224, R225, R229) -/

/-- Bits [25:21], [20:16], [15:11] and the immediates of a word (R225). -/
def fA (f : BitVec 26) : Nat := (f.extractLsb' 21 5).toNat
def fB (f : BitVec 26) : Nat := (f.extractLsb' 16 5).toNat
def fC (f : BitVec 26) : Nat := (f.extractLsb' 11 5).toNat
def fLow (f : BitVec 26) : Nat := (f.extractLsb' 0 11).toNat
def fImm (f : BitVec 26) : BitVec 16 := f.extractLsb' 0 16
def sImm (f : BitVec 26) : Xlen := (fImm f).signExtend 64
def zImm (f : BitVec 26) : Xlen := (fImm f).zeroExtend 64

/-- A register is still being loaded (R228). -/
def EngSt.busy (g : EngSt) (r : Nat) : Bool :=
  r != 0 && g.ops.any (fun o => match o.kind with
    | .load w _ rd _ => if w = 64 then decide (rd ≤ r) && decide (r < rd + 8) else rd == r
    | .amo _ _ _ rd => rd == r
    | _ => false)

/-- Engine e issues the word of opcode `op` and fields `f`, which its program has at the PC. An illegal word and a PC
outside the program raise their exceptions; a register still being loaded keeps the instruction waiting. -/
def State.issue (s : State) (e op : Nat) (f : BitVec 26) (bad : Bool) (regs : List Nat) (act : State → State) : State :=
  let g := s.eng e
  if g.phase ≠ .running ∨ g.dbg = true ∨ s.isAwake (1 + e / 8) = false ∨ s.halted = true then s
  else if !s.pcInside e then s.engFault e 0x04 g.pc false
  else if s.fetchWord e ≠ BitVec.ofNat 6 op ++ f then s
  else if bad then s.engFault e 0x03 g.pc false
  else if regs.any g.busy then s
  else act s

/-- The instruction has taken `cyc` cycles and the PC goes to `pc` (R228). -/
def State.retire (s : State) (e cyc pc : Nat) : State :=
  let g := s.eng e
  s.setEng e { g with
    pc := pc % 2 ^ 18
    cycles := g.cycles + cyc }

/-- Writes a register and goes on to the next instruction. -/
def State.writeReg (s : State) (e rd : Nat) (v : Xlen) (cyc : Nat) : State :=
  (s.setEng e ((s.eng e).set rd v)).retire e cyc ((s.eng e).pc + 4)

/-- A register operation of format R (R225, R227). -/
def State.opR (s : State) (e op : Nat) (f : BitVec 26) (cyc : Xlen → Nat) (fn : Xlen → Xlen → Xlen) : State :=
  s.issue e op f (fLow f != 0) [fA f, fB f, fC f] (fun s =>
    let a := (s.eng e).get (fB f)
    s.writeReg e (fA f) (fn a ((s.eng e).get (fC f))) (cyc a))

/-- A register operation of format R with one source; rs2 must be 0 (R225). -/
def State.opR1 (s : State) (e op : Nat) (f : BitVec 26) (fn : Xlen → Xlen) : State :=
  s.issue e op f (fLow f != 0 || fC f != 0) [fA f, fB f] (fun s =>
    s.writeReg e (fA f) (fn ((s.eng e).get (fB f))) 1)

/-- An immediate operation of format I (R225, R227). -/
def State.opI (s : State) (e op : Nat) (f : BitVec 26) (bad : Bool) (fn : Xlen → Xlen) : State :=
  s.issue e op f bad [fA f, fB f] (fun s => s.writeReg e (fA f) (fn ((s.eng e).get (fB f))) 1)

/-- A shift immediate: imm[15:6] must be 0 (R227). -/
def badShift (f : BitVec 26) : Bool := (fImm f).toNat ≥ 64

def shamt (f : BitVec 26) : Nat := (fImm f).toNat % 64

/-- A branch of format B (R225, R227, R228). -/
def State.opB (s : State) (e op : Nat) (f : BitVec 26) (fn : Xlen → Xlen → Bool) : State :=
  s.issue e op f false [fA f, fB f] (fun s =>
    let g := s.eng e
    if fn (g.get (fA f)) (g.get (fB f)) then
      s.retire e 2 (((BitVec.ofNat 64 (g.pc + 4)) + 4 * sImm f).toNat)
    else s.retire e 1 (g.pc + 4))

/-! ### Memory instructions (R216, R227, R242 to R247) -/

/-- Takes a memory operation into the store buffer or among the loads, and tries it. -/
def State.pushOp (s : State) (e : Nat) (o : MemOp) : State :=
  let g := s.eng e
  let t := s.setEng e { g with
    ops := g.ops ++ [o]
    nextTag := g.nextTag + 1 }
  (t.retire e 1 (g.pc + 4)).settle e

/-- The store buffer has no entry for a further store (R242). -/
def State.bufferFull (s : State) (e : Nat) : Bool := decide (((s.eng e).mine.countP (·.isStore)) ≥ 16)

/-- A store or atomic finds the buffer full: the engine stalls until an entry leaves (R242, R252). -/
def State.stallStore (s : State) (e : Nat) : State := (s.setEng e { s.eng e with stall := true }).startTimers e

/-- The host line and key of a home offset. -/
def State.homeHl (s : State) (e off : Nat) : Nat := (dBase (s.engDesc e) * 2 ^ 24 + off) / 64

/-- The byte of a scratchpad slice. -/
def State.padByte (s : State) (e a : Nat) : Byte := mapGet (fun _ => 0) s.clu.pads (e * 2 ^ 19 + a)


/-- An engine address: x[rs1] + the sign-extended immediate, in 48 bits. -/
def engAddr (x imm : Xlen) : Nat := (x + imm).toNat % 2 ^ 48

/-- The 64 bytes of a scratchpad line at an offset. -/
def State.padLine (s : State) (e off : Nat) : HostLine :=
  ofBytes 512 ((List.range 64).map (fun i => s.padByte e (off / 64 * 64 + i)))

/-- The byte enables of `width` bytes at an address, within its host line. -/
def enables (ea width : Nat) : BitVec 64 := BitVec.ofNat 64 ((2 ^ width - 1) * 2 ^ (ea % 64))

/-- The memory operation of a load that issues now, with what the codes of the cluster cache find should it hit (R17, R251, R261). -/
def State.loadOf (s : State) (e ea width : Nat) (sgn acq : Bool) (rd : Nat) (dev : Bool) (hl : Nat) (ecc : CellErr) : MemOp :=
  let g := s.eng e
  { tag := g.nextTag, ea := ea, kind := .load width sgn rd acq, dev := dev, data := 0, be := enables ea width,
    gate := if dev then g.ldGate.join ⟨0, 0, 0, g.nextTag⟩ else g.ldGate, stage := .held, old := 0, hl := hl,
    key := if dev then 0 else s.engKey e, drop := false, region := (s.decodes e dev).1, desc := (s.decodes e dev).2,
    ecc := ecc }

/-- A load from the scratchpad, where data that SEC-DED cannot correct is exception 0x08 (R261, R263). -/
def State.loadPad (s : State) (e ea off width : Nat) (sgn : Bool) (rd : Nat) (ecc : CellErr) : State :=
  let k := e / 8
  if ecc = .uncorrectable then (s.sat (F.ENG_CC_ERR_ECC_UNC k) 1).engFault e 0x08 ea false
  else
    let t := if ecc = .corrected then s.sat (F.ENG_CC_ERR_ECC_COR k) 1 else s
    (t.setEng e ((t.eng e).loaded width sgn rd (ea % 64) (t.padLine e off))).retire e 1 ((s.eng e).pc + 4)

/-- A load (R220, R227, R244, R246, R251, R263). -/
def State.opLoad (s : State) (e op : Nat) (f : BitVec 26) (ecc : CellErr) (width : Nat) (sgn acq : Bool) : State :=
  let rd := fA f
  let bad := width == 64 && rd % 8 != 0
  s.issue e op f bad ([fB f] ++ (if width = 64 then (List.range 8).map (rd + ·) else [rd])) (fun s =>
    let ea := engAddr ((s.eng e).get (fB f)) (sImm f)
    if s.withdrawn e ea then s.engWithdraw e
    else match s.eaOf e ea width false with
      | .bad code => s.engFault e code ea false
      | .pad off => s.loadPad e ea off width sgn rd ecc
      | .dev off => s.pushOp e (s.loadOf e ea width sgn acq rd true (off / 64) ecc)
      | .home off => s.pushOp e (s.loadOf e ea width sgn acq rd false (s.homeHl e off) ecc))

/-- Writes bytes of a scratchpad slice at once (R263). -/
def State.padWrite (s : State) (e off width : Nat) (data : HostLine) : State :=
  { s with clu.pads := (List.range width).foldl (fun m i =>
      mapSet (fun _ => 0) m (e * 2 ^ 19 + off + i) (byteAt data ((off + i) % 64))) s.clu.pads }

/-- The memory operation of a store of `width` bytes of `v` that issues now: `data` has them at their place in the host line. -/
def State.storeOf (s : State) (e ea width v : Nat) (rel dev : Bool) (hl : Nat) : MemOp :=
  let g := s.eng e
  let n := g.nextTag
  let sh := ea % 64
  { tag := n, ea := ea, kind := .store, dev := dev, data := BitVec.ofNat 512 (v % 2 ^ (8 * width) * 2 ^ (8 * sh)),
    be := enables ea width, gate := if rel then g.stGate.join ⟨n, 0, n, 0⟩ else g.stGate,
    stage := .held, old := 0, hl := hl, key := if dev then 0 else s.engKey e, drop := false,
    region := (s.decodes e dev).1, desc := (s.decodes e dev).2 }

/-- A store of `width` bytes (R220, R227, R242, R247, R251, R263). -/
def State.storeAt (s : State) (e ea width : Nat) (v : Nat) (rel : Bool) : State :=
  if s.withdrawn e ea then s.engWithdraw e
  else match s.eaOf e ea width false with
  | .bad code => s.engFault e code ea false
  | .pad off => (s.padWrite e off width (BitVec.ofNat 512 (v % 2 ^ (8 * width) * 2 ^ (8 * (ea % 64))))).retire e 1
      ((s.eng e).pc + 4)
  | .home off =>
    if s.bufferFull e then s.stallStore e
    else s.pushOp e (s.storeOf e ea width v rel false (s.homeHl e off))
  | .dev off =>
    if s.bufferFull e then s.stallStore e
    else s.pushOp e (s.storeOf e ea width v rel true (off / 64))

/-- A store of a register (R225, R227). -/
def State.opStore (s : State) (e op : Nat) (f : BitVec 26) (width : Nat) (rel : Bool) : State :=
  s.issue e op f false [fA f, fB f] (fun s =>
    s.storeAt e (engAddr ((s.eng e).get (fB f)) (sImm f)) width ((s.eng e).get (fA f)).toNat rel)

/-- STV: x[r] to x[r + 7], r a multiple of 8 (R227). -/
def State.opStv (s : State) (e op : Nat) (f : BitVec 26) : State :=
  let r := fA f
  s.issue e op f (r % 8 != 0) ([fB f] ++ (List.range 8).map (r + ·)) (fun s =>
    let v := (List.range 8).foldl (fun n i => n + ((s.eng e).get (r + i)).toNat * 2 ^ (64 * i)) 0
    s.storeAt e (engAddr ((s.eng e).get (fB f)) (sImm f)) 64 v false)

/-- The memory operation of an atomic that issues now. -/
def State.amoOf (s : State) (e ea : Nat) (a : AmoOp) (f : BitVec 26) (off : Nat) : MemOp :=
  let g := s.eng e
  { tag := g.nextTag, ea := ea, kind := .amo a (g.get (fA f)) (g.get (fC f)) (fA f), dev := false, data := 0,
    be := BitVec.ofNat 64 (255 * 2 ^ (ea % 64)), gate := g.stGate.join g.ldGate, stage := .held, old := 0,
    hl := s.homeHl e off, key := s.engKey e, drop := false, region := (s.decodes e false).1, desc := (s.decodes e false).2 }

/-- An atomic (R216, R220, R227, R242). -/
def State.opAmo (s : State) (e op : Nat) (f : BitVec 26) (a : AmoOp) : State :=
  s.issue e op f (fLow f != 0) [fA f, fB f, fC f] (fun s =>
    let ea := engAddr ((s.eng e).get (fB f)) 0
    if s.withdrawn e ea then s.engWithdraw e
    else match s.eaOf e ea 8 true with
      | .bad code => s.engFault e code ea false
      | .home off =>
        if s.bufferFull e then s.stallStore e else s.pushOp e (s.amoOf e ea a f off)
      | _ => s.engFault e 0x0E ea false)

/-! ### Barriers (R250) -/

/-- The gates that a barrier of kind k sets for later loads and stores. -/
def fenceGates (k n : Nat) : MemGate × MemGate :=
  match k with
  | 1 => (⟨n, 0, 0, 0⟩, gate0)
  | 2 => (gate0, ⟨0, 0, n, 0⟩)
  | 3 => (⟨n, n, 0, 0⟩, ⟨n, 0, n, 0⟩)
  | 4 => (⟨0, 0, 0, n⟩, ⟨0, 0, 0, n⟩)
  | _ => (⟨n, 0, n, 0⟩, ⟨n, 0, n, 0⟩)

def State.fence (s : State) (e k : Nat) : State :=
  let g := s.eng e
  let p := fenceGates k g.nextTag
  ((s.setEng e { g with
    ldGate := g.ldGate.join p.1
    stGate := g.stGate.join p.2 }).startTimers e).retire e 1 (g.pc + 4)

/-- FENCE of kind k: another kind's word is another instruction, and no kind's is illegal (R225, R250). -/
def State.opFence (s : State) (e : Nat) (f : BitVec 26) (k : Nat) : State :=
  let imm := (fImm f).toNat
  let legal := fA f == 0 && fB f == 0 && decide (1 ≤ imm) && decide (imm ≤ 4)
  if legal && imm != k then s else s.issue e 0x3C f (!legal) [] (fun s => s.fence e k)

/-! ### Ends of a descriptor (R223, R227, R229, R236) -/

/-- DONE: code 0x00 and RET (R227). -/
def State.opDone (s : State) (e : Nat) (f : BitVec 26) : State :=
  s.issue e 0x3E f (fA f != 0 || fImm f != 0) [fB f] (fun s =>
    let g := s.eng e
    (((s.setEng e { g with
      phase := .ended
      code := 0
      ret := g.get (fB f)
      cycles := g.cycles + 1 }).startTimers e).put (F.ENGE_STAT_LAST_CODE e) 0).showEng e)

/-- A debugger is attached and engines obey it (R236, R393). -/
def State.debugOk (s : State) : Bool := s.flag F.MODE_DEBUG_ATTACHED && (s.trust == trOwner || s.trust == trVendor)

/-- BRK (R229, R236): an attached debugger has the engine halted after it. -/
def State.opBrk (s : State) (e : Nat) (f : BitVec 26) : State :=
  s.issue e 0x3F f (fA f != 0 || fB f != 0) [] (fun s =>
    let g := s.eng e
    if s.debugOk then ((s.setEng e { g with dbg := true }).retire e 1 (g.pc + 4)).showEng e
    else s.engFault e 0x0C g.pc false)

/-- The value of a special register (R228). -/
def State.special (s : State) (e i : Nat) : Option Xlen :=
  let g := s.eng e
  match i with
  | 0 => some (BitVec.ofNat 64 g.cycles)
  | 1 => some (BitVec.ofNat 64 e)
  | 2 => some (BitVec.ofNat 64 (dSize (s.engDesc e) * 2 ^ 24))
  | 3 => some (if s.flag (F.ENGE_DEV_EN e) then BitVec.ofNat 64 (dSize (s.desc (s.devRegion e)) * 2 ^ 24) else 0)
  | 4 => some (BitVec.ofNat 64 (s.entryOff e))
  | 5 => some (s.aonTick.zeroExtend 64)
  | 6 => some (if g.wrFailed then 1 else 0)
  | 7 => some (BitVec.ofNat 64 (s.padSize e))
  | _ => none

/-- CSRR (R228). -/
def State.opCsrr (s : State) (e : Nat) (f : BitVec 26) : State :=
  let i := (fImm f).toNat
  s.issue e 0x3B f (fB f != 0 || (s.special e i).isNone) [fA f] (fun s =>
    s.writeReg e (fA f) ((s.special e i).getD 0) 1)

/-- Population count. -/
def popcount (a : Xlen) : Nat := (List.range 64).countP (fun i => a.getLsbD i)

/-- Significant bits of a value (R228). -/
def sigBits (a : Xlen) : Nat := if a = 0 then 0 else Nat.log2 a.toNat + 1

/-! ### Completions and timeouts (R235, R240, R244, R251, R252, R259) -/

/-- A page line of a stream queue other than the dequeue line (R272). -/
def QueueSt.pageLine (q : QueueSt) (off : Nat) : HostLine :=
  if off % 4096 / 64 = 2 then BitVec.ofNat 512 (q.items.length + 2 ^ 32 * q.lost) else 0

/-- Metering of a memory operation's traffic charges the region it reaches, under the descriptor of its decoding (R17, R235). -/
def State.meterOp (s : State) (o : MemOp) (w : MetCtr) (n : Nat) : State := s.meter o.region o.desc w n

/-- A load ends poisoned: counted, and exception 0x08 (R229, R235); a debugger's read raises none. -/
def State.loadPoisoned (s : State) (e : Nat) (o : MemOp) (evt : Bool) : State :=
  let t := (s.meterOp o .rdPoison 1).dropOp e o.tag
  (if o.kind = .debug then t.say (.debug 0 true) else t.engFault e 0x08 o.ea evt).settle e

/-- A fill that may be installed is, else it is counted (R257, R259, R260). -/
def State.installFill (s : State) (e : Nat) (o : MemOp) (h : HostLine) : State :=
  let k := e / 8
  if s.flag (F.ENG_CC_CFG_BYPASS k) then s
  else if o.drop then s.sat (F.ENG_CC_STAT_FILL_DROP k) 1
  else s.ccInstall k o.hl o.key h

/-- Data for an engine load returns across CP8 (R217, R218, R235, R259). -/
def State.fillReturn (s : State) (e tag : Nat) (err : HostLine) : State :=
  let finish := fun (s : State) (o : MemOp) (h : HostLine) (poison : Bool) =>
    let t := s.meterOp o .bytesRd 64
    if poison then t.loadPoisoned e o false
    else if carryCheck (h ^^^ err) != carryCheck h then (t.ccMismatch 8 o.region).loadPoisoned e o true
    else
      let t := if o.dev then t else t.installFill e o h
      (t.deliver e o (h ^^^ err)).settle e
  match s.opOf e tag with
  | none => s
  | some o =>
    match o.stage with
    | .back .noKey =>
      let t := s.dropOp e tag
      (if o.kind = .debug then t.say (.debug 0 true) else t.engFault e 0x0A o.ea true).settle e
    | .back (.data h poison) => finish s o h poison
    | .held => s.settle e
    | .sent =>
      if o.dev && o.isLoad then
        let off := o.ea % 2 ^ 44
        match s.queueAt o.region off with
        | some q => if off % 4096 / 64 = 1 then s else finish s o ((s.queue q).pageLine off) false
        | none => s
      else s
    | _ => s

/-- A store that a page discards completes all the same, and counts (R272). -/
def State.discarded (s : State) (e : Nat) (o : MemOp) : State :=
  ((s.sat F.STQ_ERR_BAD_STORE 1).meterOp o .wrFail 1).setOp e { o with stage := .done false }

/-- A device store to a page line that STQ_ENQUEUE, FLUSH and DROP_REM do not serve (R272). -/
def State.pageStore (s : State) (e : Nat) (o : MemOp) : State :=
  let off := o.ea % 2 ^ 44
  match s.queueAt o.region off with
  | none => s
  | some q =>
    let line := off % 4096 / 64
    if line = 0 then
      (if o.be = BitVec.allOnes 64 ∧ (s.queue q).cfg.toNat % 4 ≠ 1 then s else s.discarded e o)
    else if line = 3 ∧ o.be.getLsbD 0 = true then
      (if o.data.toNat % 4 ≠ 0 then s else (s.meterOp o .bytesWr 64).setOp e { o with stage := .done true })
    else s.discarded e o

/-- A store is complete only after every older one of its engine to its host line (R242, R245). -/
def State.completesNow (s : State) (e : Nat) (o : MemOp) : Bool :=
  (s.eng e).ops.all (fun p => !p.isStore || decide (o.tag ≤ p.tag) || p.dev != o.dev || p.ea / 64 != o.ea / 64)

/-- An atomic's old value crosses CP8 in its host line, of which the handoff changed `err`, and reaches x[rd]; a mismatch is exception
0x08 (R218, R227, R229, R235). -/
def State.amoReturn (s : State) (e : Nat) (o : MemOp) (rd : Nat) (err : HostLine) : State :=
  let t := s.meterOp o .bytesRd 64
  if carryCheck (o.data ^^^ err) ≠ carryCheck o.data then
    ((t.meterOp o .rdPoison 1).ccMismatch 8 o.region).engFault e 0x08 o.ea true
  else t.setEng e ((t.eng e).set rd (loadValue (o.data ^^^ err) (o.ea % 64) 8 false))

/-- An engine store's completion returns and its entry leaves (R240, R242), with an atomic's old value. A store that a cluster reset has
left behind has no engine that it returns to (R237). -/
def State.storeComplete (s : State) (e tag : Nat) (err : HostLine) : State :=
  let s := match s.opOf e tag with
    | some o => if o.dev && o.isStore && o.stage == MemStage.sent then s.pageStore e o else s
    | none => s
  match s.opOf e tag with
  | none => s
  | some o =>
    match o.stage with
    | .done stored =>
      if !s.completesNow e o then s
      else if o.left then (s.dropOp e tag).settle e
      else
        let t := s.dropOp e tag
        let t := if stored then t else t.setEng e { t.eng e with wrFailed := true }
        match o.kind with
        | .amo _ _ _ rd => (t.amoReturn e o rd err).settle e
        | .cons => t.descriptorDone e
        | _ => t.settle e
    | .held => s.settle e
    | _ => s

/-- A device store waited on for ENG_BARRIER_TMO is discarded (R252, R253). -/
def State.storeTimeout (s : State) (e tag : Nat) : State :=
  match s.opOf e tag with
  | none => s
  | some o =>
    let g := s.eng e
    if o.dev && o.isStore && [MemStage.sent, .queued, .held].contains o.stage && s.ranOut o then
      let t : State := { s.dropOp e tag with
        accesses := s.accesses.filter (fun a => a.own != .device e tag)
        orb.remote := s.orb.remote.filter (fun r => !(r.eng == e && r.ref == tag))
        stq := s.stq.map (fun p => (p.1, { p.2 with waiting := p.2.waiting.filter (fun w => !(w.1 == e && w.2.1 == tag)) })) }
      let t := t.satReg R.ENG_STORE_LOST 1
      let t := if g.dbg then (if g.dbgLost.isNone then t.setEng e { t.eng e with dbgLost := some o.ea } else t)
        else t.engFault e 0x09 o.ea true
      t.settle e
    else s

/-- A device load without data after ENG_BARRIER_TMO returns poisoned (R252). -/
def State.loadTimeout (s : State) (e tag : Nat) : State :=
  match s.opOf e tag with
  | none => s
  | some o =>
    if o.dev && o.isLoad && o.stage == .sent && s.ranOut o then
      State.loadPoisoned { s with orb.remote := s.orb.remote.filter (fun r => !(r.eng == e && r.ref == tag)) } e o false
    else s

/-- A descriptor has run CYC_LIMIT × 2^20 cycles (R229). -/
def State.cycleLimit (s : State) (e : Nat) : State :=
  let g := s.eng e
  let n := s.get (F.ENGE_QCFG_CYC_LIMIT e)
  if g.phase = .running ∧ g.dbg = false ∧ n ≠ 0 ∧ n * 2 ^ 20 ≤ g.cycles then s.engFault e 0x0B g.pc false else s

/-! ### The commands -/

def execEngBind (p : Path) (e : Fin 32) (v : Word) (s : State) : Host.Outcome State Fault Refusal := .next (s.touch.writeEngCtx p e v)

def execEngUnbind (p : Path) (e : Fin 32) (v : Word) (s : State) : Host.Outcome State Fault Refusal := .next (s.touch.writeEngCtx p e v)

def execEngAbort (p : Path) (e : Fin 32) (v : Word) (s : State) : Host.Outcome State Fault Refusal := .next (s.touch.writeEngCtx p e v)

def execDescriptorTake (e : Fin 32) (cp8 : Bool) (s : State) : Host.Outcome State Fault Refusal := .next (s.descriptorTake e cp8)

def execDescriptorComplete (e : Fin 32) (s : State) : Host.Outcome State Fault Refusal := .next (s.descriptorComplete e)

def execEngineKeyRecheck (e : Fin 32) (s : State) : Host.Outcome State Fault Refusal := .next (s.keyRecheck e)

def execCycleLimit (e : Fin 32) (s : State) : Host.Outcome State Fault Refusal := .next (s.cycleLimit e)

def execAdd (e : Fin 32) (f : BitVec 26) (s : State) : Host.Outcome State Fault Refusal :=
  .next (s.opR e 0x00 f (fun _ => 1) (fun a b => a + b))

def execSub (e : Fin 32) (f : BitVec 26) (s : State) : Host.Outcome State Fault Refusal :=
  .next (s.opR e 0x01 f (fun _ => 1) (fun a b => a - b))

def execAnd (e : Fin 32) (f : BitVec 26) (s : State) : Host.Outcome State Fault Refusal :=
  .next (s.opR e 0x02 f (fun _ => 1) (fun a b => a &&& b))

def execOr (e : Fin 32) (f : BitVec 26) (s : State) : Host.Outcome State Fault Refusal :=
  .next (s.opR e 0x03 f (fun _ => 1) (fun a b => a ||| b))

def execXor (e : Fin 32) (f : BitVec 26) (s : State) : Host.Outcome State Fault Refusal :=
  .next (s.opR e 0x04 f (fun _ => 1) (fun a b => a ^^^ b))

def execSll (e : Fin 32) (f : BitVec 26) (s : State) : Host.Outcome State Fault Refusal :=
  .next (s.opR e 0x05 f (fun _ => 1) (fun a b => a <<< (b.toNat % 64)))

def execSrl (e : Fin 32) (f : BitVec 26) (s : State) : Host.Outcome State Fault Refusal :=
  .next (s.opR e 0x06 f (fun _ => 1) (fun a b => a >>> (b.toNat % 64)))

def execSra (e : Fin 32) (f : BitVec 26) (s : State) : Host.Outcome State Fault Refusal :=
  .next (s.opR e 0x07 f (fun _ => 1) (fun a b => a.sshiftRight (b.toNat % 64)))

def execAddi (e : Fin 32) (f : BitVec 26) (s : State) : Host.Outcome State Fault Refusal :=
  .next (s.opI e 0x08 f false (fun a => a + sImm f))

def execAndi (e : Fin 32) (f : BitVec 26) (s : State) : Host.Outcome State Fault Refusal :=
  .next (s.opI e 0x09 f false (fun a => a &&& zImm f))

def execOri (e : Fin 32) (f : BitVec 26) (s : State) : Host.Outcome State Fault Refusal :=
  .next (s.opI e 0x0A f false (fun a => a ||| zImm f))

def execXori (e : Fin 32) (f : BitVec 26) (s : State) : Host.Outcome State Fault Refusal :=
  .next (s.opI e 0x0B f false (fun a => a ^^^ zImm f))

def execSlli (e : Fin 32) (f : BitVec 26) (s : State) : Host.Outcome State Fault Refusal :=
  .next (s.opI e 0x0C f (badShift f) (fun a => a <<< shamt f))

def execSrli (e : Fin 32) (f : BitVec 26) (s : State) : Host.Outcome State Fault Refusal :=
  .next (s.opI e 0x0D f (badShift f) (fun a => a >>> shamt f))

def execSrai (e : Fin 32) (f : BitVec 26) (s : State) : Host.Outcome State Fault Refusal :=
  .next (s.opI e 0x0E f (badShift f) (fun a => a.sshiftRight (shamt f)))

def execLui (e : Fin 32) (f : BitVec 26) (s : State) : Host.Outcome State Fault Refusal :=
  .next (s.opI e 0x0F f (fB f != 0) (fun _ => (fImm f ++ 0#16).signExtend 64))

def execMul (e : Fin 32) (f : BitVec 26) (s : State) : Host.Outcome State Fault Refusal :=
  .next (s.opR e 0x10 f (fun _ => 3) (fun a b => a * b))

def execMulhu (e : Fin 32) (f : BitVec 26) (s : State) : Host.Outcome State Fault Refusal :=
  .next (s.opR e 0x11 f (fun _ => 3) (fun a b => BitVec.ofNat 64 (a.toNat * b.toNat / 2 ^ 64)))

def execDivu (e : Fin 32) (f : BitVec 26) (s : State) : Host.Outcome State Fault Refusal :=
  .next (s.opR e 0x12 f (fun a => 2 + sigBits a) (fun a b => if b = 0 then BitVec.allOnes 64 else a / b))

def execRemu (e : Fin 32) (f : BitVec 26) (s : State) : Host.Outcome State Fault Refusal :=
  .next (s.opR e 0x13 f (fun a => 2 + sigBits a) (fun a b => if b = 0 then a else a % b))

def execSlt (e : Fin 32) (f : BitVec 26) (s : State) : Host.Outcome State Fault Refusal :=
  .next (s.opR e 0x14 f (fun _ => 1) (fun a b => if a.slt b then 1 else 0))

def execSltu (e : Fin 32) (f : BitVec 26) (s : State) : Host.Outcome State Fault Refusal :=
  .next (s.opR e 0x15 f (fun _ => 1) (fun a b => if a.ult b then 1 else 0))

def execMinu (e : Fin 32) (f : BitVec 26) (s : State) : Host.Outcome State Fault Refusal :=
  .next (s.opR e 0x16 f (fun _ => 1) (fun a b => if a.ult b then a else b))

def execMaxu (e : Fin 32) (f : BitVec 26) (s : State) : Host.Outcome State Fault Refusal :=
  .next (s.opR e 0x17 f (fun _ => 1) (fun a b => if a.ult b then b else a))

def execLd8 (e : Fin 32) (f : BitVec 26) (ecc : CellErr) (s : State) : Host.Outcome State Fault Refusal :=
  .next (s.opLoad e 0x18 f ecc 1 true false)

def execLd16 (e : Fin 32) (f : BitVec 26) (ecc : CellErr) (s : State) : Host.Outcome State Fault Refusal :=
  .next (s.opLoad e 0x19 f ecc 2 true false)

def execLd32 (e : Fin 32) (f : BitVec 26) (ecc : CellErr) (s : State) : Host.Outcome State Fault Refusal :=
  .next (s.opLoad e 0x1A f ecc 4 true false)

def execLd64 (e : Fin 32) (f : BitVec 26) (ecc : CellErr) (s : State) : Host.Outcome State Fault Refusal :=
  .next (s.opLoad e 0x1B f ecc 8 false false)

def execLdu8 (e : Fin 32) (f : BitVec 26) (ecc : CellErr) (s : State) : Host.Outcome State Fault Refusal :=
  .next (s.opLoad e 0x1C f ecc 1 false false)

def execLdu16 (e : Fin 32) (f : BitVec 26) (ecc : CellErr) (s : State) : Host.Outcome State Fault Refusal :=
  .next (s.opLoad e 0x1D f ecc 2 false false)

def execLdu32 (e : Fin 32) (f : BitVec 26) (ecc : CellErr) (s : State) : Host.Outcome State Fault Refusal :=
  .next (s.opLoad e 0x1E f ecc 4 false false)

def execLdAcq (e : Fin 32) (f : BitVec 26) (ecc : CellErr) (s : State) : Host.Outcome State Fault Refusal :=
  .next (s.opLoad e 0x1F f ecc 8 false true)

def execSt8 (e : Fin 32) (f : BitVec 26) (s : State) : Host.Outcome State Fault Refusal := .next (s.opStore e 0x20 f 1 false)

def execSt16 (e : Fin 32) (f : BitVec 26) (s : State) : Host.Outcome State Fault Refusal := .next (s.opStore e 0x21 f 2 false)

def execSt32 (e : Fin 32) (f : BitVec 26) (s : State) : Host.Outcome State Fault Refusal := .next (s.opStore e 0x22 f 4 false)

def execSt64 (e : Fin 32) (f : BitVec 26) (s : State) : Host.Outcome State Fault Refusal := .next (s.opStore e 0x23 f 8 false)

def execStRel (e : Fin 32) (f : BitVec 26) (s : State) : Host.Outcome State Fault Refusal := .next (s.opStore e 0x24 f 8 true)

def execLdv (e : Fin 32) (f : BitVec 26) (ecc : CellErr) (s : State) : Host.Outcome State Fault Refusal :=
  .next (s.opLoad e 0x25 f ecc 64 false false)

def execStv (e : Fin 32) (f : BitVec 26) (s : State) : Host.Outcome State Fault Refusal := .next (s.opStv e 0x26 f)

def execZero (e : Fin 32) (f : BitVec 26) (s : State) : Host.Outcome State Fault Refusal :=
  .next (s.issue e 0x27 f (fA f != 0) [fB f] (fun s =>
    s.storeAt e (engAddr ((s.eng e).get (fB f)) (sImm f)) 64 0 false))

def execAmoAdd (e : Fin 32) (f : BitVec 26) (s : State) : Host.Outcome State Fault Refusal := .next (s.opAmo e 0x28 f .add)

def execAmoSwap (e : Fin 32) (f : BitVec 26) (s : State) : Host.Outcome State Fault Refusal := .next (s.opAmo e 0x29 f .swap)

def execAmoCas (e : Fin 32) (f : BitVec 26) (s : State) : Host.Outcome State Fault Refusal := .next (s.opAmo e 0x2A f .cas)

def execAmoAnd (e : Fin 32) (f : BitVec 26) (s : State) : Host.Outcome State Fault Refusal := .next (s.opAmo e 0x2B f .and)

def execAmoOr (e : Fin 32) (f : BitVec 26) (s : State) : Host.Outcome State Fault Refusal := .next (s.opAmo e 0x2C f .or)

def execAmoXor (e : Fin 32) (f : BitVec 26) (s : State) : Host.Outcome State Fault Refusal := .next (s.opAmo e 0x2D f .xor)

def execAmoMinu (e : Fin 32) (f : BitVec 26) (s : State) : Host.Outcome State Fault Refusal := .next (s.opAmo e 0x2E f .minu)

def execAmoMaxu (e : Fin 32) (f : BitVec 26) (s : State) : Host.Outcome State Fault Refusal := .next (s.opAmo e 0x2F f .maxu)

def execBeq (e : Fin 32) (f : BitVec 26) (s : State) : Host.Outcome State Fault Refusal :=
  .next (s.opB e 0x30 f (fun a b => a == b))

def execBne (e : Fin 32) (f : BitVec 26) (s : State) : Host.Outcome State Fault Refusal :=
  .next (s.opB e 0x31 f (fun a b => a != b))

def execBlt (e : Fin 32) (f : BitVec 26) (s : State) : Host.Outcome State Fault Refusal :=
  .next (s.opB e 0x32 f (fun a b => a.slt b))

def execBge (e : Fin 32) (f : BitVec 26) (s : State) : Host.Outcome State Fault Refusal :=
  .next (s.opB e 0x33 f (fun a b => !a.slt b))

def execBltu (e : Fin 32) (f : BitVec 26) (s : State) : Host.Outcome State Fault Refusal :=
  .next (s.opB e 0x34 f (fun a b => a.ult b))

def execBgeu (e : Fin 32) (f : BitVec 26) (s : State) : Host.Outcome State Fault Refusal :=
  .next (s.opB e 0x35 f (fun a b => !a.ult b))

def execJal (e : Fin 32) (f : BitVec 26) (s : State) : Host.Outcome State Fault Refusal :=
  .next (s.issue e 0x36 f false [fA f] (fun s =>
    let pc := (s.eng e).pc
    let target := BitVec.ofNat 64 (pc + 4) + 4 * (f.extractLsb' 0 21).signExtend 64
    (s.setEng e ((s.eng e).set (fA f) (BitVec.ofNat 64 (pc + 4)))).retire e 2 target.toNat))

def execJalr (e : Fin 32) (f : BitVec 26) (s : State) : Host.Outcome State Fault Refusal :=
  .next (s.issue e 0x37 f false [fA f, fB f] (fun s =>
    let pc := (s.eng e).pc
    let target := ((s.eng e).get (fB f) + sImm f).toNat / 4 * 4
    (s.setEng e ((s.eng e).set (fA f) (BitVec.ofNat 64 (pc + 4)))).retire e 2 target))

def execCrc32c (e : Fin 32) (f : BitVec 26) (s : State) : Host.Outcome State Fault Refusal :=
  .next (s.opR e 0x38 f (fun _ => 1) (fun a b => (crc32cUpd (a.setWidth 32) (toBytes 8 b)).zeroExtend 64))

def execPopc (e : Fin 32) (f : BitVec 26) (s : State) : Host.Outcome State Fault Refusal :=
  .next (s.opR1 e 0x39 f (fun a => BitVec.ofNat 64 (popcount a)))

def execClz (e : Fin 32) (f : BitVec 26) (s : State) : Host.Outcome State Fault Refusal :=
  .next (s.opR1 e 0x3A f (fun a => BitVec.ofNat 64 (64 - sigBits a)))

def execCsrr (e : Fin 32) (f : BitVec 26) (s : State) : Host.Outcome State Fault Refusal := .next (s.opCsrr e f)

def execFenceLoad (e : Fin 32) (f : BitVec 26) (s : State) : Host.Outcome State Fault Refusal := .next (s.opFence e f 1)

def execFenceStore (e : Fin 32) (f : BitVec 26) (s : State) : Host.Outcome State Fault Refusal := .next (s.opFence e f 2)

def execFenceFull (e : Fin 32) (f : BitVec 26) (s : State) : Host.Outcome State Fault Refusal := .next (s.opFence e f 3)

def execFenceDevice (e : Fin 32) (f : BitVec 26) (s : State) : Host.Outcome State Fault Refusal := .next (s.opFence e f 4)

def execFenceSc (e : Fin 32) (f : BitVec 26) (s : State) : Host.Outcome State Fault Refusal :=
  .next (s.issue e 0x3D f (fA f != 0 || fB f != 0 || fImm f != 0) [] (fun s => s.fence e 0))

def execDone (e : Fin 32) (f : BitVec 26) (s : State) : Host.Outcome State Fault Refusal := .next (s.opDone e f)

def execBrk (e : Fin 32) (f : BitVec 26) (s : State) : Host.Outcome State Fault Refusal := .next (s.opBrk e f)

def execFillReturn (e : Fin 32) (tag : Nat) (err : HostLine) (s : State) : Host.Outcome State Fault Refusal :=
  .next (s.fillReturn e tag err)

def execStoreComplete (e : Fin 32) (tag : StoreReturn) (s : State) : Host.Outcome State Fault Refusal :=
  .next (s.storeComplete e tag.tag tag.err)

def execDeviceStoreTimeout (e : Fin 32) (tag : Nat) (s : State) : Host.Outcome State Fault Refusal :=
  .next (s.storeTimeout e tag)

def execDeviceLoadTimeout (e : Fin 32) (tag : Nat) (s : State) : Host.Outcome State Fault Refusal :=
  .next (s.loadTimeout e tag)

def execEngLoad (p : Path) (v : Word) (s : State) : Host.Outcome State Fault Refusal := .next (s.touch.writeEngLoad p v)

def execEngUnload (p : Path) (v : Word) (s : State) : Host.Outcome State Fault Refusal := .next (s.touch.writeEngLoad p v)

def execEngLoadDone (image : List Word) (s : State) : Host.Outcome State Fault Refusal := .next (s.engLoadDone image)

/-! ### What a debugger does to an engine (R236, R253) -/

/-- The engine's context as a debugger sees it: halted, in a trust mode that reaches it. -/
def State.dbgEngine (s : State) (e : Nat) : Bool := s.debugOk && (s.eng e).dbg

/-- A debugger halts a bound engine. -/
def State.engHaltDbg (s : State) (e : Nat) : State :=
  if s.debugOk && s.engBound e then (s.setEng e { s.eng e with dbg := true }).showEng e else s

/-- A halted engine runs again and raises a timeout that passed meanwhile (R253). -/
def State.engGo (s : State) (e : Nat) : State :=
  let g := s.eng e
  let t := (s.setEng e { g with
    dbg := false
    dbgLost := none }).showEng e
  match g.dbgLost with
  | some ea => t.engFault e 0x09 ea true
  | none => t

/-- The debugger leaves: what it halted goes on at its next instruction (R392). -/
def State.letGo (s : State) : State :=
  let t := (List.range 32).foldl (fun s e => if (s.eng e).dbg then s.engGo e else s) s
  (t.put F.MODE_DEBUG_ATTACHED 0).put F.MODE_DEBUG_CORES 0

def State.engResume (s : State) (e : Nat) : State := if s.dbgEngine e then s.engGo e else s

/-- The instruction with an opcode and fields (R226); a fence of no kind is tried as the first. -/
def engOpcode (op : Nat) (e : Fin 32) (f : BitVec 26) (s : State) : Host.Outcome State Fault Refusal :=
  match op with
  | 0x00 => execAdd e f s | 0x01 => execSub e f s | 0x02 => execAnd e f s | 0x03 => execOr e f s
  | 0x04 => execXor e f s | 0x05 => execSll e f s | 0x06 => execSrl e f s | 0x07 => execSra e f s
  | 0x08 => execAddi e f s | 0x09 => execAndi e f s | 0x0A => execOri e f s | 0x0B => execXori e f s
  | 0x0C => execSlli e f s | 0x0D => execSrli e f s | 0x0E => execSrai e f s | 0x0F => execLui e f s
  | 0x10 => execMul e f s | 0x11 => execMulhu e f s | 0x12 => execDivu e f s | 0x13 => execRemu e f s
  | 0x14 => execSlt e f s | 0x15 => execSltu e f s | 0x16 => execMinu e f s | 0x17 => execMaxu e f s
  | 0x18 => execLd8 e f .none s | 0x19 => execLd16 e f .none s | 0x1A => execLd32 e f .none s | 0x1B => execLd64 e f .none s
  | 0x1C => execLdu8 e f .none s | 0x1D => execLdu16 e f .none s | 0x1E => execLdu32 e f .none s
  | 0x1F => execLdAcq e f .none s
  | 0x20 => execSt8 e f s | 0x21 => execSt16 e f s | 0x22 => execSt32 e f s | 0x23 => execSt64 e f s
  | 0x24 => execStRel e f s | 0x25 => execLdv e f .none s | 0x26 => execStv e f s | 0x27 => execZero e f s
  | 0x28 => execAmoAdd e f s | 0x29 => execAmoSwap e f s | 0x2A => execAmoCas e f s | 0x2B => execAmoAnd e f s
  | 0x2C => execAmoOr e f s | 0x2D => execAmoXor e f s | 0x2E => execAmoMinu e f s | 0x2F => execAmoMaxu e f s
  | 0x30 => execBeq e f s | 0x31 => execBne e f s | 0x32 => execBlt e f s | 0x33 => execBge e f s
  | 0x34 => execBltu e f s | 0x35 => execBgeu e f s | 0x36 => execJal e f s | 0x37 => execJalr e f s
  | 0x38 => execCrc32c e f s | 0x39 => execPopc e f s | 0x3A => execClz e f s | 0x3B => execCsrr e f s
  | 0x3C => (match (fImm f).toNat with
    | 2 => execFenceStore e f s | 3 => execFenceFull e f s | 4 => execFenceDevice e f s | _ => execFenceLoad e f s)
  | 0x3D => execFenceSc e f s | 0x3E => execDone e f s | _ => execBrk e f s

/-- A single step of a halted engine: one instruction, after which it is halted again. -/
def State.engStep (s : State) (e : Fin 32) : State :=
  if !s.dbgEngine e then s
  else
    let t := s.engGo e
    let w := t.fetchWord e
    match engOpcode (w.toNat / 2 ^ 26) e (w.extractLsb' 0 26) t with
    | .next u => (u.setEng e { u.eng e with dbg := true }).showEng e
    | _ => s

end Sys2Proof.Machine
end

