-- ==== Sys2Proof/Machine/Clusters.lean ====
section
/-! DEFINITION. Engine clusters: reset, STOP and WAKE (R237 to R239), what stops engines (R238), the release walk (R234),
and the cluster cache's locks, scratchpad share and maintenance (R262 to R266). -/

namespace Sys2Proof.Machine

/-! ### Dropping caches and work -/

/-- Invalidates the caches of the clusters `p` names; nothing is counted as a locked line lost. -/
def State.ccClear (s : State) (p : Nat → Bool) : State :=
  { s with
    clu.lines := mapFilter (fun loc _ => !p (loc / 65536)) s.clu.lines
    clu.use := s.clu.use.filter (fun loc => !p (loc / 65536)) }

/-- Removes the accesses that `p` names. -/
def State.dropWhere (s : State) (p : Access → Bool) : State :=
  ((s.accesses.filter p).map (·.id)).foldl (fun s id => s.endAccess id) s

/-- Ends a maintenance operation with a code (R265, R266). -/
def State.endMaint (s : State) (code : Nat) : State :=
  if s.clu.maint.isSome then
    let t : State := { s with clu.maint := none }
    let t := t.dropWhere (fun a => match a.own with | .fill _ => true | _ => false)
    (t.put F.ENG_CC_MAINT_STAT_BUSY 0).put F.ENG_CC_MAINT_STAT_CODE code
  else s

/-- Removes the accesses of engines that `p` names: all of them, or those not yet admitted; reads in any stage. -/
def State.dropAccesses (s : State) (p : Nat → Bool) : State :=
  s.dropWhere (fun a => match a.own with
    | .engine e _ => p e && (a.stage == .waiting || !a.write)
    | .device e _ => p e
    | .ring e => p e
    | _ => false)

/-- A store of an engine that has been admitted goes on to its target, whatever becomes of the engine (R237, R238). -/
def State.goesOn (s : State) (e tag : Nat) : Bool := (s.eng e).ops.any (fun o => o.tag == tag && o.left)

/-- Removes the remote accesses and the enqueue stores of engines that `p` names, but for the stores that go on. -/
def State.dropRemote (s : State) (p : Nat → Bool) : State :=
  { s with
    orb.remote := s.orb.remote.filter (fun r => !p r.eng || s.goesOn r.eng r.ref)
    stq := s.stq.map (fun q => (q.1, { q.2 with waiting := q.2.waiting.filter (fun w => !p w.1 || s.goesOn w.1 w.2.1) })) }

/-- The engines named stop at once: their cycles are charged, their admitted stores go on and the rest of their accesses are gone
(R235, R237, R238). -/
def State.cutEngines (s : State) (es : List Nat) : State :=
  let t := es.foldl (fun s e => (s.chargeCycles e).setEng e ((s.chargeCycles e).eng e).abandon) s
  (t.dropAccesses es.contains).dropRemote es.contains

/-- Cluster k is reset (R237): its engines stop, stores already admitted complete, and class K takes its defaults. -/
def State.resetCluster (s : State) (k : Nat) : State :=
  let t := ((s.cutEngines (engsOf k)).ccClear (· == k)).zeroPads (fun e => e / 8 == k)
  let t := (engsOf k).foldl (fun s e => s.setEng e (s.eng e).fresh) t
  let t := t.resetRegs clusterKind (fun off => decide (0x200000 + 0x100 * k ≤ off) && decide (off < 0x200100 + 0x100 * k))
  (((t.endMaint 5).showEng (8 * k)).wake [1 + k]).clearLatch (9 + k)

/-- Every cluster is reset and its program slots are emptied: warm reset, cold reset, POR and leaving Dark (R233, R237). -/
def State.resetClusters (s : State) : State :=
  let t := (List.range 4).foldl (fun s k => s.resetCluster k) s
  { t with
    clu.prog := []
    clu.progs := []
    clu.loadRun := none }

/-- A store of engine e that has not been admitted (R61, R238). -/
def State.unadmitted (s : State) (e : Nat) (o : MemOp) : Bool :=
  o.isStore && !o.left && (o.stage == .held || o.stage == .queued ||
    (o.stage == .sent && !o.dev && !s.accesses.any (fun a => a.own == .engine e o.tag)))

/-- Engines stop where they stand (R238): no completion is written, unadmitted stores are not stored, and those admitted go on. -/
def State.stopEngines (s : State) : State :=
  let t := s.cutEngines (List.range 32)
  (List.range 32).foldl (fun s e =>
    let s := ((s.eng e).ops.filter (s.unadmitted e)).foldl (fun s o => s.meterOp o .wrFail 1) s
    (s.setEng e { s.eng e with
      phase := if s.engBound e then .stopped else .off
      ops := (s.eng e).ops.filter (·.left)
      ring := none
      bell := false }).showEng e) t

/-- Engines at step 5 of R91, or at Vendor-debug: stopped, with every cache invalidated and every scratchpad zeroed
(R238, R266). -/
def State.haltEngines (s : State) : State :=
  (((s.stopEngines.ccClear (fun _ => true)).zeroPads (fun _ => true)).endMaint 5).put F.ENG_STAT_HALT_STOP 1

/-! ### ENG_CLk_CTL (R238, R239) -/

/-- A write of ENG_CLk_CTL: RST, STOP and WAKE (R237, R238, R239). STOP holds the unit (R309); cleared it lets the queues go on. -/
def State.writeClCtl (s : State) (p : Path) (k : Nat) (v : Word) : State :=
  if !s.mayWrite p (R.ENG_CL_CTL k) then s
  else
    let t := s.plainWrite p (R.ENG_CL_CTL k) v
    let t := (engsOf k).foldl (fun s e => if (s.eng e).phase = .held then s.engNext e else s.showEng e) t
    let t := t.holdUnit (uClu k) (t.flag (F.ENG_CL_CTL_STOP k))
    let t := if (F.ENG_CL_CTL_WAKE k).on v then t.wake [1 + k] else t
    if (F.ENG_CL_CTL_RST k).on v then t.resetCluster k else t

/-- A write of ENG_CFG: EN lets held engines go on (R239). -/
def State.writeEngCfg (s : State) (p : Path) (v : Word) : State :=
  let t := s.plainWrite p R.ENG_CFG v
  (List.range 32).foldl (fun s e => if (s.eng e).phase = .held then s.engNext e else s) t

/-! ### The release walk (R234) -/

/-- A cluster that may walk: named, or every one when none is named (R239). -/
def State.mayWalk (s : State) (k : Nat) : Bool :=
  let m := s.get F.ENG_ZERO_CFG_CLUSTERS
  m == 0 || m.testBit k

/-- An unbound engine of a cluster that may walk. -/
def State.walker (s : State) : Option Nat := (List.range 32).find? (fun e => s.mayWalk (e / 8) && !s.engBound e)

/-- Tiles of a released range that have been walked. -/
def State.walkedOf (s : State) (r : Nat × Nat × Nat) : Nat := (mapGet? s.rgn.walked r.2.1).getD 0

/-- One more tile of a released range has been walked; after the last its record is cleared (R234). -/
def State.noteWalk (s : State) (r : Nat × Nat × Nat) : State :=
  let n := s.walkedOf r + 1
  if r.2.1 + n < r.2.2 then { s with rgn.walked := mapPut s.rgn.walked r.2.1 n }
  else State.showReleases { s with
    rgn.walked := mapDel s.rgn.walked r.2.1
    rgn.releases := s.rgn.releases.filter (· != r) }

/-- Walks the next tile of the oldest released range whose commit has drained, when an engine is free, the power bucket lets it and the
delta log has room (R115, R151, R234): the tile's data goes, its position is marked dead, and after the last tile of the range its
record is cleared; extents that may be offered again are (R55). -/
def State.releaseWalk (s : State) : State :=
  match s.rgn.releases.find? (fun r => !s.isDraining r.1) with
  | none => s
  | some r =>
    if s.walker.isNone || decide (s.adm.power ≤ 0) || !s.deltaRoom 2 || s.halted || s.service == svHold || !s.lit then s
    else ((s.walkTile (r.2.1 + s.walkedOf r)).noteWalk r).offerNew s

/-! ### Locks (R262) -/

/-- Drops the lines of cluster k's cache in the ways `p` names. -/
def State.ccDropWays (s : State) (k : Nat) (p : Nat → Bool) : State :=
  { s with
    clu.lines := mapFilter (fun loc _ => !(loc / 65536 == k && p (loc % 16))) s.clu.lines
    clu.use := s.clu.use.filter (fun loc => !(loc / 65536 == k && p (loc % 16))) }

/-- A write of ENG_CCk_LOCK: ways newly locked lose their lines, ways unlocked keep theirs as the least recent, and
scratchpad units read 0 (R262). -/
def State.writeCcLock (s : State) (p : Path) (k : Nat) (v : Word) : State :=
  if !s.mayWrite p (R.ENG_CC_LOCK k) then s
  else
    let old := (s.rd (R.ENG_CC_LOCK k)).toNat
    let new := v.toNat % 2 ^ (16 - s.spWays k)
    let t := s.ccDropWays k (fun w => new.testBit w && !old.testBit w)
    let freed := fun (loc : Nat) => loc / 65536 == k && old.testBit (loc % 16) && !new.testBit (loc % 16)
    let t : State := { t with clu.use := t.clu.use.filter (fun l => !freed l) ++ t.clu.use.filter freed }
    t.wr (R.ENG_CC_LOCK k) (BitVec.ofNat 32 new)

/-! ### Scratchpad (R263, R264) -/

/-- A write of ENG_CCk_CFG: SP_WAYS only while no engine of the cluster is bound (R264); BYPASS in any case (R257). -/
def State.writeCcCfg (s : State) (p : Path) (k : Nat) (v : Word) : State :=
  if !s.mayWrite p (R.ENG_CC_CFG k) then s
  else
    let t := s.put (F.ENG_CC_CFG_BYPASS k) ((F.ENG_CC_CFG_BYPASS k).of v)
    if (engsOf k).any t.engBound then t.put (F.ENG_CC_STAT_CFG_REFUSED k) 1
    else
      let old := t.spWays k
      let t := t.put (F.ENG_CC_CFG_SP_WAYS k) ((F.ENG_CC_CFG_SP_WAYS k).of v)
      let now := t.spWays k
      let lost := fun w => decide (16 - max old now ≤ w)
      let t := (t.ccDropWays k lost).zeroPads (fun e => e / 8 == k)
      let t := t.wr (R.ENG_CC_LOCK k) (BitVec.ofNat 32 ((t.rd (R.ENG_CC_LOCK k)).toNat % 2 ^ (16 - now)))
      t.put (F.ENG_CC_STAT_WAYS k) (16 - now)

/-! ### Maintenance (R265, R266) -/

/-- The host lines of a maintenance operation that lie in its range. -/
def MaintRun.covers (m : MaintRun) (hl : Nat) : Bool := m.op == 1 || (decide (m.first ≤ hl) && decide (hl < m.first + m.len))

/-- Drops every line of an operation's range in its clusters, and marks fills in flight (R265). -/
def State.maintDrop (s : State) (m : MaintRun) : State :=
  let t := s.ccDropAll (fun loc c => m.clusters.testBit (loc / 65536) && m.covers c.hl)
  { t with clu.engs := t.clu.engs.map (fun q => (q.1, { q.2 with
      ops := q.2.ops.map (fun o => if m.clusters.testBit (q.1 / 8) && o.filling && m.covers o.hl then { o with drop := true } else o) })) }

/-- CODE of a maintenance operation, and the region of a LOCK_FILL (R265 to R267). -/
def State.maintCheck (s : State) (op clusters first len key : Nat) : Nat × Nat :=
  let locked := (List.range 4).all (fun k => !clusters.testBit k || s.get (F.ENG_CC_LOCK_locked k) != 0)
  if op = 0 ∨ op > 3 ∨ clusters = 0 then (1, 0)
  else if op ≠ 1 ∧ (len = 0 ∨ first + len > 2 ^ 38) then (2, 0)
  else if op ≠ 3 then (0, 0)
  else match s.regionAt (first * 64) with
    | none => (3, 0)
    | some (r, d) =>
      if dType d ≠ 0 ∨ (first + len) * 64 > (dBase d + dSize d) * 2 ^ 24 ∨
          (dNames d key && decide (dKey d ≤ key)) = false then (3, 0)
      else if !locked then (4, 0)
      else (0, r)

/-- The host line and the cluster of a LOCK_FILL's fill in hand, or the next. -/
def MaintRun.line (m : MaintRun) : Nat := m.first + m.next / 4
def MaintRun.cluster (m : MaintRun) : Nat := m.next % 4

/-- The lowest empty locked way of a host line's set in cluster k (R265). -/
def State.lockSlot (s : State) (k hl : Nat) : Option Nat :=
  (s.ccLocs k hl).find? (fun l => s.ccLocked l && (mapGet? s.clu.lines l).isNone)

/-- The read of a host line for a LOCK_FILL, as an engine read (R217, R265): none when it does not resolve, or its slot is empty. -/
def State.fillReq (s : State) (m : MaintRun) : Option Access :=
  match s.regionAt (m.line * 64) with
  | some (r, d) =>
    if r = m.region ∧ dType d = 0 ∧ (s.slot m.key.toNat).isSome = true ∧ s.mediaLost = false then
      some { engReq (.fill m.cluster) false (r, d) m.key 0 0 0 none with dpa := m.line * 64 }
    else none
  | none => none

/-- A fill of a LOCK_FILL is done with: installed, or skipped. -/
def State.fillNext (s : State) (m : MaintRun) (skipped : Bool) : State :=
  let t : State := { s with clu.maint := some { m with
    next := m.next + 1
    hand := .none } }
  if skipped then t.sat F.ENG_CC_MAINT_STAT_SKIPPED 1 else t

/-- A LOCK_FILL sends its next fill; one that has nowhere to go is skipped, and one of a cluster that is not named is none (R265). With
the class queues full it waits (R214). -/
def State.fillSend (s : State) (m : MaintRun) : State :=
  if !m.clusters.testBit m.cluster then s.fillNext m false
  else if (s.lockSlot m.cluster m.line).isNone || s.flag (F.ENG_CC_CFG_BYPASS m.cluster) then s.fillNext m true
  else match s.fillReq m with
    | none => s.fillNext m true
    | some a =>
      if s.clusterFull m.cluster then s
      else State.newAccess { s with clu.maint := some { m with
        changed := []
        hand := .sent } } a

/-- The fill in hand crosses CP8 and is installed, unless its line has changed since it was sent or its way is gone (R218, R259, R265,
R266). -/
def State.fillTake (s : State) (m : MaintRun) (r : FillRes) (err : HostLine) : State :=
  match r with
  | .data h false =>
    if carryCheck (h ^^^ err) ≠ carryCheck h then (s.ccMismatch 8 m.region).fillNext m true
    else match (if s.flag (F.ENG_CC_CFG_BYPASS m.cluster) || m.changed.contains (m.line / 4) then none
        else s.lockSlot m.cluster m.line) with
      | some loc => (s.ccPut loc ⟨m.line, m.key, h ^^^ err⟩).fillNext m false
      | none => s.fillNext m true
  | _ => s.fillNext m true

/-- One step of a LOCK_FILL: the fill in hand is taken once it has returned, else the next is sent. -/
def State.fillStep (s : State) (m : MaintRun) (err : HostLine) : State :=
  match m.hand with
  | .sent => s
  | .back r => s.fillTake m r err
  | .none => if m.next < 4 * m.len then s.fillSend m else s

/-- A write of ENG_CC_MAINT_CTL (R265, R267): GO starts OP; while an operation runs a write with GO is ignored (R266). -/
def State.writeMaint (s : State) (p : Path) (v : Word) : State :=
  let go := F.ENG_CC_MAINT_CTL_GO.on v
  if !s.mayWrite p R.ENG_CC_MAINT_CTL || (go && s.clu.maint.isSome) then s
  else
    let t := s.plainWrite p R.ENG_CC_MAINT_CTL v
    if !go then t
    else
      let op := F.ENG_CC_MAINT_CTL_OP.of v
      let clusters := F.ENG_CC_MAINT_CTL_CLUSTERS.of v
      let first := ((t.rd R.ENG_CC_MAINT_ADDR_LO).toNat + 2 ^ 32 * (t.rd R.ENG_CC_MAINT_ADDR_HI).toNat) / 64
      let len := t.get F.ENG_CC_MAINT_LEN_host
      let key := t.get F.ENG_CC_MAINT_KEY_key
      let (code, r) := t.maintCheck op clusters first len key
      if code ≠ 0 then t.put F.ENG_CC_MAINT_STAT_CODE code
      else
        let m : MaintRun := ⟨op, clusters, first, len, BitVec.ofNat 14 key, r, [], 0, .none⟩
        let u : State := { t.put F.ENG_CC_MAINT_STAT_BUSY 1 with clu.maint := some m }
        let u := if op = 3 then u.put F.ENG_CC_MAINT_STAT_SKIPPED 0 else u.maintDrop m
        u.put F.ENG_CC_MAINT_STAT_CODE 0

/-- The operation waits: a LOCK_FILL has fills left, another a fill of its range in flight (R265). -/
def State.maintWaits (s : State) (m : MaintRun) : Bool :=
  if m.op = 3 then decide (m.next < 4 * m.len)
  else s.clu.engs.any (fun q => m.clusters.testBit (q.1 / 8) && q.2.ops.any (fun o => o.filling && m.covers o.hl))

/-- A maintenance operation ends once its fills have returned; one of a LOCK_FILL that has returned crosses CP8 meanwhile, where `err`
is what the handoff changed (R265). -/
def State.maintDone (s : State) (err : HostLine) : State :=
  match s.clu.maint with
  | none => s
  | some m =>
    if s.maintWaits m then (if m.op = 3 then s.fillStep m err else s)
    else (if m.op = 3 then s else s.maintDrop m).endMaint 0

/-! ### The commands -/

def execClusterReset (p : Path) (k : Fin 4) (v : Word) (s : State) : Host.Outcome State Fault Refusal := .next (s.touch.writeClCtl p k v)

def execClusterStop (p : Path) (k : Fin 4) (v : Word) (s : State) : Host.Outcome State Fault Refusal := .next (s.touch.writeClCtl p k v)

def execClusterWake (p : Path) (k : Fin 4) (v : Word) (s : State) : Host.Outcome State Fault Refusal := .next (s.touch.writeClCtl p k v)

def execReleaseWalk (s : State) : Host.Outcome State Fault Refusal := .next s.releaseWalk

def execInvAll (p : Path) (v : Word) (s : State) : Host.Outcome State Fault Refusal := .next (s.touch.writeMaint p v)

def execInvRange (p : Path) (v : Word) (s : State) : Host.Outcome State Fault Refusal := .next (s.touch.writeMaint p v)

def execLockFill (p : Path) (v : Word) (s : State) : Host.Outcome State Fault Refusal := .next (s.touch.writeMaint p v)

def execMaintDone (lost : HostLine) (s : State) : Host.Outcome State Fault Refusal := .next (s.maintDone lost)

def execCcLockWrite (p : Path) (k : Fin 4) (v : Word) (s : State) : Host.Outcome State Fault Refusal := .next (s.touch.writeCcLock p k v)

def execCcCfgWrite (p : Path) (k : Fin 4) (v : Word) (s : State) : Host.Outcome State Fault Refusal := .next (s.touch.writeCcCfg p k v)

end Sys2Proof.Machine
end

