-- ==== Sys2Proof/Machine/Streams.lean ====
section
/-! DEFINITION. Stream queues (R268 to R281): enabling, enqueue and dequeue, credits, discarding, and what a page's lines
do to engine accesses. -/

namespace Sys2Proof.Machine

/-! ### Fields (R268, R269, R281) -/

def QueueSt.kind (q : QueueSt) : Nat := F.STQ_Q_CFG_KIND.of q.cfg
def QueueSt.large (q : QueueSt) : Bool := F.STQ_Q_CFG_MODE.on q.cfg
def QueueSt.n4 (q : QueueSt) : Bool := F.STQ_Q_CFG_N4.on q.cfg
def QueueSt.log (q : QueueSt) : Nat := F.STQ_Q_CFG_DEPTH_LOG2.of q.cfg
def QueueSt.depth (q : QueueSt) : Nat := 2 ^ q.log
def QueueSt.region (q : QueueSt) : Nat := F.STQ_Q_BIND_REGION.of q.bind
def QueueSt.page (q : QueueSt) : Nat := F.STQ_Q_BIND_PAGE.of q.bind
def QueueSt.moon (q : QueueSt) : Nat := F.STQ_Q_DEST_MOON.of q.dest
def QueueSt.far (q : QueueSt) : Nat := F.STQ_Q_DEST_QUEUE.of q.dest
def QueueSt.storage (q : QueueSt) : Nat := F.STQ_Q_BASE_first.of q.base

def kindRx : Nat := 1
def kindTx : Nat := 2
def kindLocal : Nat := 3

/-- TYPE.KIND and TYPE.POS of an item (R270). -/
def itemKind (i : HostLine) : Nat := i.toNat % 64
def itemPos (i : HostLine) : Nat := i.toNat / 64 % 4

/-- The idle item of a queue (R271). -/
def QueueSt.idleItem (q : QueueSt) : HostLine := BitVec.ofNat 512 (F.STQ_Q_CFG_IDLE_TAG.of q.cfg * 256)

def sat32 (n k : Nat) : Nat := min (n + k) (2 ^ 32 - 1)

/-- Shows the queues enabled and the item-store items held (R281). -/
def State.showStq (s : State) : State :=
  let on := s.stq.filter (fun p => p.2.on)
  (s.put F.STQ_STAT_QUEUES on.length).put F.STQ_ITEM_USE_item
    (on.foldl (fun n p => if p.2.large then n else n + p.2.items.length) 0)

/-- The queue that a path's STQ_SEL names (R281). -/
def State.stqOf (s : State) (p : Path) : Nat := (s.path p).stqSel

/-! ### Credits (R275) -/

/-- The value that grants without limit (R276). -/
def unlimited : Nat := 0x1FFFF

/-- A receive queue grants its source: the epoch advances, and the grant is D - COUNT, or without limit in N4 mode. -/
def State.grantQueue (s : State) (q : Nat) : State :=
  let c := s.queue q
  let epoch := (c.epoch + 1) % 256
  let value := if c.n4 then unlimited else c.depth - c.items.length
  (s.setQueue q { c with
    epoch := epoch
    credit := 0 }).sendMsg c.moon (.grant c.far q epoch value)

/-- Items that leave a receive queue in credit mode are credits pending return (R275). -/
def QueueSt.pend (q : QueueSt) (k : Nat) : QueueSt :=
  if q.kind = kindRx ∧ q.n4 = false then { q with credit := q.credit + k } else q

/-- Queue q holds `c` now; a receive queue's pending return that is no longer zero has been so since now, mark 10000 + q (R275). -/
def State.putQueue (s : State) (q : Nat) (c : QueueSt) : State :=
  let t := s.setQueue q c
  if c.kind = kindRx ∧ (s.queue q).credit = 0 ∧ c.credit ≠ 0 then t.mark (10000 + q) else t

/-- A pending return has reached BATCH, or has been non-zero for DELAY × 0.1 µs; 0 acts as 1 in both (R275, R281). -/
def State.returnDue (s : State) (q : Nat) : Bool :=
  decide (max 1 (s.get F.STQ_CRED_CFG_BATCH) ≤ (s.queue q).credit) || s.passed (10000 + q) (20 * max 1 (s.get F.STQ_CRED_CFG_DELAY))

/-- CREDIT_RETURN_SEND: a non-zero pending return is sent once it is due (R275), and stays pending while Orbit sends nothing to the
source. -/
def State.returnCredits (s : State) (q : Nat) : State :=
  let c := s.queue q
  if c.on && c.kind == kindRx && !c.n4 && c.credit != 0 && s.returnDue q && s.sendsTo c.moon then
    (s.setQueue q { c with credit := 0 }).sendMsg c.moon (.ret c.far q c.epoch c.credit)
  else s

/-! ### Items in and out (R273, R274, R276) -/

/-- IN_PKT after the removal of an item (R278). -/
def QueueSt.leave (q : QueueSt) (i : HostLine) : QueueSt := { q with inPkt := itemPos i == 1 || itemPos i == 2 }

/-- Removes the head item after a read or a send (R274, R278). -/
def QueueSt.pop (q : QueueSt) : QueueSt :=
  match q.items with
  | [] => q
  | i :: rest => QueueSt.leave (QueueSt.pend { q with
      items := rest
      deq := q.deq + 1
      headPart := false } 1) i

/-- Appends an item; a full N4 queue loses its oldest item that is not partly read (R276). -/
def QueueSt.push (q : QueueSt) (i : HostLine) : QueueSt :=
  let full := decide (q.items.length ≥ q.depth)
  let kept := if !full then q.items else if q.headPart then q.items.take 1 ++ q.items.drop 2 else q.items.drop 1
  { q with
    items := kept ++ [i]
    enq := q.enq + 1
    lost := if full then sat32 q.lost 1 else q.lost }

/-- The queue takes an item now: there is room, or it overwrites. -/
def QueueSt.takes (q : QueueSt) : Bool := q.n4 || decide (q.items.length < q.depth)

/-- An enqueue store of engine e is serialised: the item is appended and the store is complete (R273). -/
def State.enqueue (s : State) (q e tag : Nat) (i : HostLine) : State :=
  let t := (s.setQueue q ((s.queue q).push i)).showStq
  match t.opOf e tag with
  | some o => (t.meterOp o .bytesWr 64).setOp e { o with stage := .done true }
  | none => t

/-- An older store of the engine to the same page line has not been serialised (R243). -/
def State.olderStore (s : State) (e : Nat) (o : MemOp) : Bool :=
  (s.eng e).ops.any (fun p => p.isStore && p.dev && decide (p.tag < o.tag) && p.ea / 64 == o.ea / 64 && p.region == o.region &&
    (match p.stage with | .done _ => false | _ => true))

/-- An engine's 64 B store reaches the enqueue line of queue q (R243, R272, R273). -/
def State.stqEnqueue (s : State) (q e tag : Nat) (item : HostLine) : State :=
  match s.opOf e tag with
  | none => s
  | some o =>
    let s := s.wake lookupDomains
    let off := o.ea % 2 ^ 44
    let c := s.queue q
    if !(o.dev && o.isStore && o.stage == .sent && o.be == BitVec.allOnes 64 && o.data == item &&
        decide (off % 4096 / 64 = 0) && s.queueAt o.region off == some q && c.kind != kindRx && !s.olderStore e o &&
        !c.waiting.any (fun w => w.1 == e && w.2.1 == tag)) then s
    else if itemKind item = 0 then
      ((s.sat F.STQ_ERR_BAD_TYPE 1).meterOp o .wrFail 1).setOp e { o with stage := .done false }
    else if c.takes && (c.n4 || c.waiting.isEmpty) then s.enqueue q e tag item
    else s.setQueue q { c with waiting := c.waiting ++ [(e, tag, item)] }

/-- ENQUEUE_UNBLOCK: the oldest waiting enqueue store is serialised once there is room (R273). -/
def State.enqueueUnblock (s : State) (q : Nat) : State :=
  let c := s.queue q
  match c.waiting with
  | (e, tag, i) :: rest =>
    if c.on && c.takes then (s.setQueue q { c with waiting := rest }).enqueue q e tag i else s
  | [] => s

/-- A read of the dequeue line (R271, R274, R278): head bytes, and the item leaves when byte 63 is read; an empty, dropping
or transmit queue answers the idle item. -/
def State.dequeue (s : State) (q off width : Nat) : HostLine × State :=
  let c := s.queue q
  let idle := (c.idleItem, s.setQueue q { c with idle := sat32 c.idle 1 })
  if c.dropping || c.kind == kindTx then idle
  else match c.items with
    | [] => idle
    | i :: _ =>
      if off + width = 64 then (i, (s.putQueue q c.pop).showStq)
      else (i, s.setQueue q { c with headPart := true })

/-- An engine's load reaches the dequeue line of queue q: it is performed there (R272, R274). -/
def State.stqDequeue (s : State) (q e off width : Nat) : State :=
  let mine := fun (o : MemOp) => o.dev && o.stage == .sent && decide (o.ea % 4096 / 64 = 1) && o.ea % 64 == off &&
    s.queueAt o.region (o.ea % 2 ^ 44) == some q && o.width == some width
  match (s.eng e).ops.find? mine with
  | none => s
  | some o =>
    let (h, t) := s.dequeue q off width
    (t.setOp e { o with stage := .back (.data h false) }).settle e

/-- ITEM_SEND: a transmit queue with a credit sends its head item when the link that PORT names can take it (R275, R281). -/
def State.itemSend (s : State) (q : Nat) : State :=
  let c := s.queue q
  match c.items, s.destPort c.dest c.moon with
  | i :: _, some link =>
    let msg : OrbMsg := .items c.far q c.epoch [i]
    if c.st = 1 ∧ c.kind = kindTx ∧ c.dropping = false ∧ c.credit ≠ 0 ∧ s.linkTakes c.moon msg = true then
      let c' := { c.pop with credit := if c.credit = unlimited then unlimited else c.credit - 1 }
      let t := (s.setQueue q c').showStq.wake lookupDomains
      (t.add64 (if link = 0 then R.STQ_S0_TX_LO else R.STQ_S1_TX_LO) 1).sendMsg c.moon msg
    else s
  | _, _ => s

/-- An item arrives on port `link` for queue q from queue `src` of a moon (R275, R276, R280). -/
def State.itemArrive (s : State) (link q moon src epoch : Nat) (i : HostLine) : State :=
  let t := (s.wake lookupDomains).add64 (if link = 0 then R.STQ_S0_RX_LO else R.STQ_S1_RX_LO) 1
  let c := t.queue q
  if !(c.on && c.kind == kindRx && c.moon == moon && c.far == src) then t.satReg R.STQ_NOQ 1
  else if epoch ≠ c.epoch then t.sat F.STQ_ERR_OLD_EPOCH 1
  else if itemKind i = 0 then t.sat F.STQ_ERR_BAD_TYPE 1
  else if !c.takes then t.sat F.STQ_ERR_OVERRUN 1
  else (t.setQueue q (c.push i)).showStq

/-- A grant replaces a transmit queue's credits and epoch (R275). -/
def State.takeGrant (s : State) (q moon src epoch value : Nat) : State :=
  let c := s.queue q
  if c.on && c.kind == kindTx && c.moon == moon && c.far == src then
    s.setQueue q { c with
      credit := value
      epoch := epoch
      st := 1 }
  else s

/-- A return adds to a transmit queue's credits under the epoch in force (R275). -/
def State.takeReturn (s : State) (q moon src epoch value : Nat) : State :=
  let c := s.queue q
  if c.on && c.kind == kindTx && c.moon == moon && c.far == src && c.epoch == epoch && c.credit != unlimited then
    s.setQueue q { c with credit := min (c.credit + value) (unlimited - 1) }
  else s

/-! ### Discarding (R277, R278) -/

/-- Items discarded are counted, and are credits pending return on a receive queue (R277). -/
def QueueSt.drop (q : QueueSt) (k : Nat) : QueueSt := QueueSt.pend { q with dropped := sat32 q.dropped k } k

/-- A command that the queue's mode does not have: code 0x9, also of a disabled queue (R279). -/
def State.wrongMode (s : State) (q : Nat) (line : Bool) : State :=
  let t := s.setQueue q { s.queue q with code := 9 }
  if line then t.sat F.STQ_ERR_BAD_STORE 1 else t

/-- FLUSH of a queue: small queues are emptied, large ones refuse with code 0x9 (R277, R279). -/
def State.flushQueue (s : State) (q : Nat) (line : Bool) : State :=
  let c := s.queue q
  if c.large then s.wrongMode q line
  else if !c.on then s.setQueue q { c with code := 0 }
  else (s.putQueue q (QueueSt.drop { c with
    items := []
    headPart := false
    code := 0 } c.items.length)).showStq

/-- The loop of DROP_REM over the items present (R278); the flag says that a new packet began without a last item. -/
def dropLoop : Nat → QueueSt → QueueSt × Bool
  | 0, q => (q, false)
  | fuel + 1, q =>
    match q.items with
    | [] => (q, false)
    | h :: rest =>
      let stop := fun (q : QueueSt) => { q with
        dropping := false
        inPkt := false
        headPart := false }
      if itemPos h = 0 ∨ itemPos h = 1 then (stop q, true)
      else
        let q' := QueueSt.drop { q with items := rest } 1
        if itemPos h = 3 then (stop q', false) else dropLoop fuel q'

/-- Runs DROP_REM on what the queue holds. -/
def State.runDrop (s : State) (q : Nat) : State :=
  let c := s.queue q
  let (c', bad) := dropLoop (c.items.length + 1) c
  let t := (s.putQueue q c').showStq
  if bad then t.sat F.STQ_ERR_BAD_PKT 1 else t

/-- DROP_REM: large queues only, and only within a packet (R278, R279). -/
def State.dropRem (s : State) (q : Nat) (line : Bool) : State :=
  let c := s.queue q
  if !c.large then s.wrongMode q line
  else if !c.on || !c.inPkt then s.setQueue q { c with code := 0 }
  else (s.setQueue q { c with
    code := 0
    dropping := true }).runDrop q

def State.dropResume (s : State) (q : Nat) : State := if (s.queue q).dropping && (s.queue q).on then s.runDrop q else s

/-- A control-line store that asks for bit b of byte 0 (R272): the oldest issued one to queue q. -/
def State.controlOp (s : State) (q b : Nat) : Option (Nat × MemOp) :=
  (List.range 32).findSome? (fun e => ((s.eng e).ops.find? (fun o => o.dev && o.isStore && o.stage == .sent && o.be.getLsbD 0 &&
    o.data.getLsbD b && decide (o.ea % 4096 / 64 = 3) && s.queueAt o.region (o.ea % 2 ^ 44) == some q)).map (fun o => (e, o)))

/-- A control-line store has had bit b acted on; with no bit left it is complete. -/
def State.controlDone (s : State) (e : Nat) (o : MemOp) (b : Nat) : State :=
  let data := o.data &&& ~~~ (1#512 <<< b)
  if data.toNat % 4 ≠ 0 then s.setOp e { o with data := data }
  else (s.meterOp o .bytesWr 64).setOp e { o with
      data := data
      stage := .done true }

/-- A FLUSH or DROP_REM (bit 0 or 1) through a page's control line. -/
def State.viaLine (s : State) (q b : Nat) (act : State → State) : State :=
  match s.controlOp q b with
  | some (e, o) => (act s).controlDone e o b
  | none => s

/-- STQ_Q_CMD reaches queue registers on this path. -/
def State.stqCmd (s : State) (p : Path) (act : State → Nat → State) : State :=
  if s.mayWrite p R.STQ_Q_CMD then act s (s.stqOf p) else s

/-! ### Enabling and disabling (R279) -/

/-- First unit and units of a queue's storage: items of the item store, or 64 KiB of the stream area. -/
def QueueSt.units (q : QueueSt) : Nat := if q.large then q.depth / 1024 else q.depth

/-- CODE of ENABLE: the first check that fails (R279). -/
def State.stqCheck (s : State) (n : Nat) : Nat :=
  let q := s.queue n
  let others := s.stq.filter (fun p => p.1 != n && p.2.on)
  let depthOk := if q.large then decide (10 ≤ q.log) && decide (q.log ≤ 16) else decide (3 ≤ q.log) && decide (q.log ≤ 9)
  let d := s.desc q.region
  let limit := if q.large then s.get F.STQ_STAT_AREA * 16 else 65536
  if q.kind = 0 ∨ depthOk = false ∨ F.STQ_Q_DEST_PORT.of q.dest = 3 then 1
  else if q.n4 && q.kind == kindTx then 2
  else if !(dValid d && dType d == 1 && dRole d != 6) then 3
  else if others.any (fun p => p.2.region == q.region && p.2.page == q.page) then 4
  else if q.storage % q.units ≠ 0 ∨ q.storage + q.units > limit then 5
  else if others.any (fun p => p.2.large == q.large && overlap q.storage q.units p.2.storage p.2.units) then 6
  else if q.st ≠ 0 then 7
  else if !([svNormal, svDegraded, svReadOnly].contains s.service) || s.trust == trVendor then 8
  else 0

/-- ENABLE (R275, R279): a receive queue grants its source, a transmit queue waits for its grant. -/
def State.stqEnable (s : State) (n : Nat) : State :=
  let code := s.stqCheck n
  let q := s.queue n
  if code ≠ 0 then s.setQueue n { q with code := code }
  else
    let t := (s.setQueue n { q with
      code := 0
      st := if q.kind = kindTx then 2 else 1
      items := []
      waiting := []
      credit := 0
      headPart := false
      inPkt := false
      dropping := false }).showStq
    if q.kind = kindRx then t.grantQueue n else t

/-- The enqueue stores that wait at a queue complete without effect (R279). -/
def State.refuseWaiting (s : State) (q : QueueSt) : State :=
  q.waiting.foldl (fun s w => match s.opOf w.1 w.2.1 with
    | some o => (s.meterOp o .wrFail 1).setOp w.1 { o with stage := .done false }
    | none => s) s

/-- DISABLE (R279): items are discarded, and waiting stores complete without effect. -/
def State.stqDisable (s : State) (n : Nat) : State :=
  let q := s.queue n
  if !q.on then s.setQueue n { q with code := 0 }
  else
    (State.setQueue (s.refuseWaiting q) n { q with
      code := 0
      st := 0
      dropped := sat32 q.dropped q.items.length
      items := []
      waiting := []
      credit := 0
      headPart := false
      inPkt := false
      dropping := false }).showStq

/-- Step 5 of R91, or Vendor-debug: every queue stops and holds nothing (R280). -/
def State.stopQueues (s : State) : State :=
  let t := s.stq.foldl (fun s p => s.refuseWaiting p.2) s
  State.showStq { t with stq := t.stq.map (fun p => (p.1, if p.2.st = 0 then p.2 else { p.2 with
    st := 3
    items := []
    waiting := []
    credit := 0
    headPart := false
    inPkt := false
    dropping := false })) }

/-- Warm reset, cold reset, POR and leaving Dark (R280). -/
def State.resetQueues (s : State) : State :=
  let t := s.stq.foldl (fun s p => s.refuseWaiting p.2) s
  State.showStq { t with stq := [] }

/-! ### Registers (R281) -/

/-- A write of STQ_Q_CFG, _BIND, _DEST or _BASE of the path's queue, while it is disabled. DESIGN CHOICE: a queue that has been stopped,
STATE 0b011, takes none, fails check 7 of ENABLE and stays stopped at a DISABLE, until a reset (log 83). -/
def State.writeStqQ (s : State) (p : Path) (off : Nat) (v : Word) : State :=
  let n := s.stqOf p
  let q := s.queue n
  if !s.mayWrite p off || q.st != 0 then s
  else if off = R.STQ_Q_CFG then s.setQueue n { q with cfg := v &&& 0x00FF01FF#32 }
  else if off = R.STQ_Q_BIND then s.setQueue n { q with bind := v &&& 0x3FFFFFFF#32 }
  else if off = R.STQ_Q_DEST then s.setQueue n { q with dest := v &&& 0x007FFFFF#32 }
  else if off = R.STQ_Q_BASE then s.setQueue n { q with base := v &&& 0x0001FFFF#32 }
  else s

/-- A write of STQ_Q_CMD: each bit in turn. DESIGN CHOICE: several bits act in the order ENABLE, DISABLE, FLUSH, DROP_REM, and CODE is
the last one's (log 83). -/
def State.writeStqCmd (s : State) (p : Path) (v : Word) : State :=
  s.stqCmd p (fun s n =>
    let s := if F.STQ_Q_CMD_ENABLE.on v then s.stqEnable n else s
    let s := if F.STQ_Q_CMD_DISABLE.on v then s.stqDisable n else s
    let s := if F.STQ_Q_CMD_FLUSH.on v then s.flushQueue n false else s
    if F.STQ_Q_CMD_DROP_REM.on v then s.dropRem n false else s)

/-- A write of STQ_SEL or STQ_WINBASE, kept for each path. -/
def State.writeStqSel (s : State) (p : Path) (off : Nat) (v : Word) : State :=
  if !s.mayWrite p off then s
  else if off = R.STQ_SEL then s.setPath p { s.path p with stqSel := F.STQ_SEL_queue.of v }
  else if off = R.STQ_WINBASE then s.setPath p { s.path p with stqWin := v &&& 0xFC0#32 }
  else s

/-- A write of STQ_CTL: CNT_CLR clears the counters of 0x018 to 0x03C. -/
def State.writeStqCtl (s : State) (p : Path) (v : Word) : State :=
  if s.mayWrite p R.STQ_CTL && F.STQ_CTL_CNT_CLR.on v then
    (List.range 10).foldl (fun s i => s.wr (R.STQ_NOQ + 4 * i) 0) s
  else s

/-- What a path reads at a per-queue or window register (R281). -/
def State.readStq (s : State) (p : Path) (off : Nat) : Option Word :=
  let q := s.queue (s.stqOf p)
  let b := fun (x : Bool) (i : Nat) => if x then 2 ^ i else 0
  if off = R.STQ_SEL then some (BitVec.ofNat 32 (s.path p).stqSel)
  else if off = R.STQ_WINBASE then some (s.path p).stqWin
  else if off = R.STQ_Q_CFG then some q.cfg
  else if off = R.STQ_Q_BIND then some q.bind
  else if off = R.STQ_Q_DEST then some q.dest
  else if off = R.STQ_Q_BASE then some q.base
  else if off = R.STQ_Q_STAT then
    some (BitVec.ofNat 32 (q.st + 8 * q.code + b q.headPart 7 + b q.inPkt 8 + b q.dropping 9 + 1024 * q.epoch))
  else if off = R.STQ_Q_COUNT then some (BitVec.ofNat 32 q.items.length)
  else if off = R.STQ_Q_CREDIT then some (BitVec.ofNat 32 q.credit)
  else if off = R.STQ_Q_LOST then some (BitVec.ofNat 32 q.lost)
  else if off = R.STQ_Q_DROPPED then some (BitVec.ofNat 32 q.dropped)
  else if off = R.STQ_Q_ENQ_LO then some (q.enq.extractLsb' 0 32)
  else if off = R.STQ_Q_ENQ_HI then some (q.enq.extractLsb' 32 32)
  else if off = R.STQ_Q_DEQ_LO then some (q.deq.extractLsb' 0 32)
  else if off = R.STQ_Q_DEQ_HI then some (q.deq.extractLsb' 32 32)
  else if off = R.STQ_Q_IDLE then some (BitVec.ofNat 32 q.idle)
  else if R.STQ_CNTWIN 0 ≤ off ∧ off < R.STQ_CNTWIN 64 then
    some (BitVec.ofNat 32 (s.queue ((s.path p).stqWin.toNat + (off - R.STQ_CNTWIN 0) / 4)).items.length)
  else none

/-! ### The commands -/

def execStqEnable (p : Path) (s : State) : Host.Outcome State Fault Refusal := .next (s.touch.stqCmd p (fun s n => s.stqEnable n))

def execStqDisable (p : Path) (s : State) : Host.Outcome State Fault Refusal := .next (s.touch.stqCmd p (fun s n => s.stqDisable n))

def execFlush (via : QVia) (s : State) : Host.Outcome State Fault Refusal :=
  .next (match via with
    | .reg p => s.touch.stqCmd p (fun s n => s.flushQueue n false)
    | .line q => s.viaLine q 0 (fun s => s.flushQueue q true))

def execDropRem (via : QVia) (s : State) : Host.Outcome State Fault Refusal :=
  .next (match via with
    | .reg p => s.touch.stqCmd p (fun s n => s.dropRem n false)
    | .line q => s.viaLine q 1 (fun s => s.dropRem q true))

def execDropRemResume (q : Fin 4096) (s : State) : Host.Outcome State Fault Refusal := .next (s.dropResume q)

def execStqEnqueue (q : Fin 4096) (e : Fin 32) (tag : Nat) (item : HostLine) (s : State) :
    Host.Outcome State Fault Refusal := .next (s.stqEnqueue q e tag item)

def execEnqueueUnblock (q : Fin 4096) (s : State) : Host.Outcome State Fault Refusal := .next (s.enqueueUnblock q)

def execStqDequeue (q : Fin 4096) (e : Fin 32) (off : Fin 64) (width : Nat) (s : State) :
    Host.Outcome State Fault Refusal := .next (s.stqDequeue q e off width)

def execItemSend (q : Fin 4096) (s : State) : Host.Outcome State Fault Refusal := .next (s.itemSend q)

def execCreditReturnSend (q : Fin 4096) (s : State) : Host.Outcome State Fault Refusal := .next (s.returnCredits q)

def execStqCntClr (p : Path) (v : Word) (s : State) : Host.Outcome State Fault Refusal := .next (s.touch.writeStqCtl p v)

end Sys2Proof.Machine
end

