-- ==== Sys2Proof/Machine/Orbit.lean ====
section
/-! DEFINITION. Orbit above the transport: the constellation and its planet (R292, R293), the directory (R294, R295),
reflection (R298 to R300), migration and resync (R301 to R304), remote access (R305), stream frames, links, and the
unit commands and audit (R309, R310). -/

namespace Sys2Proof.Machine

/-! ### Frames -/

/-- The source of a receive queue is reached again: the queue grants anew (R275). -/
def State.grantAll (s : State) (p : QueueSt → Bool) : State :=
  ((s.stq.filter (fun q => q.2.on && q.2.kind == kindRx && p q.2)).map (·.1)).foldl (fun s n => s.grantQueue n) s

/-- Transmit queues to a lost destination wait for a new grant (R280). -/
def State.stallQueues (s : State) (p : QueueSt → Bool) : State :=
  { s with stq := s.stq.map (fun q => (q.1, if q.2.st = 1 ∧ q.2.kind = kindTx ∧ p q.2 = true then { q.2 with
      st := 2
      credit := 0 } else q.2)) }

/-- A frame that the transport takes; a peer that becomes reachable with it has its queues granted (R275, R289, R292). -/
def State.takeHdr (s : State) (h : OrbHdr) (c : Nat) (msg : OrbMsg) : RxResult :=
  let m := h.src.toNat
  let r := s.receive h c msg
  ⟨if !(s.peer m).reachable && (r.st.peer m).reachable then r.st.grantAll (fun q => q.moon == m) else r.st, r.taken⟩

/-- A sequenced frame: what it does, once the transport has taken it, and its credits go back (R289, R290). -/
def State.onFrame (s : State) (h : OrbHdr) (msg : OrbMsg) (act : State → State) : State :=
  let r := (s.wake [52]).takeHdr h msg.chan msg
  if r.taken then (act r.st).freeCredits h.src.toNat msg.chan msg else r.st

/-- The N16 pauses the peer's port by a PFC frame, or lets it go on (R282). -/
def State.pausePeer (s : State) (p : Nat) (pause : Bool) : State :=
  if s.flag (F.ORB_S_STAT_PFC_TX p) = pause then s
  else
    let t := (s.put (F.ORB_S_STAT_PFC_TX p) (if pause then 1 else 0)).say (.pfcSent p pause)
    if pause then t.satReg (R.ORB_S_PFC_TX p) 1 else t

/-- A frame that needs room in the vault: without it the frame waits where it is, and the N16 pauses the port until there is room. The
rules give no trigger for the N16's own use of PFC; this one is the model's choice (R282, log 84). -/
def State.onFrameRoom (s : State) (h : OrbHdr) (room : Bool) (msg : OrbMsg) (act : State → State) : State :=
  if room then (s.pausePeer h.port.val false).onFrame h msg act
  else if s.orbitRuns && s.linkOk h.port.val then s.pausePeer h.port.val true
  else s

/-- Hands one message to every moon of a list. -/
def State.sendAll (s : State) (ms : List Nat) (msg : OrbMsg) : State := ms.foldl (fun s m => s.sendMsg m msg) s

/-! ### The planet (R292, R293) -/

def State.term (s : State) : Nat := (s.rd R.ORB_TERM).toNat
def State.dirgen (s : State) : Nat := s.rd64 R.ORB_DIRGEN_LO

def State.planetMoon (s : State) : Option Nat :=
  if s.flag F.ORB_PLANET_KNOWN then some (s.get F.ORB_PLANET_PLANET) else none

def State.standbyMoon (s : State) : Option Nat :=
  if s.flag F.ORB_PLANET_NAMED then some (s.get F.ORB_PLANET_STANDBY) else none

def State.setPlanet (s : State) (m : Option Nat) : State :=
  match m with
  | some m => (s.put F.ORB_PLANET_PLANET m).put F.ORB_PLANET_KNOWN 1
  | none => (s.put F.ORB_PLANET_PLANET 0).put F.ORB_PLANET_KNOWN 0

def State.setStandby (s : State) (m : Option Nat) : State :=
  match m with
  | some m => (s.put F.ORB_PLANET_STANDBY m).put F.ORB_PLANET_NAMED 1
  | none => (s.put F.ORB_PLANET_STANDBY 0).put F.ORB_PLANET_NAMED 0

/-- Hands a message to a moon, but for one that waits for its credits already. -/
def State.sendOnce (s : State) (m : Nat) (msg : OrbMsg) : State :=
  if ((s.peer m).chan msg.chan).waiting.contains msg then s else s.sendMsg m msg

/-- The planet's announcement (R293). -/
def State.announce (s : State) : State :=
  let msg := OrbMsg.planet s.dirgen s.standbyMoon
  s.memberMoons.foldl (fun s m => s.sendOnce m msg) s

def State.dirList (s : State) : List DirEntry := s.orb.dir.map (·.2)

/-- Cuts a list of directory items into messages of at most 255 (R286). -/
def cut255 {α : Type} : Nat → List α → List (List α)
  | 0, _ => []
  | fuel + 1, l => if l.isEmpty then [] else l.take 255 :: cut255 fuel (l.drop 255)

def pieces {α : Type} (l : List α) : List (List α) := cut255 l.length l

/-- The planet names as standby the reachable eligible moon of the lowest number, once it holds the directory (R293). -/
def State.nameStandby (s : State) : State :=
  let t : State := State.setStandby { s with orb.standbyDue := none } none
  match t.reachableMoons.find? (fun m => (t.peer m).planetEn) with
  | none => t
  | some m =>
    if t.orb.dir.isEmpty then (t.setStandby (some m)).announce
    else
      let u : State := { t with orb.standbyDue := some (m, t.dirList.map (·.grn)) }
      (pieces u.dirList).foldl (fun s es => s.sendMsg m (.dirCopy s.dirgen es)) u

/-- A candidate has a majority: it is the planet (R293). -/
def State.becomePlanet (s : State) : State :=
  let t := ((s.put F.ORB_STAT_ROLE rolePlanet).satReg R.ORB_ELECT_CNT 1).mark 76
  let t := if s.orb.fromStandby then t.satReg R.ORB_FAILOVER_CNT 1 else t
  let t : State := { t with orb.fromStandby := false }
  ((t.setPlanet (some t.ownMoon)).setStandby none).announce.nameStandby

/-- The vote of a candidate in its own term, with those it has, is a majority. -/
def State.countVotes (s : State) : State := if s.majority (s.orb.votes.length + 1) then s.becomePlanet else s

/-- This N16 stands: its term advances and every member is asked (R293). -/
def State.stand (s : State) (fromStandby : Bool) : State :=
  let t := ((s.wr R.ORB_TERM (s.rd R.ORB_TERM + 1)).put F.ORB_STAT_ROLE roleCandidate).mark 72
  let t : State := { t with
    orb.votes := []
    orb.votedTerm := t.term
    orb.fromStandby := fromStandby }
  (((t.setPlanet none).setStandby none).sendAll t.memberMoons (.candidate t.dirgen)).countVotes

def State.onHello (s : State) (h : OrbHdr) (planetEn : Bool) : State :=
  let m := h.src.toNat
  let t := s.setPeer m { s.peer m with planetEn := planetEn }
  if t.role = rolePlanet ∧ t.standbyMoon.isNone = true ∧ t.orb.standbyDue.isNone = true then t.nameStandby else t

/-- One vote per term, to the first candidate whose DIRGEN is at least this N16's own (R293). -/
def State.onCandidate (s : State) (h : OrbHdr) (dirgen : Nat) : State :=
  let m := h.src.toNat
  let term := h.term.toNat
  if term = s.term ∧ s.orb.votedTerm < term ∧ dirgen ≥ s.dirgen then
    State.sendMsg { s with orb.votedTerm := term } m (.vote term true)
  else s.sendMsg m (.vote term false)

def State.onVote (s : State) (h : OrbHdr) (term : Nat) (granted : Bool) : State :=
  if s.role = roleCandidate ∧ term = s.term ∧ granted = true then
    State.countVotes { s with orb.votes := addOnce s.orb.votes h.src.toNat }
  else s

/-- A PLANET frame of a term at least its own makes this N16 a moon, or the standby that it names (R293). -/
def State.onPlanet (s : State) (h : OrbHdr) (dirgen : Nat) (standby : Option Nat) : State :=
  if h.term.toNat < s.term ∨ s.role = rolePlanet then s
  else
    let mine := standby == some s.ownMoon
    let t := ((s.mark 71).setPlanet (some h.src.toNat)).setStandby standby
    let t := t.put F.ORB_STAT_ROLE (if mine then roleStandby else roleMoon)
    let t : State := if dirgen ≠ t.dirgen ∧ mine = false then { t with orb.dir := [] } else t
    (t.wr64 R.ORB_DIRGEN_LO dirgen).put F.ORB_DIR_STAT_entries t.orb.dir.length

/-! ### The directory (R294, R295) -/

def State.showDir (s : State) : State := s.put F.ORB_DIR_STAT_entries (min s.orb.dir.length (2 ^ 21 - 1))

/-- Puts an entry into the directory or cache, which hold up to 1,048,576; one that is not valid is removed (R294). -/
def State.dirPut (s : State) (e : DirEntry) : State :=
  if e.valid ∧ (mapGet? s.orb.dir e.grn.toNat).isNone = true ∧ s.orb.dir.length ≥ 1048576 then s
  else State.showDir { s with orb.dir := if e.valid then mapPut s.orb.dir e.grn.toNat e else mapDel s.orb.dir e.grn.toNat }

/-- A change of the directory is complete: DIRGEN advances, and every reachable member is told (R295). -/
def State.dirComplete (s : State) (e : DirEntry) : State :=
  let gen := s.dirgen + 1
  let t := (s.wr64 R.ORB_DIRGEN_LO gen).dirPut { e with gen := BitVec.ofNat 64 gen }
  t.sendAll t.reachableMoons (.dirNote gen [e.grn])

/-- A change made while a moon that is to be standby takes its copy goes to that moon too, which is named once it has acknowledged it
(R293, R294). -/
def State.dirLate (s : State) (e : DirEntry) : State :=
  match s.orb.standbyDue with
  | some (m, left) =>
    let due := if left.contains e.grn then left else left ++ [e.grn]
    State.sendMsg { s with orb.standbyDue := some (m, due) } m (.dirCopy s.dirgen [{ e with gen := BitVec.ofNat 64 s.dirgen }])
  | none => s

/-- The planet changes an entry: at once with no standby, else when the standby has acknowledged it (R295). -/
def State.dirApply (s : State) (e : DirEntry) : State :=
  match s.standbyMoon with
  | none => (s.dirComplete e).dirLate e
  | some m =>
    let gen := s.dirgen + s.orb.dirWait.length + 1
    State.sendMsg { s with orb.dirWait := s.orb.dirWait ++ [⟨e⟩] } m (.dirCopy gen [{ e with gen := BitVec.ofNat 64 gen }])

/-- Changes that wait for a standby that is gone complete (R295). -/
def State.dirFlush (s : State) : State :=
  s.orb.dirWait.foldl (fun s w => s.dirComplete w.entry) { s with orb.dirWait := [] }

def noEntry (grn : Word) : DirEntry := ⟨grn, 0, 0, 0, 0, 0, false, false, 0, 0⟩

def State.onDirNote (s : State) (dirgen : Nat) (grns : List Word) : State :=
  let t := s.satReg R.ORB_DIR_NOTE 1
  let t : State := if t.role = roleStandby then t
    else { t with orb.dir := mapFilter (fun k _ => !grns.any (fun g => g.toNat == k)) t.orb.dir }
  (t.wr64 R.ORB_DIRGEN_LO dirgen).showDir

def State.onDirQuery (s : State) (m : Nat) (grns : List Word) : State :=
  if s.role = rolePlanet then
    s.sendMsg m (.dirEntries (grns.map (fun g => (mapGet? s.orb.dir g.toNat).getD (noEntry g))))
  else s

def State.onDirEntries (s : State) (es : List DirEntry) : State :=
  es.foldl (fun s e => s.dirPut e) (s.add64 R.ORB_DIR_QUERY_LO es.length)

def State.onDirChange (s : State) (es : List DirEntry) : State :=
  if s.role = rolePlanet then es.foldl (fun s e => s.dirApply e) s else s

def State.onDirCopy (s : State) (m dirgen : Nat) (es : List DirEntry) : State :=
  ((es.foldl (fun s e => s.dirPut e) s).wr64 R.ORB_DIRGEN_LO dirgen).sendMsg m (.dirAck (es.map (·.grn)))

/-- The standby's acknowledgement: waiting changes complete in order; a moon that holds the whole directory is named
standby (R293, R295). -/
def State.onDirAck (s : State) (m : Nat) (grns : List Word) : State :=
  if s.role ≠ rolePlanet then s
  else
    let t := match s.orb.standbyDue with
      | some (n, left) =>
        if n ≠ m then s
        else
          let left := left.filter (fun g => !grns.contains g)
          if left.isEmpty then (State.setStandby { s with orb.standbyDue := none } (some m)).announce
          else { s with orb.standbyDue := some (n, left) }
      | none => s
    if t.standbyMoon = some m then
      let done := t.orb.dirWait.filter (fun w => grns.contains w.entry.grn)
      let u : State := { t with orb.dirWait := t.orb.dirWait.filter (fun w => !grns.contains w.entry.grn) }
      done.foldl (fun s w => s.dirComplete w.entry) u
    else t

/-! ### Reflection (R298 to R300) -/

/-- A reflected write that waits for its RACK completes. -/
def State.reflDone (s : State) (w : ReflWait) : State :=
  match s.access w.owner with
  | some a => s.finishWrite a true
  | none => s

/-- A migration engine that copies region r stops at BOUND (R286, R304). -/
def State.migStop (s : State) (r st code : Nat) : State :=
  [0, 1].foldl (fun s m =>
    if (s.get (F.ORB_MIG_STAT_STATE m) == 1 || s.get (F.ORB_MIG_STAT_STATE m) == 2) && s.get (F.ORB_MIG_CTL_REGION m) == r then
      let t := (s.put (F.ORB_MIG_STAT_STATE m) st).put (F.ORB_MIG_STAT_CODE m) code
      { t with orb.hold := mapDel t.orb.hold m }
    else s) s

/-- Reflection of region r, a primary or a migration's source, breaks (R300, R304): BROKEN, the units of waiting writes marked, those
writes completed, an event. An engine that copies the region stops (log 79). -/
def State.breakRefl (s : State) (r : Nat) : State :=
  let d := s.desc r
  let mine := s.orb.refl.filter (fun w => w.region == r)
  let t : State := { s with orb.refl := s.orb.refl.filter (fun w => w.region != r) }
  if dRole d = 1 ∨ dRole d = 4 then
    let t := t.setDesc r (setDw (t.desc r) 7 (fieldPut (dw (t.desc r) 7) 28 1 1))
    let t := mine.foldl (fun s w => (s.markDirty (s.desc r) r w.line).reflDone w) t
    let t := if dBroken d then t else (t.satReg R.ORB_REFL_BREAKS 1).post 0x08 0x04 (dPeer d) r
    (t.migStop r 4 0).showRefl
  else mine.foldl (fun s w => s.reflDone w) t

def State.regionAddr (s : State) (r : Nat) : Nat := dBase (s.desc r) * 65536

/-- A media line from Orbit becomes a line of region r under the region's own key (R299, R302); it is whole, and replaces what an older
record of the line holds. None when the key slot is empty or the set is full. -/
def State.placeFrom (s : State) (r line : Nat) (l : MLine) : Option State :=
  let m := s.lostMaterial r line
  match s.materialKeys m with
  | none => none
  | some k =>
    let img : LineImg := { data := l.data, cc := l.cc, poison := l.poison, keyTag := m.key, kgen := k.kgen,
                           integ := s.integ, mac := 0 }
    (s.place line (formMac k line img)).map (fun t => t.dmrRetire line false)

/-- The set of a line can take it. -/
def State.roomFor (s : State) (line : Nat) : Bool := (s.vaultRoom line).isSome

/-- Region r takes RWRITEs and MDATA from moon m at media line `off`: a secondary or a migration's target that names it (R299, R302 to
R304; log 79). -/
def State.takesLines (s : State) (m r off : Nat) : Bool :=
  let d := s.desc r
  dValid d && (dRole d == 2 || dRole d == 5) && dPeer d == m && decide (off < dSize d * 65536)

/-- An RWRITE that is not refused has room (R133, R299). -/
def State.rwriteRoom (s : State) (m r off : Nat) : Bool := !s.takesLines m r off || s.roomFor (s.regionAddr r + off)

/-- An RWRITE at the partner (R299). -/
def State.onRwrite (s : State) (m : Nat) (rseq : Word) (r off : Nat) (l : MLine) : State :=
  let d := s.desc r
  let refuse := s.sendMsg m (.rack rseq (dPeerRegion d) 1)
  if !s.takesLines m r off then refuse
  else
    let line := s.regionAddr r + off
    if carryChecks l.data ≠ l.cc then s.ccHalt 2 r line
    else match s.placeFrom r line l with
      | some t => State.sendMsg { t with orb.applied := mapPut t.orb.applied r (rseq + 1) } m (.rack rseq (dPeerRegion d) 0)
      | none => refuse

/-- A RACK at the primary, `ns` after its RWRITE (R298, R300, R311). -/
def State.onRack (s : State) (m : Nat) (rseq : Word) (r code ns : Nat) : State :=
  match s.orb.refl.find? (fun w => w.peer == m && w.region == r && w.rseq == rseq) with
  | none => s
  | some w =>
    if code ≠ 0 then s.breakRefl r
    else
      let t : State := { s with orb.refl := s.orb.refl.filter (· != w) }
      let t := t.add64 R.ORB_RWRITE_LO 1
      let ns := max ns (min (5 * (t.now - w.sent)) (2 ^ 24 - 1))
      (t.put F.ORB_RACK_NS_MAX_longest (max ns (t.get F.ORB_RACK_NS_MAX_longest))).reflDone w

/-- A RACK has not come ORB_REFL_CFG.TMO_US after its RWRITE (R300). -/
def State.reflTimeout (s : State) (r : Nat) (rseq : Word) : State :=
  if s.orb.refl.any (fun w => w.region == r && w.rseq == rseq &&
      decide (w.sent + 200 * max 1 (s.get F.ORB_REFL_CFG_TMO_US) ≤ s.now)) then s.breakRefl r else s

/-! ### Migration and resync (R301 to R304) -/

/-- Sets BOUND and ENGINE in dword 7, and shows BOUND (R296). -/
def State.setBound (s : State) (r m t : Nat) : State :=
  let d := s.desc r
  let w := fieldPut (fieldPut (dw d 7) 0 28 t) 29 1 m
  (s.setDesc r (setDw d 7 w)).put (F.ORB_MIG_BOUND_BOUND m) t

/-- ORB_MIGm_STAT.CODE of START, 0 when it is accepted (R311). -/
def State.migCheck (s : State) (m r mode : Nat) : Nat :=
  let d := s.desc r
  let active := fun k => s.get (F.ORB_MIG_STAT_STATE k) == 1 || s.get (F.ORB_MIG_STAT_STATE k) == 2
  if active m || (active (1 - m) && s.get (F.ORB_MIG_CTL_REGION (1 - m)) == r) then 1
  else if !(dValid d && ((mode == 1 && dRole d == 4) || (mode == 2 && dRole d == 1 && dBroken d))) then 2
  else if !(s.peer (dPeer d)).reachable then 3
  else 0

/-- An engine begins: a migration at BOUND 0 with reflection whole again, since it copies every tile (log 79), a resync at the region's
BOUND (R302, R311). -/
def State.migBegin (s : State) (m r mode : Nat) : State :=
  if mode = 1 then
    let t := s.setBound r m 0
    (t.setDesc r (setDw (t.desc r) 7 (fieldPut (dw (t.desc r) 7) 28 1 0))).showRefl
  else s.setBound r m (dOrbBound (s.desc r))

/-- A write of ORB_MIGm_CTL (R302, R311). While the engine runs or is paused a write changes RATE and PAUSE alone; the rules say nothing of
REGION and MODE then, and that they stay is the model's choice (log 84). -/
def State.writeMigCtl (s : State) (p : Path) (m : Nat) (v : Word) : State :=
  if !s.mayWrite p (R.ORB_MIG_CTL m) then s
  else
    let r := (F.ORB_MIG_CTL_REGION m).of v
    let mode := (F.ORB_MIG_CTL_MODE m).of v
    let start := (F.ORB_MIG_CTL_START m).on v
    let code := s.migCheck m r mode
    let active := s.get (F.ORB_MIG_STAT_STATE m) == 1 || s.get (F.ORB_MIG_STAT_STATE m) == 2
    let t := if active then
        (s.put (F.ORB_MIG_CTL_RATE m) ((F.ORB_MIG_CTL_RATE m).of v)).put (F.ORB_MIG_CTL_PAUSE m) ((F.ORB_MIG_CTL_PAUSE m).of v)
      else s.plainWrite p (R.ORB_MIG_CTL m) v
    let t := if !start then t
      else if active then t.put (F.ORB_MIG_STAT_CODE m) 1
      else if code ≠ 0 then (t.put (F.ORB_MIG_STAT_STATE m) 6).put (F.ORB_MIG_STAT_CODE m) code
      else
        ((t.put (F.ORB_MIG_STAT_STATE m) 1).put (F.ORB_MIG_STAT_CODE m) 0).migBegin m r mode
    match t.get (F.ORB_MIG_STAT_STATE m), t.flag (F.ORB_MIG_CTL_PAUSE m) with
    | 1, true => t.put (F.ORB_MIG_STAT_STATE m) 2
    | 2, false => t.put (F.ORB_MIG_STAT_STATE m) 1
    | _, _ => t

/-- A commit that changes what a migration rests on stops its engine (R304). -/
def State.commitMig (s : State) (r : Nat) (old : BitVec 512) : State :=
  let new := s.desc r
  let moved := dRole old != dRole new || dPeer old != dPeer new || dPeerRegion old != dPeerRegion new ||
    dBase old != dBase new || dSize old != dSize new || dValid old != dValid new
  if moved && ((s.migRuns r 1).isSome || (s.migRuns r 2).isSome) then
    (s.migStop r 5 0).post 0x08 0x05 (dPeer old) r
  else s

/-- A line as MDATA carries it. -/
def LineImg.mline (l : LineImg) : MLine := ⟨l.data, l.cc, l.poison⟩

/-- A line with its deferred merge record applied, as the copy of a tile takes it; a line of another key than the record's is lost
under it, and a lost one goes poisoned (R52, R59, R302). None while the record's key is missing. -/
def State.copyMerged (s : State) (r line : Nat) (base : Option LineImg) : Option MLine :=
  match s.dmrOf line with
  | none => some (match base with
    | some l => l.mline
    | none => ⟨0, carryChecks 0, 0xF⟩)
  | some d =>
    let old := base.bind (fun l => match s.readKeys (s.liveDesc r) d.key.toNat l.keyTag.toNat l.kgen.toNat with
      | .mismatch => none
      | _ => some l)
    (s.mergeRec d old).map LineImg.mline

/-- The newest image of a line as plaintext, poisoned where deep recovery did not give it (R302); none where it must wait for a key,
and where a check failed, which raises the HALT line as an engine's read (R82, R91; log 76). -/
def State.copyLine (s : State) (r line : Nat) (lost : Bool) : State × Option MLine :=
  let (t, i) := s.newestImage .orbit r line ⟨fun tag => tag, fun _ => .lost⟩ (if lost then .undecodable else .decoded 0 0)
  match i with
  | .wait => (t, none)
  | .macFail => (t.raiseHalt (if lost then 6 else 5) 0 r line false, none)
  | .ccFail cp => (t.ccHalt cp r line, none)
  | .skip => (t, t.copyMerged r line (some (zeroLine ⟨BitVec.ofNat 14 (dKey (s.desc r)), none⟩ 0 s.integ)))
  | .lost => (t, t.copyMerged r line none)
  | .img l => (t, t.copyMerged r line (some l))

/-- The 256 lines of a tile, read in order; none when one of them could not be had. -/
def State.copyTile (s : State) (r tile : Nat) (lost : Nat → Bool) : State × Option (List MLine) :=
  (List.range 256).foldl (fun (acc : State × Option (List MLine)) i =>
    match acc.2 with
    | none => acc
    | some ls =>
      let q := acc.1.copyLine r (tile * 256 + i) (lost i)
      (q.1, q.2.map (fun l => ls ++ [l]))) (s, some [])

/-- A tile's copy waits for its region's media-read bucket or the power bucket (R114, R115). -/
def State.tileWaits (s : State) (r tile : Nat) : Bool :=
  decide (s.adm.power ≤ 0) || (List.range 256).any (fun i => s.copyWaits r (tile * 256 + i))

/-- A tile holds no data: unmapped, with no vault or Halo line (R302). -/
def State.tileVoid (s : State) (tile : Nat) : Bool :=
  !(s.tileEnt tile).mapped && (s.tileEnt tile).haloCnt == 0 && !s.store.vault.any (fun p => tileOfLine p.2.line == tile) &&
  !s.key.dmr.any (fun r => tileOfLine r.line == tile)

/-- The next tile an engine copies, from t on: in a resync, one of a marked unit (R301). -/
def State.nextTile (s : State) (r mode t : Nat) : Nat :=
  if mode = 1 then t
  else
    let marks := (mapGet? s.rgn.dirtyMap r).getD []
    let u := t / 256
    if marks.contains u then t
    else match (List.range (dSize (s.desc r))).find? (fun v => decide (u < v) && marks.contains v) with
      | some v => v * 256
      | none => dSize (s.desc r) * 256

/-- An engine reaches the end of its region; a resync's region is whole again, and its BOUND stands at 0 for the next (R301, R302; log
79). -/
def State.migFinish (s : State) (m r mode : Nat) : State :=
  let t := (s.setBound r m (dSize (s.desc r) * 256)).put (F.ORB_MIG_STAT_STATE m) 3
  if mode = 2 then
    (t.setDesc r (setDw (t.desc r) 7 (fieldPut (fieldPut (dw (t.desc r) 7) 28 1 0) 0 28 0))).showRefl
  else t

/-- The least number of 5 ns cycles between two tiles of an engine: 65,536 B at (RATE + 1) x 0.5 GB/s, rounded up (R302, R311; log
76). -/
def migPace (rate : Nat) : Nat := (131072 + 5 * (rate + 1) - 1) / (5 * (rate + 1))

/-- An engine holds a tile and sends it: an unmapped one in one frame, else 16 of 16 lines (R302). -/
def State.sendTile (s : State) (m r t : Nat) (lost : Nat → Bool) : State :=
  let d := s.desc r
  let tile := dBase d * 256 + t
  let hold := fun (s : State) => (State.setBound { s with orb.hold := mapPut s.orb.hold m ⟨tile⟩ } r m t).mark (74 + m)
  if s.tileVoid tile then (hold s).sendMsg (dPeer d) (.mdata (dPeerRegion d) t true 0 [])
  else if s.tileWaits r tile then s
  else match s.copyTile r tile lost with
    | (u, some ls) => (List.range 16).foldl (fun s i =>
        s.sendMsg (dPeer d) (.mdata (dPeerRegion d) t false (16 * i) ((ls.drop (16 * i)).take 16))) (hold u)
    | (u, none) => if u.key.halt then u else s

/-- A migration engine's next tile is held and sent, no sooner than RATE lets it (R302); `lost` lists the lines that deep recovery
did not give. -/
def State.migTile (s : State) (m : Nat) (lost : List (Fin 256)) : State :=
  let r := s.get (F.ORB_MIG_CTL_REGION m)
  let mode := s.get (F.ORB_MIG_CTL_MODE m)
  let d := s.desc r
  if s.get (F.ORB_MIG_STAT_STATE m) ≠ 1 ∨ (mapGet? s.orb.hold m).isSome = true ∨ s.orbitRuns = false ∨
      s.passed (74 + m) (migPace (s.get (F.ORB_MIG_CTL_RATE m))) = false then s
  else if !(s.peer (dPeer d)).reachable then s.migStop r 4 0
  else
    let t := s.nextTile r mode (dOrbBound d)
    if t ≥ dSize d * 256 then s.migFinish m r mode
    else if s.accesses.any (fun a => a.write && a.stage != .waiting && tileOfLine (lineOf a.dpa) == dBase d * 256 + t) then s
    else s.sendTile m r t (fun i => lost.any (fun x => x.val == i))

/-- The lines of an MDATA that is not refused find room (R133, R302). -/
def State.mdataRoom (s : State) (m r tile first : Nat) (n : Nat) : Bool :=
  !s.takesLines m r (tile * 256) || (List.range n).all (fun i => s.roomFor (s.regionAddr r + tile * 256 + first + i))

/-- An MDATA at the target (R302): the first drops the tile's lines; MACK follows the last placement. -/
def State.onMdata (s : State) (m r tile : Nat) (unmapped : Bool) (first : Nat) (lines : List MLine) : State :=
  let d := s.desc r
  let ack := fun (s : State) (code : Nat) => s.sendMsg m (.mack (dPeerRegion d) tile code)
  if !s.takesLines m r (tile * 256) then ack s 1
  else
    let s := if first = 0 then s.unmapTile (dBase d * 256 + tile) else s
    if unmapped then ack s 0
    else
      let placed := (List.zip (List.range lines.length) lines).foldl (fun o p => o.bind (fun (s : State) =>
        s.placeFrom r (s.regionAddr r + tile * 256 + first + p.1) p.2)) (some s)
      match placed with
      | none => ack s 1
      | some t =>
        let t : State := { t with orb.mdataAt := mapPut t.orb.mdataAt r (tile, first + lines.length) }
        if first + lines.length ≥ 256 then ack { t with orb.mdataAt := mapDel t.orb.mdataAt r } 0 else t

/-- A MACK at the source (R286, R301, R302). -/
def State.onMack (s : State) (r tile code : Nat) : State :=
  let held := fun m => match mapGet? s.orb.hold m with
    | some h => s.get (F.ORB_MIG_CTL_REGION m) == r && h.tile == dBase (s.desc r) * 256 + tile
    | none => false
  match [0, 1].find? held with
  | none => s
  | some m =>
    if code ≠ 0 then s.migStop r 4 4
    else
      let mode := s.get (F.ORB_MIG_CTL_MODE m)
      let t : State := { s with orb.hold := mapDel s.orb.hold m }
      let t := (t.setBound r m (tile + 1)).add64 R.ORB_MIG_TILES_LO 1
      let t : State := if mode = 2 ∧ (tile + 1) % 256 = 0 then State.showRefl { t with
          rgn.dirtyMap := mapPut t.rgn.dirtyMap r (((mapGet? t.rgn.dirtyMap r).getD []).filter (· != tile / 256)) }
        else t
      if t.nextTile r mode (tile + 1) ≥ dSize (t.desc r) * 256 then t.migFinish m r mode else t

/-! ### Remote access (R305) -/

/-- The peer's region may be reached by this requester (R305). -/
def State.remoteOk (s : State) (m r dev off : Nat) : Bool :=
  let d := s.desc r
  dValid d && dType d == 0 && dRole d == 7 && dPeer d == m && dPeerRegion d == dev && (s.peer m).remoteOk &&
  decide (off < dSize d * 2 ^ 24)

/-- A remote access served as an engine access to PEER_REGION (R217, R305). -/
def State.serveRemote (s : State) (m : Nat) (tag : Word) (write : Bool) (r off : Nat) (be : BitVec 64) (data : HostLine) : State :=
  let d := s.desc r
  let key := BitVec.ofNat 14 (dKey d)
  let got := mergeBytes 64 0 data be.toNat
  let a : Access :=
    { id := 0, own := .remote m tag, port := 0, write := write, dpa := dBase d * 2 ^ 24 + off / 64 * 64, region := r,
      desc := d, key := key, data := got, be := be, cc := if write then carryCheck got else 0, stage := .waiting, order := 0,
      material := ⟨key, none⟩, amo := none, poisonAll := false, silent := false, born := 0 }
  if s.mediaLost || (s.slot key.toNat).isNone then
    (if write then s.sendMsg m (.rstack tag 1) else s.sendMsg m (.rdata tag 2 0))
  else s.newAccess a

def State.onRread (s : State) (m : Nat) (tag : Word) (r off : Nat) (be : BitVec 64) (dev : Nat) : State :=
  if s.remoteOk m r dev off then s.serveRemote m tag false r off be 0 else s.sendMsg m (.rdata tag 1 0)

def State.onRstore (s : State) (m : Nat) (tag : Word) (r off : Nat) (be : BitVec 64) (data : HostLine) (dev : Nat) : State :=
  if s.remoteOk m r dev off then s.serveRemote m tag true r off be data else s.sendMsg m (.rstack tag 1)

/-- The remote access a TAG names, no longer in flight. -/
def State.remoteOf (s : State) (m : Nat) (tag : Word) (store : Bool) : Option (RemoteReq × State) :=
  (s.orb.remote.find? (fun q => q.peer == m && q.tag == tag && q.store == store)).map (fun q =>
    (q, { s with orb.remote := s.orb.remote.filter (· != q) }))

/-- RDATA at the requester: data, poison, or a refusal (R305). -/
def State.onRdata (s : State) (m : Nat) (tag : Word) (code : Nat) (data : HostLine) : State :=
  match s.remoteOf m tag false with
  | none => s
  | some (q, t) =>
    let t := if code = 1 then t.satReg R.ORB_REM_REFUSED 1 else t.add64 R.ORB_REM_RD_LO 1
    match t.opOf q.eng q.ref with
    | some o => (t.setOp q.eng { o with stage := .back (.data (if code = 0 then data else 0) (code != 0)) }).settle q.eng
    | none => t

/-- RSTACK at the requester: stored, or completed unstored (R305). -/
def State.onRstack (s : State) (m : Nat) (tag : Word) (code : Nat) : State :=
  match s.remoteOf m tag true with
  | none => s
  | some (q, t) =>
    let t := if code = 0 then t.add64 R.ORB_REM_WR_LO 1 else t.satReg R.ORB_REM_REFUSED 1
    match t.opOf q.eng q.ref with
    | some o => (t.meterOp o (if code = 0 then .bytesWr else .wrFail) (if code = 0 then 64 else 1)).setOp q.eng { o with
        stage := .done (code == 0) }
    | none => t

/-! ### Peers lost, resends and timers (R289, R292) -/

/-- A peer is declared unreachable (R289, R292, R300, R304): reflection to it breaks, migrations to it stop, and a planet that
loses its standby names the next. -/
def State.peerDown (s : State) (m : Nat) : State :=
  if !(s.peer m).reachable then s
  else
    let p := (List.range 5).foldl (fun p c => p.setChan c { p.chan c with
      credits := 0
      owed := 0
      resends := 0 }) { s.peer m with reachable := false }
    let t := ((s.setPeer m p).satReg R.ORB_HELLO_LOST 1).post 0x08 0x06 m 0
    let regions := (t.rgn.descs.filter (fun q => dValid q.2 && dPeer q.2 == m && (dRole q.2 == 1 || dRole q.2 == 4))).map (·.1)
    let t := regions.foldl (fun s r => if dRole (s.desc r) = 1 ∧ dBroken (s.desc r) = true then s.migStop r 4 0 else s.breakRefl r) t
    let t := t.stallQueues (fun q => q.moon == m)
    if t.role = rolePlanet ∧ (t.standbyMoon = some m ∨ t.orb.standbyDue.any (fun q => q.1 == m) = true) then
      (State.setStandby t none).dirFlush.nameStandby
    else t

/-- ORB_TIMING.RETX_US passed (R289): the oldest unacknowledged frames go again; after 8 resends without progress on one
port the other is taken, and after 8 more the peer is unreachable. -/
def State.retransmit (s : State) (m c : Nat) : State :=
  let p := s.peer m
  let ch := p.chan c
  match ch.unacked with
  | [] => s
  | first :: _ =>
    if !s.orbitRuns || decide (s.now < first.sent + 200 * max 1 (s.get F.ORB_TIMING_RETX_US)) then s
    else if ch.resends ≥ 16 then s.peerDown m
    else
      let p' := p.setChan c { ch with resends := ch.resends + 1 }
      let p' := if ch.resends = 8 then { p' with port := 1 - p.port } else p'
      (s.setPeer m p').resend m c first.seq

/-- A NAK: resend from the SEQ it names (R289). -/
def State.onNak (s : State) (h : OrbHdr) (c expected : Nat) : State :=
  let r := (s.wake [52]).takeHdr h c (.nak expected)
  if r.taken then r.st.resend h.src.toNat c expected else r.st

/-- A frame taken, or a grant, has not been answered by a frame of its channel: its credits are still owed, and an ACK_ONLY carries them
with the ACK (R289, R290). -/
def State.ackTimer (s : State) (m c : Nat) : State :=
  if ((s.peer m).chan c).owed = 0 then s else s.sendFree m c .ackOnly

/-- FAIL_MS and ELECT_MS as they act, in cycles of 5 ns (R311). -/
def State.failCycles (s : State) : Nat := 200000 * max 2 (s.get F.ORB_TIMING_FAIL_MS)
def State.electCycles (s : State) : Nat := 200000 * max 1 (s.get F.ORB_TIMING_ELECT_MS) + 2000 * s.ownMoon

/-- A peer has not been heard for FAIL_MS (R292). -/
def State.peerSilent (s : State) (m : Nat) : State :=
  if (s.peer m).lastHeard + s.failCycles ≤ s.now then s.peerDown m else s

/-- A HELLO to a member. One that is not reachable has granted no credits yet: the HELLO waits for them, and an ACK_ONLY, which costs
nothing, goes in its place (R290; log 12). -/
def State.helloTo (s : State) (m : Nat) (msg : OrbMsg) : State :=
  let ch := (s.peer m).chan 0
  if (s.peer m).reachable || decide (msg.credits ≤ ch.credits) then s.sendMsg m msg
  else
    let t := if ch.waiting.isEmpty then s.sendMsg m msg else s
    if t.paused m .ackOnly then t else t.sendFree m 0 .ackOnly

/-- Every ORB_TIMING.HELLO, a HELLO goes to every member, and a planet's announcement with it (R292, R293). -/
def State.helloPeriod (s : State) : State :=
  if !s.orbitRuns || !s.passed 70 (20000 * max 1 (s.get F.ORB_TIMING_HELLO)) then s
  else
    let msg := OrbMsg.hello s.role (s.flag F.ORB_CFG_PLANET_EN) s.planetMoon s.dirgen
    let t := s.memberMoons.foldl (fun s m => s.helloTo m msg) (s.mark 70)
    if t.role = rolePlanet then t.announce else t

/-- No PLANET frame has come for FAIL_MS (R293): the standby stands; another moon has no planet. -/
def State.planetSilence (s : State) : State :=
  if !s.orbitRuns || !s.passed 71 s.failCycles then s
  else if s.role = roleStandby then s.stand true
  else if s.role = roleMoon then (s.setPlanet none).setStandby none
  else s

/-- ELECT_MS and MOON x 10 µs have passed, for a candidate since its CANDIDATE and for another since FAIL_MS of silence (R293): an
eligible moon without a planet stands, and a candidate without a majority again. -/
def State.electionTimeout (s : State) : State :=
  if !s.orbitRuns then s
  else if s.role = roleCandidate then
    (if s.passed 72 s.electCycles then (s.satReg R.ORB_ELECT_CNT 1).stand s.orb.fromStandby else s)
  else if (s.role = roleAlone ∨ s.role = roleMoon) ∧ s.planetMoon.isNone = true ∧ s.flag F.ORB_CFG_PLANET_EN = true ∧
      s.passed 71 (s.failCycles + s.electCycles) = true then s.stand false
  else s

/-- The planet reaches a majority: mark 76 is when it last did (R293). -/
def State.noteMajority (s : State) : State :=
  if s.role = rolePlanet && s.majority (s.reachableMoons.length + 1) then s.mark 76 else s

/-- A planet that has not reached a majority for FAIL_MS steps down (R293). -/
def State.stepDown (s : State) : State :=
  if s.role = rolePlanet && !s.majority (s.reachableMoons.length + 1) && s.passed 76 s.failCycles then
    let t := ((s.put F.ORB_STAT_ROLE roleAlone).setPlanet none).setStandby none
    { t with
      orb.standbyDue := none
      orb.dirWait := [] }
  else s

/-- NCTR to a peer has reached 2^47 (R288). -/
def State.nctrWarn (s : State) (m : Nat) : State :=
  let p := s.peer m
  if p.nctr ≥ 2 ^ 47 ∧ p.seqWarn = false then (s.setPeer m { p with seqWarn := true }).post 0x08 0x03 m 0 else s

/-! ### Links (R282, R290, R309) -/

/-- The link of Sp is up or down, as the registers and the board show it. -/
def State.showLink (s : State) (p : Nat) (up : Bool) : State :=
  let t := s.put (F.ORB_S_STAT_UP p) (if up then 1 else 0)
  t.put (if p = 0 then F.STQ_STAT_S0 else F.STQ_STAT_S1) (if up then 1 else 0)

/-- Sends what waited, by channel in the order of R291. -/
def State.pumpAll (s : State) : State :=
  [0, 1, 4, 3, 2].foldl (fun s c => (s.orb.peers.map (·.1)).foldl (fun s m =>
    s.pump m c (((s.peer m).chan c).waiting.length + 1)) s) s

/-- Receive queues whose source no link reached before are granted. -/
def State.linkUp (s : State) (p : Nat) : State :=
  if s.flag (F.ORB_S_STAT_UP p) || s.orb.linkHeld.contains p || (s.unit (uLink p)).st == ustRetired then s
  else
    let t := (s.showLink p true).setUnit (uLink p) ustService
    t.grantAll (fun q => (s.destPort q.dest q.moon).isNone && (t.destPort q.dest q.moon).isSome)

/-- A link that goes down ends its PFC pauses, and its traffic moves to the other or waits (R282, R289). -/
def State.linkDown (s : State) (p : Nat) : State :=
  if !s.flag (F.ORB_S_STAT_UP p) then s
  else
    let t := ((s.showLink p false).satReg (R.ORB_S_DOWN p) 1).put (F.ORB_S_STAT_PFC_TX p) 0
    let t := if (s.unit (uLink p)).st = ustService then t.setUnit (uLink p) ustBringUp else t
    let t := t.stallQueues (fun q => (t.destPort q.dest q.moon).isNone)
    if t.flag (F.ORB_S_STAT_PFC_RX p) then (t.put (F.ORB_S_STAT_PFC_RX p) 0).pumpAll else t

/-- A PFC frame pauses the port or lets it go on with the frames that have waited (R282, R291). -/
def State.pfc (s : State) (p : Nat) (pause : Bool) : State :=
  let t := s.put (F.ORB_S_STAT_PFC_RX p) (if pause then 1 else 0)
  if pause then t.satReg (R.ORB_S_PFC_RX p) 1 else t.pumpAll

/-! ### Unit commands and the audit (R24, R309, R310) -/

def opHold : Nat := 1
def opRelease : Nat := 2
def opReset : Nat := 3
def opRetire : Nat := 4

/-- Applies an operation to a unit: its CODE, and the state after it (R309). -/
def State.unitOp (s : State) (u op : Nat) : Nat × State :=
  let kind := unitKind u
  let st := (s.unit u).st
  if u ≥ 566 || kind == 1 || op == 0 || decide (op > 4) || st == ustAbsent || st == ustMerged then (2, s)
  else if st = ustRetired then (4, s)
  else if kind = 0 then
    let n := u
    match op with
    | 1 => (0, ((s.put (F.HP_CTRL_PORT_EN n) 0).setUnit u ustHeld).updatePorts)
    | 2 => (0, ((s.put (F.HP_CTRL_PORT_EN n) 1).setUnit u ustService).updatePorts)
    | 3 => (0, s.convReset n)
    | _ => (0, (((s.setPort n { s.port n with retired := true }).setUnit u ustRetired).updatePorts).reservice 3)
  else if kind = 2 then
    let c := u - 16
    match op with
    | 3 => (0, if s.lit && !s.chanOut c then s.retrainAll c else s)
    | 4 => (0, s.retireChan c)
    | _ => (2, s)
  else if kind = 3 then
    let i := u - 48
    let c := i / 16
    let d := i % 16
    match op with
    | 3 => (0, s.sendResetDie c d)
    | 4 => (0, s.beginEvac (2048 + i))
    | _ => (2, s)
  else if kind = 4 then
    let k := u - 560
    let shown := fun (s : State) => (engsOf k).foldl (fun s e => if (s.eng e).phase = .held then s.engNext e else s.showEng e) s
    match op with
    | 1 => (0, shown ((s.put (F.ENG_CL_CTL_STOP k) 1).setUnit u ustHeld))
    | 2 => (0, shown ((s.put (F.ENG_CL_CTL_STOP k) 0).setUnit u ustService))
    | 3 => (0, s.resetCluster k)
    | _ => (0, (((s.resetCluster k).put (F.ENG_CL_CTL_STOP k) 1).setUnit u ustRetired).reservice 3)
  else
    let p := u - 564
    match op with
    | 1 => (0, (State.linkDown { s with orb.linkHeld := addOnce s.orb.linkHeld p } p).setUnit u ustHeld)
    | 2 => (0, (State.linkUp { s with orb.linkHeld := s.orb.linkHeld.filter (· != p) } p).setUnit u ustService)
    | 3 => (0, (s.linkDown p).linkUp p)
    | _ => (0, ((State.linkDown { s with orb.linkHeld := addOnce s.orb.linkHeld p } p).setUnit u ustRetired).reservice 3)

/-- A unit command with the generation it names (R24): a stale one has no effect and refreshes the view. -/
def State.unitCommand (s : State) (u gen op : Nat) : Nat × State :=
  if u < 566 ∧ gen ≠ (s.unit u).gen.toNat then (1, s.refreshView u) else s.unitOp u op

/-- A unit command from a requester path, or from the planet with its answer (R309); it wakes the control cores (R30). -/
def State.unitVia (s : State) (via : UnitVia) (u gen op : Nat) : State :=
  match via with
  | .reg p =>
    if s.mayWrite p R.ORB_UNIT_CMD then
      let (code, t) := s.wakeCores.unitCommand u gen op
      (t.put F.ORB_UNIT_STAT_CODE code).put F.ORB_UNIT_STAT_unit u
    else s
  | .frame src =>
    if s.planetMoon = some src.toNat ∧ s.orbitRuns = true then
      let (code, t) := s.wakeCores.unitCommand u gen op
      t.sendMsg src.toNat (.unitResult u code)
    else s

/-- A write of ORB_UNIT_CMD: GO sends the command with the generation of ORB_UNIT_CMD_GEN (R311). -/
def State.writeUnitCmd (s : State) (p : Path) (v : Word) : State :=
  if F.ORB_UNIT_CMD_GO.on v then
    s.unitVia (.reg p) (F.ORB_UNIT_CMD_UNIT.of v) (s.get F.ORB_UNIT_CMD_GEN_generation) (F.ORB_UNIT_CMD_OP.of v)
  else s

/-- The audit of the 566 entries (R310): a difference is recorded and the view refreshed; a moon tells the planet what
changed. Its duration is a free value. -/
def State.unitAudit (s : State) : State :=
  if !s.passed 73 2000000 then s else
  let t := (List.range 566).foldl (fun s u =>
    let e := s.unit u
    let v := mapGet (fun _ => viewInit) s.board.views u
    if e.gen = v.gen ∧ e.st = v.st then s
    else ((s.satReg R.ORB_UNIT_DISAGREE 1).post 0x0B 0x01 u (v.gen.toNat + 65536 * e.gen.toNat)).refreshView u) (s.mark 73)
  let (f, t) := t.fresh
  let t := t.put F.ORB_UNIT_AUDIT_US_duration (f.toNat % 10000)
  match t.planetMoon with
  | some m =>
    if m = t.ownMoon then t
    else
      let item := fun u => (⟨BitVec.ofNat 10 u, (t.unit u).gen, BitVec.ofNat 4 (t.unit u).st, BitVec.ofNat 3 (unitKind u)⟩ : UnitItem)
      let u := (pieces (t.board.changed.map item)).foldl (fun s l => s.sendMsg m (.unitViews l)) t
      { u with board.changed := [] }
  | none => t

/-! ### Registers (R311) -/

/-- A write of ORB_PEER_SEL or ORB_UNIT_SEL, kept for each path. -/
def State.writeOrbSel (s : State) (p : Path) (off : Nat) (v : Word) : State :=
  if !s.mayWrite p off then s
  else if off = R.ORB_PEER_SEL then s.setPath p { s.path p with orbPeer := F.ORB_PEER_SEL_peer.of v }
  else if off = R.ORB_UNIT_SEL then s.setPath p { s.path p with orbUnit := F.ORB_UNIT_SEL_unit.of v }
  else s

/-- A write of ORB_PEER_CFG or ORB_PEER_CRED for the peer the path selects: KEYSLOT is kept while MEMBER is 1. -/
def State.writeOrbPeer (s : State) (p : Path) (off : Nat) (v : Word) : State :=
  let m := (s.path p).orbPeer
  let q := s.peer m
  if !s.mayWrite p off then s
  else if off = R.ORB_PEER_CFG then
    s.setPeer m { q with cfg := fieldPut (v &&& 0xFFFF#32) 1 14 (if q.member then q.keySlot else F.ORB_PEER_CFG_KEYSLOT.of v) }
  else if off = R.ORB_PEER_CRED then s.setPeer m { q with init := F.ORB_PEER_CRED_INIT.of v }
  else s

/-- What a path reads at the registers of the peer or unit it selects. -/
def State.readOrb (s : State) (p : Path) (off : Nat) : Option Word :=
  let m := (s.path p).orbPeer
  let q := s.peer m
  let v := mapGet (fun _ => viewInit) s.board.views (s.path p).orbUnit
  if off = R.ORB_PEER_SEL then some (BitVec.ofNat 32 m)
  else if off = R.ORB_PEER_CFG then some q.cfg
  else if off = R.ORB_PEER_STAT then
    let on := fun k => if q.reachable && s.peerPort m == some k then 1 else 0
    some (BitVec.ofNat 32 ((if q.reachable then 1 else 0) + 2 * on 0 + 4 * on 1 + (if q.seqWarn then 8 else 0) +
      65536 * min 65535 ((s.now - q.lastHeard) / 200000)))
  else if off = R.ORB_PEER_CRED then some (BitVec.ofNat 32 (q.init % 4096 + 65536 * min 4095 (q.chan 1).credits))
  else if off = R.ORB_PEER_RTT then some (BitVec.ofNat 32 q.rtt)
  else if off = R.ORB_PEER_TXSEQ_LO then some (BitVec.ofNat 32 q.nctr)
  else if off = R.ORB_PEER_TXSEQ_HI then some (BitVec.ofNat 32 (q.nctr / 2 ^ 32))
  else if off = R.ORB_UNIT_SEL then some (BitVec.ofNat 32 (s.path p).orbUnit)
  else if off = R.ORB_UNIT_VIEW_LO then
    some (BitVec.ofNat 32 (v.gen.toNat + 65536 * v.st + 2 ^ 20 * unitKind (s.path p).orbUnit))
  else if off = R.ORB_UNIT_VIEW_HI then some v.tick
  else none

/-- A write of ORB_CTL: CNT_CLR clears every Orbit counter. -/
def State.writeOrbCtl (s : State) (p : Path) (v : Word) : State :=
  if !(s.mayWrite p R.ORB_CTL && F.ORB_CTL_CNT_CLR.on v) then s
  else
    let t := [R.ORB_ELECT_CNT, R.ORB_FAILOVER_CNT, R.ORB_RX_FOREIGN, R.ORB_HELLO_LOST, R.ORB_DIR_NOTE, R.ORB_REFL_BREAKS,
      R.ORB_REM_REFUSED, R.ORB_UNIT_DISAGREE].foldl (fun s o => s.wr o 0) s
    let t := [R.ORB_DIR_QUERY_LO, R.ORB_RWRITE_LO, R.ORB_MIG_TILES_LO, R.ORB_REM_RD_LO, R.ORB_REM_WR_LO].foldl
      (fun s o => s.wr64 o 0) t
    let t := [0, 1].foldl (fun s k => [R.ORB_S_RETX k, R.ORB_S_NAK k, R.ORB_S_FCS_ERR k, R.ORB_S_TAG_FAIL k, R.ORB_S_PFC_RX k,
      R.ORB_S_PFC_TX k, R.ORB_S_DOWN k].foldl (fun s o => s.wr o 0) ((s.wr64 (R.ORB_S_TX_LO k) 0).wr64 (R.ORB_S_RX_LO k) 0)) t
    t.put F.ORB_ERR_BAD_FRAME 0

/-- A read of ORB_RACK_NS_MAX clears it. -/
def State.readRackMax (s : State) (p : Path) : State :=
  if !s.mayRead p R.ORB_RACK_NS_MAX then s.say (.regData p 0)
  else (s.say (.regData p (s.rd R.ORB_RACK_NS_MAX))).wr R.ORB_RACK_NS_MAX 0

/-! ### The commands -/

def execStreamLinkUp (sp : Fin 2) (s : State) : Host.Outcome State Fault Refusal := .next (s.linkUp sp)
def execStreamLinkDown (sp : Fin 2) (s : State) : Host.Outcome State Fault Refusal := .next (s.linkDown sp)
def execForeignFrame (sp : Fin 2) (s : State) : Host.Outcome State Fault Refusal :=
  .next (if s.linkOk sp && s.orbitRuns then s.satReg R.ORB_RX_FOREIGN 1 else s)
def execPfcFrame (sp : Fin 2) (pause : Bool) (s : State) : Host.Outcome State Fault Refusal := .next (s.pfc sp pause)

def execHello (h : OrbHdr) (role : BitVec 3) (planetEn : Bool) (planet : Option Moon) (dirgen : BitVec 64) (s : State) :
    Host.Outcome State Fault Refusal :=
  .next (s.onFrame h (.hello role.toNat planetEn (planet.map (·.toNat)) dirgen.toNat) (fun s => s.onHello h planetEn))

def execCandidate (h : OrbHdr) (dirgen : BitVec 64) (s : State) : Host.Outcome State Fault Refusal :=
  .next (s.onFrame h (.candidate dirgen.toNat) (fun s => s.onCandidate h dirgen.toNat))

def execVote (h : OrbHdr) (term : Word) (granted : Bool) (s : State) : Host.Outcome State Fault Refusal :=
  .next (s.onFrame h (.vote term.toNat granted) (fun s => s.onVote h term.toNat granted))

def execPlanet (h : OrbHdr) (dirgen : BitVec 64) (standby : Option Moon) (s : State) : Host.Outcome State Fault Refusal :=
  .next (s.onFrame h (.planet dirgen.toNat (standby.map (·.toNat)))
    (fun s => s.onPlanet h dirgen.toNat (standby.map (·.toNat))))

def execDirNote (h : OrbHdr) (dirgen : BitVec 64) (grns : List Word) (s : State) : Host.Outcome State Fault Refusal :=
  .next (s.onFrame h (.dirNote dirgen.toNat grns) (fun s => s.onDirNote dirgen.toNat grns))

def execDirQuery (h : OrbHdr) (grns : List Word) (s : State) : Host.Outcome State Fault Refusal :=
  .next (s.onFrame h (.dirQuery grns) (fun s => s.onDirQuery h.src.toNat grns))

def execDirEntries (h : OrbHdr) (entries : List DirEntry) (s : State) : Host.Outcome State Fault Refusal :=
  .next (s.onFrame h (.dirEntries entries) (fun s => s.onDirEntries entries))

def execDirChangeRequest (h : OrbHdr) (entries : List DirEntry) (s : State) : Host.Outcome State Fault Refusal :=
  .next (s.onFrame h (.dirChange entries) (fun s => s.onDirChange entries))

def execDirCopy (h : OrbHdr) (dirgen : BitVec 64) (entries : List DirEntry) (s : State) : Host.Outcome State Fault Refusal :=
  .next (s.onFrame h (.dirCopy dirgen.toNat entries) (fun s => s.onDirCopy h.src.toNat dirgen.toNat entries))

def execDirAck (h : OrbHdr) (grns : List Word) (s : State) : Host.Outcome State Fault Refusal :=
  .next (s.onFrame h (.dirAck grns) (fun s => s.onDirAck h.src.toNat grns))

def execUnitViews (h : OrbHdr) (items : List UnitItem) (s : State) : Host.Outcome State Fault Refusal :=
  .next (s.onFrame h (.unitViews items) (fun s => s))

def execUnitCommand (h : OrbHdr) (unit : BitVec 10) (gen : BitVec 16) (op : Byte) (s : State) :
    Host.Outcome State Fault Refusal :=
  .next (s.onFrame h (.unitCommand unit.toNat gen.toNat op.toNat)
    (fun s => s.unitVia (.frame h.src) unit.toNat gen.toNat op.toNat))

def execUnitResult (h : OrbHdr) (unit : BitVec 10) (code : BitVec 4) (s : State) : Host.Outcome State Fault Refusal :=
  .next (s.onFrame h (.unitResult unit.toNat code.toNat) (fun s => s))

def execRwrite (h : OrbHdr) (rseq : Word) (region : RegionId) (off : BitVec 40) (l : MLine) (s : State) :
    Host.Outcome State Fault Refusal :=
  .next (s.onFrameRoom h (s.rwriteRoom h.src.toNat region.toNat off.toNat) (.rwrite rseq region.toNat off.toNat l)
    (fun s => s.onRwrite h.src.toNat rseq region.toNat off.toNat l))

def execRack (h : OrbHdr) (rseq : Word) (region : RegionId) (code : Byte) (ns : BitVec 24) (s : State) :
    Host.Outcome State Fault Refusal :=
  .next (s.onFrame h (.rack rseq region.toNat code.toNat)
    (fun s => s.onRack h.src.toNat rseq region.toNat code.toNat ns.toNat))

def execMdata (h : OrbHdr) (region : RegionId) (tile : BitVec 28) (unmapped : Bool) (first : Byte) (lines : List MLine)
    (s : State) : Host.Outcome State Fault Refusal :=
  .next (s.onFrameRoom h (s.mdataRoom h.src.toNat region.toNat tile.toNat first.toNat lines.length)
    (.mdata region.toNat tile.toNat unmapped first.toNat lines)
    (fun s => s.onMdata h.src.toNat region.toNat tile.toNat unmapped first.toNat lines))

def execMack (h : OrbHdr) (region : RegionId) (tile : BitVec 28) (code : Byte) (s : State) : Host.Outcome State Fault Refusal :=
  .next (s.onFrame h (.mack region.toNat tile.toNat code.toNat) (fun s => s.onMack region.toNat tile.toNat code.toNat))

def execItems (h : OrbHdr) (dstQ srcQ : BitVec 12) (epoch : Byte) (items : List HostLine) (s : State) :
    Host.Outcome State Fault Refusal :=
  .next (s.onFrame h (.items dstQ.toNat srcQ.toNat epoch.toNat items) (fun s =>
    items.foldl (fun s i => s.itemArrive h.port.val dstQ.toNat h.src.toNat srcQ.toNat epoch.toNat i) s))

def execGrant (h : OrbHdr) (txQ rxQ : BitVec 12) (epoch : Byte) (value : BitVec 17) (s : State) :
    Host.Outcome State Fault Refusal :=
  .next (s.onFrame h (.grant txQ.toNat rxQ.toNat epoch.toNat value.toNat)
    (fun s => s.takeGrant txQ.toNat h.src.toNat rxQ.toNat epoch.toNat value.toNat))

def execReturnFrame (h : OrbHdr) (txQ rxQ : BitVec 12) (epoch : Byte) (value : BitVec 17) (s : State) :
    Host.Outcome State Fault Refusal :=
  .next (s.onFrame h (.ret txQ.toNat rxQ.toNat epoch.toNat value.toNat)
    (fun s => s.takeReturn txQ.toNat h.src.toNat rxQ.toNat epoch.toNat value.toNat))

def execRread (h : OrbHdr) (tag : Word) (region : RegionId) (off : BitVec 44) (be : BitVec 64) (devRegion : RegionId)
    (s : State) : Host.Outcome State Fault Refusal :=
  .next (s.onFrame h (.rread tag region.toNat off.toNat be devRegion.toNat)
    (fun s => s.onRread h.src.toNat tag region.toNat off.toNat be devRegion.toNat))

def execRdata (h : OrbHdr) (tag : Word) (code : Byte) (data : HostLine) (s : State) : Host.Outcome State Fault Refusal :=
  .next (s.onFrame h (.rdata tag code.toNat data) (fun s => s.onRdata h.src.toNat tag code.toNat data))

def execRstore (h : OrbHdr) (tag : Word) (region : RegionId) (off : BitVec 44) (be : BitVec 64) (data : HostLine)
    (devRegion : RegionId) (s : State) : Host.Outcome State Fault Refusal :=
  .next (s.onFrame h (.rstore tag region.toNat off.toNat be data devRegion.toNat)
    (fun s => s.onRstore h.src.toNat tag region.toNat off.toNat be data devRegion.toNat))

def execRstack (h : OrbHdr) (tag : Word) (code : Byte) (s : State) : Host.Outcome State Fault Refusal :=
  .next (s.onFrame h (.rstack tag code.toNat) (fun s => s.onRstack h.src.toNat tag code.toNat))

def execNak (h : OrbHdr) (chan : Fin 5) (expected : BitVec 48) (s : State) : Host.Outcome State Fault Refusal :=
  .next (s.onNak h chan expected.toNat)

def execAckOnly (h : OrbHdr) (chan : Fin 5) (s : State) : Host.Outcome State Fault Refusal :=
  .next ((s.wake [52]).takeHdr h chan .ackOnly).st

def execAckOnlyTimer (peer : Moon) (chan : Fin 5) (s : State) : Host.Outcome State Fault Refusal :=
  .next (s.ackTimer peer.toNat chan)

def execRetransmitTimeout (peer : Moon) (chan : Fin 5) (s : State) : Host.Outcome State Fault Refusal :=
  .next (s.retransmit peer.toNat chan)

def execHelloPeriod (s : State) : Host.Outcome State Fault Refusal := .next s.helloPeriod
def execPeerUnreachable (peer : Moon) (s : State) : Host.Outcome State Fault Refusal := .next (s.peerSilent peer.toNat)
def execPlanetSilence (s : State) : Host.Outcome State Fault Refusal := .next s.planetSilence
def execElectionTimeout (s : State) : Host.Outcome State Fault Refusal := .next s.electionTimeout
def execPlanetStepDown (s : State) : Host.Outcome State Fault Refusal := .next s.stepDown

def execReflectionTimeout (region : RegionId) (rseq : Word) (s : State) : Host.Outcome State Fault Refusal :=
  .next (s.reflTimeout region.toNat rseq)

def execNctrWarn (peer : Moon) (s : State) : Host.Outcome State Fault Refusal := .next (s.nctrWarn peer.toNat)

def execMigStart (p : Path) (m : Fin 2) (v : Word) (s : State) : Host.Outcome State Fault Refusal := .next (s.touch.writeMigCtl p m v)
def execMigPause (p : Path) (m : Fin 2) (v : Word) (s : State) : Host.Outcome State Fault Refusal := .next (s.touch.writeMigCtl p m v)

def execMigrationTile (m : Fin 2) (lost : List (Fin 256)) (s : State) : Host.Outcome State Fault Refusal :=
  .next (s.migTile m lost)

def execOrbCntClr (p : Path) (v : Word) (s : State) : Host.Outcome State Fault Refusal := .next (s.touch.writeOrbCtl p v)
def execRackNsMaxRead (p : Path) (s : State) : Host.Outcome State Fault Refusal := .next (s.touch.readRackMax p)

def execUnitHold (via : UnitVia) (unit : BitVec 10) (gen : BitVec 16) (s : State) : Host.Outcome State Fault Refusal :=
  .next (s.unitVia via unit.toNat gen.toNat opHold)
def execUnitRelease (via : UnitVia) (unit : BitVec 10) (gen : BitVec 16) (s : State) : Host.Outcome State Fault Refusal :=
  .next (s.unitVia via unit.toNat gen.toNat opRelease)
def execUnitReset (via : UnitVia) (unit : BitVec 10) (gen : BitVec 16) (s : State) : Host.Outcome State Fault Refusal :=
  .next (s.unitVia via unit.toNat gen.toNat opReset)
def execUnitRetire (via : UnitVia) (unit : BitVec 10) (gen : BitVec 16) (s : State) : Host.Outcome State Fault Refusal :=
  .next (s.unitVia via unit.toNat gen.toNat opRetire)
def execUnitAudit (s : State) : Host.Outcome State Fault Refusal := .next s.unitAudit

end Sys2Proof.Machine
end

