-- ==== Sys2Proof/Machine/Recorder.lean ====
section
/-! DEFINITION. The event recorder (R337 to R349): records in the ring of NV pages, the scan, the cursors and the clear. -/

namespace Sys2Proof.Machine

/-! ### The ring (R341) -/

/-- Record groups of the ring: 31 in each of 512 pages. -/
def ringSize : Nat := 15872

def ringPage (i : Nat) : Nat := i / 31
def ringGroup (i : Nat) : Nat := i % 31 + 1

/-- The bytes of a record (R337, R338). -/
def EventRec.bytes (e : EventRec) (seq : Nat) : List Byte :=
  let ext := e.ext ++ List.replicate ((8 - e.ext.length % 8) % 8) 0
  leBytes 4 seq ++ leBytes 1 e.cls ++ leBytes 1 e.code ++ leBytes 2 (24 + ext.length) ++
    toBytes 8 e.time ++ toBytes 8 e.subject ++ toBytes 8 e.detail ++ ext

/-- The indexes of a record's groups. -/
def RingRec.idx (r : RingRec) : List Nat := (List.range r.groups).map (fun i => (r.pos + i) % ringSize)

/-- The record has a group in a page. -/
def RingRec.inPage (r : RingRec) (p : Nat) : Bool := r.idx.any (fun i => ringPage i == p)

/-- The record may have a group in a page: one not located lies somewhere between its neighbours. -/
def RingRec.touches (r : RingRec) (p : Nat) : Bool := r.inPage p || (!r.located && ringPage r.pos == p)

/-- The header of a ring page for the records held (R341). -/
def State.ringHeader (s : State) (p : Nat) : BitVec 64 :=
  match s.evr.ring.find? (fun r => r.located && r.inPage p) with
  | none => 0
  | some r =>
    let grp := match s.evr.ring.find? (fun r => r.located && ringPage r.pos == p) with
      | some q => ringGroup q.pos
      | none => 0
    BitVec.ofNat 64 (r.seq % 2 ^ 32 + 2 ^ 32 * grp + 2 ^ 40)

/-- What a group of the ring holds: the last write of it that waits, else the store's group, none where that is torn. -/
def State.ringAt (s : State) (i : Nat) : Option (BitVec 64) :=
  let waiting := s.nvs.queue.filterMap (fun w =>
    if w.page = ringPage i then (w.groups.find? (fun g => g.1 == ringGroup i)).map (·.2) else none)
  match waiting.getLast? with
  | some d => some d
  | none =>
    let g := s.nvGroupAt (ringPage i) (ringGroup i)
    if nvVerifies g then some (nvData g) else none

/-- Shows the records held (R349). -/
def State.showRing (s : State) : State :=
  let q := s.evr.ring
  let newest := match q.getLast? with | some r => r.seq | none => 0
  let oldest := match q with | r :: _ => r.seq | [] => 0
  let bytes := 8 * (q.map (fun r => if r.located then r.groups else 0)).sum
  (((s.wr R.EVR_NEWEST_SEQ (BitVec.ofNat 32 newest)).wr R.EVR_OLDEST_SEQ (BitVec.ofNat 32 oldest)).put
    F.EVR_COUNT_records q.length).put F.EVR_BYTES_ring bytes

/-- Records from the oldest on that touch a page. -/
def dropTouching (p : Nat) : List RingRec → List RingRec
  | [] => []
  | r :: rs => if r.touches p then dropTouching p rs else r :: rs

/-- Before the first group of a page is reused, every record with a group in it is discarded whole (R342). -/
def State.discardPage (s : State) (p : Nat) : State :=
  let kept := dropTouching p s.evr.ring
  let k := s.evr.ring.length - kept.length
  if k = 0 then s
  else
    let t : State := { s with evr.ring := kept }
    (t.satReg R.EVR_LOST k).put F.EVR_STAT_WRAPPED 1

/-- The page writes of some groups of the ring, one for each page in order, with the page's header (R342). -/
def State.writeRing (s : State) (data : List (Nat × BitVec 64)) (last : NvsDone) : State :=
  let pages := (data.map (fun g => ringPage g.1)).eraseDups
  let n := pages.length
  pages.zipIdx.foldl (fun (s : State) p =>
    let gs := data.filterMap (fun g => if ringPage g.1 = p.1 then some (ringGroup g.1, g.2) else none)
    s.nvEnqueue ⟨p.1, (0, s.ringHeader p.1) :: gs, if p.2 + 1 = n then last else .plain⟩) s

/-- An append of one record (R339, R342). Mark 50 is set once a record has been appended since POR. -/
def State.appendRecord (s : State) (e : EventRec) : State :=
  let seq := s.evr.nextSeq
  let groups := (chunks 8 128 (e.bytes seq)).map (ofBytes 64)
  let r : RingRec := ⟨seq, s.evr.nextPos, groups.length, true⟩
  let t := r.idx.foldl (fun (s : State) i => if i % 31 = 0 then s.discardPage (ringPage i) else s) s
  let t : State := { t with
    evr.ring := t.evr.ring ++ [r]
    evr.nextPos := (r.pos + r.groups) % ringSize
    evr.nextSeq := (seq + 1) % 2 ^ 32 }
  let t := t.writeRing (List.zip r.idx groups) (.ring e.born)
  let t := (t.put F.EVR_LAST_CLASS e.cls).put F.EVR_LAST_CODE e.code
  let t := match mapGet? t.marks 50 with
    | some _ => t
    | none =>
      let u : State := { t with marks := mapPut t.marks 50 t.now }
      u.wr R.EVR_FIRST_SEQ_POR (BitVec.ofNat 32 seq)
  t.showRing

/-- The front of the append queue goes to the ring; when the queue empties, the events dropped are recorded (R343). An append
waits while a clear runs (R348) and while the store's queue is full (R327). -/
def State.eventAppend (s : State) : State :=
  if s.seq.por || !s.flag F.EVR_STAT_READY || s.evr.clearRun.isSome || decide (16 ≤ s.nvs.queue.length) then s
  else match s.evr.queue with
    | [] => s
    | e :: es =>
      let t : State := { s with evr.queue := es }
      let t := t.put F.EVR_PENDING_records es.length
      let t := t.appendRecord e
      if es.isEmpty && t.evr.dropWait != 0 then
        let n := t.evr.dropWait
        State.post { t with evr.dropWait := 0 } 0x0C 0x07 0 n
      else t

/-! ### The scan (R344) -/

/-- FIRST_SEQ and FIRST_GRP of a ring page that holds records. -/
def State.ringHead (s : State) (p : Nat) : Option (Nat × Nat) :=
  let g := s.nvGroupAt p 0
  let d := (nvData g).toNat
  if nvVerifies g ∧ d / 2 ^ 40 % 2 = 1 then some (d % 2 ^ 32, d / 2 ^ 32 % 256) else none

/-- SEQ, and groups, that a record's header at a group gives; none where it is torn or has CLASS 0x00 (R344). -/
def State.recHead (s : State) (i : Nat) : Option (Nat × Nat) :=
  let g := s.nvGroupAt (ringPage i) (ringGroup i)
  let d := (nvData g).toNat
  let len := d / 2 ^ 48 % 1024
  if nvVerifies g ∧ d / 2 ^ 32 % 256 ≠ 0 ∧ 24 ≤ len ∧ len % 8 = 0 then some (d % 2 ^ 32, 1 + len / 8) else none

/-- Walks records forward by LEN from a group, expecting a SEQ, within a page if one is given: the records, the group after them,
and whether the walk stopped at a torn header. -/
def State.ringWalk (s : State) (page : Option Nat) : Nat → Nat → Nat → List RingRec × Nat × Bool
  | 0, i, _ => ([], i, false)
  | fuel + 1, i, exp =>
    if page.any (fun p => p != ringPage i) then ([], i, false)
    else match s.recHead i with
      | none => ([], i, !nvVerifies (s.nvGroupAt (ringPage i) (ringGroup i)))
      | some (q, n) =>
        if q = exp then
          let r := s.ringWalk page fuel ((i + n) % ringSize) ((exp + 1) % 2 ^ 32)
          (⟨q, i, n, true⟩ :: r.1, r.2.1, r.2.2)
        else ([], i, false)

/-- The first record that begins in a page: its group, and its SEQ as the headers give it. -/
def State.firstIn (s : State) (p : Nat) : Option (Nat × Nat) :=
  match s.ringHead p with
  | none => none
  | some (q, g) =>
    if 1 ≤ g ∧ g ≤ 31 then
      let i := p * 31 + (g - 1)
      let next := (q + 1) % 2 ^ 32
      match s.recHead i with
      | some (r, _) => if r = q ∨ r = next then some (i, r) else some (i, if g = 1 then q else next)
      | none => some (i, if g = 1 then q else next)
    else none

/-- The newest page (R344 step 1). -/
def State.newestPage (s : State) : Option (Nat × Nat) :=
  (List.range 512).foldl (fun m p => match s.ringHead p, m with
    | some (q, _), none => some (p, q)
    | some (q, _), some (_, b) => if q = b ∨ newerA q b then some (p, q) else m
    | none, _ => m) none

/-- One entry for each SEQ from the oldest to the newest: the located record, or a place between its neighbours. -/
def fillRing (found : List RingRec) (endPos : Nat) : Nat → List Nat → List RingRec
  | _, [] => []
  | pos, q :: qs =>
    match found.find? (fun r => r.seq == q) with
    | some r => r :: fillRing found endPos ((r.pos + r.groups) % ringSize) qs
    | none =>
      let next := match qs.findSome? (fun x => found.find? (fun r => r.seq == x)) with
        | some r => r.pos
        | none => endPos
      ⟨q, pos, (next + ringSize - pos) % ringSize, false⟩ :: fillRing found endPos pos qs

/-- The records as the scan finds them: the ring, where and with which SEQ the next append starts, how many records were located,
and whether the walk stopped at a torn header (R344). -/
def State.findRing (s : State) : List RingRec × Nat × Nat × Nat × Bool :=
  match s.newestPage with
  | none => ([], 0, 1, 0, false)
  | some (p, q) =>
    let older := (List.range 511).filterMap (fun k => s.firstIn ((p + 1 + k) % 512))
    let before := older.flatMap (fun x => (s.ringWalk (some (ringPage x.1)) 31 x.1 x.2).1)
    let start := match s.firstIn p with
      | some x => some x
      | none => (before.find? (fun (r : RingRec) => r.seq == q)).map (fun (r : RingRec) => (r.pos, q))
    let tail := match start with
      | some x => s.ringWalk none ringSize x.1 x.2
      | none => ([], (p + 1) % 512 * 31, false)
    let nextSeq := match tail.1.getLast?, start with
      | some r, _ => (r.seq + 1) % 2 ^ 32
      | none, some x => x.2
      | none, none => (q + 1) % 2 ^ 32
    let found := before ++ tail.1
    let oldest := match older, start with
      | x :: _, _ => x
      | [], some x => x
      | [], none => (tail.2.1, nextSeq)
    let n := min ((nextSeq + 2 ^ 32 - oldest.2) % 2 ^ 32) ringSize
    let seqs := (List.range n).map (fun k => (oldest.2 + k) % 2 ^ 32)
    let ring := fillRing found tail.2.1 oldest.1 seqs
    (ring, tail.2.1, nextSeq, (ring.filter (·.located)).length, tail.2.2)

/-- A record holds a torn group. -/
def State.tornRec (s : State) (r : RingRec) : Bool := r.located && r.idx.any (fun i => (s.ringAt i).isNone)

/-- The recorder's scan: what waits to be written, and a clear that runs, stay as they are. -/
def State.evrScan (s : State) : State :=
  if s.flag F.EVR_STAT_READY &&
      (s.evr.clearRun.isSome || s.nvs.queue.any (fun w => decide (w.page < 512))) then s
  else
    let (ring, pos, seq, n, torn) := s.findRing
    let t : State := { s with
      evr.ring := ring
      evr.nextPos := pos
      evr.nextSeq := seq }
    let t := (t.put F.EVR_SCAN_RECORDS n).put F.EVR_SCAN_TORN (if torn then 1 else 0)
    let t := t.wr R.EVR_TORN_REC (BitVec.ofNat 32 ((ring.filter t.tornRec).length))
    let t := match ring.getLast? with
      | some r => match t.ringAt r.pos with
        | some d => (t.put F.EVR_LAST_CLASS (d.toNat / 2 ^ 32 % 256)).put F.EVR_LAST_CODE (d.toNat / 2 ^ 40 % 256)
        | none => t
      | none => t
    (t.put F.EVR_STAT_READY 1).showRing

/-! ### Cursors (R345, R346) -/

/-- The paths that have a cursor. -/
def Path.hasCursor : Path → Bool
  | .mgmt => true
  | .cc => true
  | _ => false

def State.setCursor (s : State) (p : Path) (c : CursorSt) : State := s.setPath p { s.path p with cur := c }

/-- The load of a record: its bytes are taken now, and VALID comes with CURSOR_LOAD_DONE. `stat` is CUR_STAT as it will read. -/
def State.loadRecord (s : State) (p : Path) (r : RingRec) (lost : Bool) : State :=
  let gs := r.idx.map s.ringAt
  let torn := gs.any (·.isNone)
  let bytes := gs.flatMap (fun g => toBytes 8 (g.getD (BitVec.allOnes 64)))
  let stat := 1 + (if lost then 2 else 0) + (if torn then 8 else 0) + 16 * bytes.length
  s.setCursor p { (s.path p).cur with
    seq := BitVec.ofNat 32 r.seq
    stat := 0
    bytes := bytes
    loading := some stat }

/-- No record with that SEQ exists yet: NONE, and CUR_SEQ keeps the value named. -/
def State.noRecord (s : State) (p : Path) (seq : Word) : State :=
  s.setCursor p { (s.path p).cur with
    seq := seq
    stat := 4
    bytes := []
    loading := none }

/-- Loads the record with a SEQ, or the next that can be located, or the oldest for one discarded (R344, R345). -/
def State.loadSeq (s : State) (p : Path) (seq : Word) : State :=
  match s.evr.ring with
  | [] => s.noRecord p seq
  | o :: rs =>
    let all := o :: rs
    let d := (seq.toNat + 2 ^ 32 - o.seq) % 2 ^ 32
    let newest := o.seq + rs.length
    if d < all.length then
      match (all.drop d).find? (·.located) with
      | some r => s.loadRecord p r (r.seq != seq.toNat)
      | none => s.noRecord p seq
    else if newerA seq.toNat (newest % 2 ^ 32) then s.noRecord p seq
    else match all.find? (·.located) with
      | some r => s.loadRecord p r true
      | none => s.noRecord p seq

/-- The cursor port answers this path. -/
def State.cursorOpen (s : State) (p : Path) : Bool := Path.hasCursor p && !s.seq.por

def State.curSeqWrite (s : State) (p : Path) (v : Word) : State := if s.cursorOpen p then s.loadSeq p v else s

def State.curNext (s : State) (p : Path) : State :=
  if s.cursorOpen p then s.loadSeq p ((s.path p).cur.seq + 1) else s

def State.curOldest (s : State) (p : Path) : State :=
  if s.cursorOpen p then s.loadSeq p (s.rd R.EVR_OLDEST_SEQ) else s

def State.curNewest (s : State) (p : Path) : State :=
  if s.cursorOpen p then s.loadSeq p (s.rd R.EVR_NEWEST_SEQ) else s

def State.cursorLoadDone (s : State) (p : Path) : State :=
  match (s.path p).cur.loading with
  | none => s
  | some st => s.setCursor p { (s.path p).cur with
      stat := BitVec.ofNat 32 st
      loading := none }

/-- A write of the cursor port at a dword offset (R345): CUR_CMD's lowest set bit is taken. -/
def State.writeCursor (s : State) (p : Path) (off : Nat) (v : Word) : State :=
  if !s.cursorOpen p then s
  else if off = 0 then s.curSeqWrite p v
  else if off = 4 then
    (if v.getLsbD 0 then s.curNext p else if v.getLsbD 1 then s.curOldest p
      else if v.getLsbD 2 then s.curNewest p else s)
  else if off = 8 then s.setCursor p { (s.path p).cur with off := v.toNat % 4 }
  else s

/-- A read of the cursor port at a dword offset. -/
def State.readCursor (s : State) (p : Path) (off : Nat) : Word :=
  if !s.cursorOpen p then 0
  else
    let c := (s.path p).cur
    if off = 0 then c.seq else if off = 8 then BitVec.ofNat 32 c.off else if off = 12 then c.stat else 0

/-- A read of the event window at a dword offset: 256 bytes of the record loaded (R345, R346). -/
def State.readEventWindow (s : State) (p : Path) (off : Nat) : Word :=
  let c := (s.path p).cur
  if s.cursorOpen p && c.stat.getLsbD 0 then ofBytes 32 ((c.bytes.drop (256 * c.off + off)).take 4) else 0

/-! ### The clear (R347, R348) -/

/-- The code that answers EVR_CLEAR, in the order of EVR_STAT.CLEAR_CODE. -/
def State.clearCode (s : State) (v : Word) : Nat :=
  let upto := (s.rd R.EVR_CLEAR_UPTO).toNat
  let oldest := (s.rd R.EVR_OLDEST_SEQ).toNat
  if F.EVR_CLEAR_KEY.of v ≠ 0x434C then 1
  else if s.evr.ring.length ≤ (upto + 2 ^ 32 - oldest) % 2 ^ 32 then 2
  else if s.service = svHalted then 3
  else if s.evr.clearRun.isSome then 4
  else 0

/-- Step 2: zeros in every group of the records removed, with each page's header, after the record of the clear. -/
def State.clearZero (s : State) (k : Nat) : State :=
  let gone := (s.evr.ring.take k).filter (·.located)
  let t : State := { s with evr.ring := s.evr.ring.drop k }
  (t.writeRing (gone.flatMap (fun r => r.idx.map (fun i => (i, 0#64)))) .plain).showRing

/-- A write of EVR_CLEAR: KEY is kept, and GO starts a clear. -/
def State.evrClear (s : State) (p : Path) (v : Word) : State :=
  if p == .mgmt && s.answers .evr && s.authorised then
    let code := s.clearCode v
    let s := s.put F.EVR_CLEAR_KEY (F.EVR_CLEAR_KEY.of v)
    let t := s.put F.EVR_STAT_CLEAR_CODE code
    if !F.EVR_CLEAR_GO.on v then s
    else if code ≠ 0 then t
    else
      let upto := (s.rd R.EVR_CLEAR_UPTO).toNat
      let oldest := (s.rd R.EVR_OLDEST_SEQ).toNat
      let n := (upto + 2 ^ 32 - oldest) % 2 ^ 32 + 1
      let t := t.appendRecord ⟨0x0A, 0x01, t.evTime, BitVec.ofNat 64 (oldest + 2 ^ 32 * upto), BitVec.ofNat 64 n, [],
        t.now, false⟩
      let gone := t.evr.ring.length - (s.evr.ring.length + 1 - n)
      let t := t.clearZero gone
      State.put { t with evr.clearRun := some (oldest, upto) } F.EVR_STAT_CLEARING 1
  else s

/-- Step 3, once every page of the clear is written. -/
def State.evrClearDone (s : State) : State :=
  match s.evr.clearRun with
  | none => s
  | some (_, upto) =>
    if s.nvs.queue.any (fun w => decide (w.page < 512)) then s
    else
      let t : State := { s with evr.clearRun := none }
      (t.wr R.EVR_CLEAR_SEQ (BitVec.ofNat 32 upto)).put F.EVR_STAT_CLEARING 0

/-! ### The commands -/

def execEventAppend (s : State) : Host.Outcome State Fault Refusal := .next s.eventAppend
def execCurSeqWrite (p : Path) (v : Word) (s : State) : Host.Outcome State Fault Refusal := .next (s.curSeqWrite p v)
def execCurNext (p : Path) (s : State) : Host.Outcome State Fault Refusal := .next (s.curNext p)
def execCurOldest (p : Path) (s : State) : Host.Outcome State Fault Refusal := .next (s.curOldest p)
def execCurNewest (p : Path) (s : State) : Host.Outcome State Fault Refusal := .next (s.curNewest p)
def execCursorLoadDone (p : Path) (s : State) : Host.Outcome State Fault Refusal := .next (s.cursorLoadDone p)
def execEvrClear (p : Path) (v : Word) (s : State) : Host.Outcome State Fault Refusal := .next (s.evrClear p v)
def execEvrClearDone (s : State) : Host.Outcome State Fault Refusal := .next s.evrClearDone

end Sys2Proof.Machine
end

