-- ==== Sys2Proof/Machine/Vault.lean ====
section
/-! DEFINITION. The key vault cipher (R350 to R361): vault slots and their record, tokens and the authorisation they open, the lock,
the cipher operations, and the alarms that erase keys. -/

namespace Sys2Proof.Machine

/-! ### Vault slots and their record (R350) -/

/-- V1 and V3 to V15, in the record's order. -/
def ownerSlots : List Nat := [1, 3, 4, 5, 6, 7, 8, 9, 10, 11, 12, 13, 14, 15]

def State.vslot (s : State) (v : Nat) : Option (BitVec 256) := mapGet? s.kvc.slots v

/-- The slots with one loaded or emptied. -/
def putVslot (m : SMap (BitVec 256)) (v : Nat) (k : Option (BitVec 256)) : SMap (BitVec 256) :=
  match k with
  | some k => mapPut m v k
  | none => mapDel m v

/-- Shows which slots hold a key. -/
def State.showVslots (s : State) : State :=
  s.put F.KVC_VSLOTS_bit ((List.range 16).foldl (fun m v => if (s.vslot v).isSome then m + 2 ^ v else m) 0)

def State.setVslots (s : State) (m : SMap (BitVec 256)) : State := State.showVslots { s with kvc.slots := m }

/-- V0, from the device's secrets (R350, R72). -/
def vaultKey : BitVec 256 :=
  ofBytes 256 (kdf (toBytes 32 Config.rootSecret) (asciiBytes "N16 KEY VAULT") (toBytes 8 Config.serial) 256)

/-- Contents of the key vault record for some slots (R350). -/
def vaultRecord (v0 : BitVec 256) (m : SMap (BitVec 256)) : List Byte :=
  leBytes 8 1 ++ ownerSlots.flatMap (fun v => match mapGet? m v with
    | some k => kwWrapBytes (toBytes 32 v0) (toBytes 32 k)
    | none => List.replicate 40 0)

/-- Stores the record of some slots under V0, with the copy and SEQ that the store writes (R331). -/
def State.storeVault (s : State) (m : SMap (BitVec 256)) : State :=
  match s.vslot 0 with
  | some v0 => s.storeRecord 5 (vaultRecord v0 m)
  | none => s

/-- Loads V1 and V3 to V15 from the record in use (R350, R359). -/
def State.loadVault (s : State) : State :=
  match s.vslot 0 with
  | none => s
  | some v0 =>
    let bs := (s.recUsed 5).getD []
    s.setVslots (ownerSlots.zipIdx.foldl (fun m v =>
      let w := (bs.drop (8 + 40 * v.2)).take 40
      putVslot m v.1 (if w.length = 40 ∧ w.any (· != 0) then (kwUnwrapBytes (toBytes 32 v0) w).map (ofBytes 256) else none))
      s.kvc.slots)

/-- A record store of the key vault still waits in the NV store's queue. -/
def State.vaultWaits (s : State) (w : Option (Bool × Nat)) : Bool :=
  match w with
  | none => false
  | some (b, q) => s.nvs.queue.any (fun x => match x.done with
    | .record 5 c r => c == b && r.toNat == q
    | _ => false)

/-- That store ended with its copy in use. -/
def State.vaultStored (s : State) (w : Option (Bool × Nat)) : Bool :=
  match w with
  | none => true
  | some (b, q) => mapGet? s.nvs.inUse 5 == some b && (s.rd (R.NVS_REC_SEQ 5)).toNat == q

/-! ### The buffer and the lock (R357) -/

/-- Refused at alarm level 2 or 3, until POR (R360). -/
def State.vaultDead (s : State) : Bool := decide (2 ≤ s.get F.KVC_ALARM_LEVEL)

/-- Zeroes the buffer and releases a lock that the management port holds. -/
def State.releaseLock (s : State) : State :=
  if s.get F.KVC_LOCK_OWNER = 2 then State.put { s with kvc.buf := [] } F.KVC_LOCK_OWNER 0 else s

/-- The management port reads and writes the buffer: it holds the lock and no operation runs (R357, R358). -/
def State.bufferOpen (s : State) (p : Path) : Bool :=
  p == .mgmt && !s.seq.por && s.get F.KVC_LOCK_OWNER == 2 && s.kvc.run.isNone

def State.readBuffer (s : State) (p : Path) (off : Nat) : Word :=
  if s.bufferOpen p then mapGet (fun _ => 0) s.kvc.buf (off / 4) else 0

def State.writeBuffer (s : State) (p : Path) (off : Nat) (v : Word) : State :=
  if s.bufferOpen p then { s with kvc.buf := mapSet (fun _ => 0) s.kvc.buf (off / 4) v } else s

/-- The first bytes of the buffer. -/
def State.bufferBytes (s : State) (n : Nat) : List Byte :=
  ((List.range ((n + 3) / 4)).flatMap (fun i => toBytes 4 (mapGet (fun _ => (0 : Word)) s.kvc.buf i))).take n

/-- Puts bytes at the start of the buffer; the rest stays. -/
def State.fillBuffer (s : State) (bs : List Byte) : State :=
  let all := bs ++ (s.bufferBytes 4096).drop bs.length
  let buf := ((chunks 4 1024 all).map (ofBytes 32)).zipIdx.foldl (fun m w => mapSet (fun _ => (0 : Word)) m w.2 w.1) []
  { s with kvc.buf := buf }

/-! ### The authorisation (R353) -/

/-- The authorisation closes; a lock of the management port goes with it once no operation runs (R359). -/
def State.closeAuth (s : State) : State :=
  let t : State := { s.wr R.KVC_AUTH 0 with marks := mapDel s.marks 51 }
  match t.kvc.run with
  | none => t.releaseLock
  | some r => { t with kvc.run := some { r with release := true } }

/-- The authorisation opens for WINDOW_S seconds; mark 51 is when it is to close. -/
def State.openAuth (s : State) : State :=
  let t := s.put F.KVC_AUTH_OPEN 1
  { t with marks := mapPut t.marks 51 (t.now + t.get F.KVC_AUTH_CFG_WINDOW_S * 200000000) }

/-- KVC_AUTH as it reads: the seconds that remain are rounded up. -/
def State.readAuth (s : State) : Word :=
  match s.authorised, mapGet? s.marks 51 with
  | true, some t => BitVec.ofNat 32 (1 + 2 * ((t - s.now + 199999999) / 200000000))
  | _, _ => 0

/-! ### Alarms (R360) -/

/-- Level of an alarm source: 0 HALT line and 1 Vendor-debug entry at level 1, the others at level 2, or 3 with WIPE. -/
def State.alarmLevel (s : State) (src : Nat) : Nat :=
  if src ≤ 1 then 1 else if s.flag F.KVC_AUTH_CFG_WIPE then 3 else 2

/-- The key slot array, its shadows and KEKs are erased, and the zeroise is recorded (R22, R91 step 8). -/
def State.zeroise (s : State) : State := (s.zeroiseKeys).post 0x06 0x03 0 0

/-- Both copies of the key vault record are to be zeroed, header group first (R360 level 3). -/
def State.wipeVault (s : State) : State :=
  [1032, 1033, 1034, 1096, 1097, 1098].foldl (fun (s : State) p =>
    s.nvEnqueue ⟨p, (List.range 32).map (fun k => (k, 0#64)), .plain⟩) s

/-- An operation in progress is stopped by an alarm (R359). -/
def State.stopCipher (s : State) : State :=
  if s.kvc.run.isSome then
    let t : State := { s with
      kvc.run := none
      kvc.buf := [] }
    ((t.put F.KVC_STAT_BUSY 0).put F.KVC_STAT_CODE 3).put F.KVC_LOCK_OWNER 0
  else s

/-- An alarm. The HALT line's own zeroise is the Halted sequence's (R91 step 8). -/
def State.alarm (s : State) (src : Nat) : State :=
  let lvl := s.alarmLevel src
  let t := if src = 0 then s else s.zeroise
  let t := if src = 1 then t.setVslots (ownerSlots.foldl (fun m v => mapDel m v) t.kvc.slots) else t
  let t := if 2 ≤ lvl then t.setVslots [] else t
  let t := if lvl = 3 then t.wipeVault else t
  let t := t.stopCipher.closeAuth
  let src' := t.get F.KVC_ALARM_SOURCES ||| 2 ^ src
  let t := (t.put F.KVC_ALARM_SOURCES src').put F.KVC_ALARM_LEVEL (max lvl (t.get F.KVC_ALARM_LEVEL))
  (t.sat F.KVC_ALARM_CNT_alarms 1).post 0x06 0x04 src (t.rd R.KVC_ALARM).toNat

/-! ### Vendor-debug (R392, R238, R266, R280) -/

/-- Entry to Vendor-debug: the alarm, Hold, engines and queues stopped as in Halted. -/
def State.enterVendor (s : State) : State :=
  let t := s.setTrust trVendor 6
  let t := (t.haltEngines.stopQueues).alarm 1
  (t.bump 6).hold F.MODE_HOLD_WHY_VDEBUG true 6

/-! ### The token port (R351, R352) -/

/-- The token port answers: only the management port uses it. -/
def State.portOpen (s : State) (p : Path) : Bool := p == .mgmt && !s.seq.por

/-- Shows the current challenge, or 0 when there is none. -/
def State.setChal (s : State) (c : Option (BitVec 128)) : State :=
  let t : State := { s with kvc.chal := c }
  (List.range 4).foldl (fun (s : State) i => s.wr (R.KVC_CHAL i) ((c.getD 0).extractLsb' (32 * i) 32)) t

def State.setResult (s : State) (r : Nat) : State := { s with kvc.result := r }

/-- CMD 0x1: a challenge, whose value is free (log 7); mark 90 is when it was made. -/
def State.newChallenge (s : State) (p : Path) : State :=
  if !s.portOpen p then s
  else if s.kvc.tok.isSome then s.setResult 6
  else if s.vaultDead then s.setResult 4
  else
    let (f, t) := s.fresh
    ((t.setChal (some (f.extractLsb' 0 128))).setResult 0).mark 90

/-- Bytes of the token port from an offset. -/
def State.portBytes (s : State) (off n : Nat) : List Byte :=
  ((List.range (n / 4)).flatMap (fun i => toBytes 4 (mapGet (fun _ => (0 : Word)) s.kvc.port (off + 4 * i))))

/-- The trust axis and the power axis allow a token of purpose 0x02 or 0x03 (R392). -/
def State.trustAllows (s : State) (purpose : Nat) : Bool :=
  s.lit && (if purpose = 2 then s.trust == trSealed else s.trust != trVendor)

/-- A token is right for a challenge (R351). -/
def tokenOk (key : BitVec 256) (chal : BitVec 128) (purpose : Nat) (token : List Byte) : Bool :=
  (cmac (toBytes 32 key) (toBytes 16 chal ++ leBytes 1 purpose ++ toBytes 8 Config.serial)).take 16 == token

/-- What a token presented now ends with: RESULT, and the new owner key that it brings (R352, R354). -/
def State.checkToken (s : State) (purpose : Nat) : Nat × Option (BitVec 256) :=
  let token := s.portBytes 0x08 16
  let body := s.portBytes 0x18 40
  let verify := fun (key : BitVec 256) => match s.kvc.chal with
    | none => 3
    | some c => if tokenOk key c purpose token then 1 else 2
  if s.vaultDead then (4, none)
  else if purpose = 3 then
    (match s.vslot 2 with
      | some k => if s.trustAllows 3 then (verify k, none) else (5, none)
      | none => (5, none))
  else if purpose = 1 ∨ purpose = 2 then
    (match s.vslot 1 with
      | some k => if purpose = 1 || s.trustAllows 2 then (verify k, none) else (5, none)
      | none => (5, none))
  else if purpose = 4 ∧ s.flag F.NVS_STATUS_READY then
    (match s.vslot 1 with
      | none => (1, some (ofBytes 256 (body.take 32)))
      | some k =>
        let r := verify k
        if r ≠ 1 then (r, none)
        else match kwUnwrapBytes (toBytes 32 k) body with
          | some n => (1, some (ofBytes 256 n))
          | none => (2, none))
  else (5, none)

/-- CMD 0x2: the check begins, at mark 91; a challenge serves one check, and a change of owner stores its record (R351, R354). -/
def State.presentToken (s : State) (p : Path) (purpose : Nat) : State :=
  if !s.portOpen p then s
  else if s.kvc.tok.isSome then s.setResult 6
  else
    let (code, owner) := s.checkToken purpose
    let spent := !(purpose == 4 && (s.vslot 1).isNone)
    let t := (s.setResult 0).mark 91
    let t := if spent then t.setChal none else t
    match owner with
    | none => { t with kvc.tok := some ⟨purpose, code, none, none⟩ }
    | some k =>
      let want := t.recNext 5
      let t := t.storeVault (mapPut (ownerSlots.foldl (fun m v => mapDel m v) t.kvc.slots) 1 k)
      { t with kvc.tok := some ⟨purpose, code, some k, some want⟩ }

/-- CMD 0x3. -/
def State.closeAuthorisation (s : State) (p : Path) : State :=
  if !s.portOpen p then s
  else if s.kvc.tok.isSome then s.setResult 6
  else s.closeAuth

/-- A wrong token (R352). -/
def State.wrongToken (s : State) (purpose : Nat) : State :=
  let t := s.bump (if purpose = 3 then 11 else 10)
  let t := (t.sat F.KVC_TOKEN_FAIL_consecutive 1).sat F.KVC_TOKEN_FAIL_wrong 1
  let t := t.post 0x06 0x05 purpose 2
  if t.get F.KVC_AUTH_CFG_FAIL_LIMIT ≤ t.get F.KVC_TOKEN_FAIL_consecutive then t.alarm 6 else t

/-- An accepted token (R353, R354, R392). -/
def State.acceptToken (s : State) (r : TokRun) : State :=
  let t := s.put F.KVC_TOKEN_FAIL_consecutive 0
  if r.purpose = 1 then (t.openAuth).post 0x06 0x06 1 1
  else if r.purpose = 2 then (t.setTrust trOwner 6).bump 7
  else if r.purpose = 3 then t.enterVendor
  else match r.owner with
    | some k => t.setVslots (mapPut (ownerSlots.foldl (fun m v => mapDel m v) t.kvc.slots) 1 k)
    | none => t

/-- The check ends, 1 ms after it began. A change of owner reports once its record is stored; RESULT is open when that store failed (log 7). -/
def State.tokenCheckDone (s : State) : State :=
  match s.kvc.tok with
  | none => s
  | some r =>
    if s.vaultWaits r.want || !s.passed 91 200000 then s
    else
      let t : State := { s with kvc.tok := none }
      if r.code = 2 then (t.wrongToken r.purpose).setResult 2
      else if r.code ≠ 1 then t.setResult r.code
      else if t.vaultDead then t.setResult 4
      else if (r.purpose = 2 ∨ r.purpose = 3) ∧ !t.trustAllows r.purpose then t.setResult 5
      else if !t.vaultStored r.want then
        let (f, t) := t.fresh
        t.setResult (f.toNat % 7)
      else (t.acceptToken r).setResult 1

/-- Ten seconds after a challenge was made (R351). -/
def State.challengeExpiry (s : State) : State :=
  if s.kvc.chal.isSome && s.passed 90 (10 * oneSecond) then s.setChal none else s

/-- The window of the authorisation ends (R353). -/
def State.authorisationExpiry (s : State) : State := if s.authorised && s.passed 51 0 then s.closeAuth else s

/-- A write of the token port at a dword offset (R352). -/
def State.writeToken (s : State) (p : Path) (off : Nat) (v : Word) : State :=
  if !s.portOpen p then s
  else if off = 0 then
    (let c := fieldGet v 0 4
     if c = 1 then s.newChallenge p
     else if c = 2 then s.presentToken p (fieldGet v 4 8)
     else if c = 3 then s.closeAuthorisation p
     else s)
  else if 8 ≤ off then { s with kvc.port := mapSet (fun _ => 0) s.kvc.port off v }
  else s

/-- A read of the token port: TP_STAT at 0x04; the rest is write-only. -/
def State.readToken (s : State) (p : Path) (off : Nat) : Word :=
  if s.portOpen p && off == 4 then BitVec.ofNat 32 (s.kvc.result + (if s.kvc.tok.isSome then 16 else 0)) else 0

/-! ### The lock (R357) -/

/-- A claim or release of the lock by the safety partition, or by a write of KVC_LOCK on a path. -/
def State.kvcLockWrite (s : State) (safety : Bool) (p : Path) (v : Word) : State :=
  let me := if safety then 1 else 2
  let may := !s.seq.por && (safety || (p == .mgmt && s.authorised))
  let o := F.KVC_LOCK_OWNER.of v
  let now := s.get F.KVC_LOCK_OWNER
  if may && o == me && now == 0 then s.put F.KVC_LOCK_OWNER me
  else if may && o == 0 && now == me then s.put F.KVC_LOCK_OWNER 0
  else s

/-- The management port has reached the KVC block or the buffer: the 100 ms of R357 start again, at mark 92. -/
def State.useVault (s : State) (p : Path) : State := if p == .mgmt && !s.seq.por then s.mark 92 else s

/-- 100 ms without a management access while no operation runs (R357). -/
def State.kvcLockBreak (s : State) : State := if s.kvc.run.isNone && s.passed 92 ms100 then s.releaseLock else s

/-! ### Cipher operations (R356, R358) -/

/-- Key IV, tag and 4 dwords of registers as bytes. -/
def State.kvcIv (s : State) : List Byte := (List.range 3).flatMap (fun i => toBytes 4 (s.rd (R.KVC_IV i)))
def State.kvcTag (s : State) : List Byte := (List.range 4).flatMap (fun i => toBytes 4 (s.rd (R.KVC_TAG i)))

/-- What an operation does, worked out when it starts; none where it is refused with CODE 0x1. -/
def State.kvcStart (s : State) (mode v : Nat) : Option KvcRun :=
  let len := s.get F.KVC_LEN_LEN
  let aad := s.get F.KVC_LEN_AAD
  let bs := s.bufferBytes len
  let key := fun (k : BitVec 256) => toBytes 32 k
  let run := fun (ok : Bool) (data : List Byte) (tag : Option (List Byte)) =>
    (⟨mode, ok, data, tag.map (ofBytes 128), none, none, false, 0⟩ : KvcRun)
  if v < 3 then none
  else if mode = 7 then
    (match s.vslot 1 with
      | none => none
      | some k1 => if len ≠ 40 then none else match kwUnwrapBytes (key k1) bs with
        | some n => some ⟨7, true, [], none, some (v, some (ofBytes 256 n)), some (s.recNext 5), false, 0⟩
        | none => some ⟨7, false, [], none, none, none, false, 0⟩)
  else if mode = 8 then some ⟨8, true, [], none, some (v, none), some (s.recNext 5), false, 0⟩
  else match s.vslot v with
    | none => none
    | some k =>
      let a := bs.take aad
      let body := bs.drop aad
      if mode = 1 then
        (if len ≤ 4096 ∧ aad ≤ len then
          let ct := gcmCrypt (key k) s.kvcIv body
          some (run true (a ++ ct) (some (gcmTag (key k) s.kvcIv a ct)))
        else none)
      else if mode = 2 then
        (if len ≤ 4096 ∧ aad ≤ len then
          some (run (gcmTag (key k) s.kvcIv a body == s.kvcTag) (a ++ gcmCrypt (key k) s.kvcIv body) none)
        else none)
      else if mode = 3 then
        (if 16 ≤ len ∧ len ≤ 4088 ∧ len % 8 = 0 then some (run true (kwWrapBytes (key k) bs) none) else none)
      else if mode = 4 then
        (if 24 ≤ len ∧ len ≤ 4096 ∧ len % 8 = 0 then
          (match kwUnwrapBytes (key k) bs with
            | some x => some (run true x none)
            | none => some (run false [] none))
        else none)
      else if mode = 5 then (if len ≤ 4096 then some (run true [] (some (cmac (key k) bs))) else none)
      else if mode = 6 then (if len ≤ 4096 then some (run (cmac (key k) bs == s.kvcTag) [] none) else none)
      else none

/-- Cycles that an operation takes in the engine: 352 for each AES block, and 32 at the end of a GCM operation (R355). GCM encrypts the
hash key, the tag's block and its data; key wrap has six blocks for each 64-bit block, and CMAC one for its subkeys. Sealing the
record is the safety partition's own (log 77). -/
def kvcCycles (mode len aad : Nat) : Nat :=
  if mode = 1 ∨ mode = 2 then 352 * (2 + (len - aad + 15) / 16) + 32
  else if mode = 3 then 352 * (6 * (len / 8))
  else if mode = 4 ∨ mode = 7 then 352 * (6 * (len / 8 - 1))
  else if mode = 5 ∨ mode = 6 then 352 * (1 + max 1 ((len + 15) / 16))
  else 0

/-- Modes whose output is held until it verifies, and CMAC_VERIFY. -/
def heldMode (m : Nat) : Bool := [2, 4, 6, 7].contains m

/-- A write of KVC_CTL: by the management port after authorisation, while it holds the lock (R356, R359). -/
def State.writeKvcCtl (s : State) (p : Path) (v : Word) : State :=
  if p == .mgmt && !s.seq.por && s.authorised && s.get F.KVC_LOCK_OWNER == 2 then
    let go := F.KVC_CTL_GO.on v
    if go && s.kvc.run.isSome then s
    else
      let mode := F.KVC_CTL_MODE.of v
      let t := (s.put F.KVC_CTL_MODE mode).put F.KVC_CTL_VSLOT (F.KVC_CTL_VSLOT.of v)
      if !go then t
      else if t.vaultDead then t.put F.KVC_STAT_CODE 4
      else match t.kvcStart mode (F.KVC_CTL_VSLOT.of v) with
        | none => t.put F.KVC_STAT_CODE 1
        | some r =>
          let t := match r.slot with
            | some (i, k) => t.storeVault (putVslot t.kvc.slots i k)
            | none => t
          let t := (t.put F.KVC_STAT_BUSY 1).put F.KVC_STAT_CODE 0
          let t := if heldMode mode then t.put F.KVC_STAT_VERIFIED 0 else t
          State.mark { t with kvc.run := some { r with cycles := kvcCycles mode (t.get F.KVC_LEN_LEN) (t.get F.KVC_LEN_AAD) } } 93
  else s

/-- The operation that began at mark 93 ends, once the engine has had its cycles (R355). One that stores the record ends with it, after
the cycles its sealing took, which no rule gives (log 77), and its CODE is open when that store failed (log 7). -/
def State.kvcOpDone (s : State) (sealing : Nat) : State :=
  match s.kvc.run with
  | none => s
  | some r =>
    if s.vaultWaits r.want || !s.passed 93 (r.cycles + if r.want.isSome then sealing else 0) then s
    else
      let t : State := State.mark { s with kvc.run := none } 92
      let t := ((t.put F.KVC_STAT_BUSY 0).satReg R.KVC_OPS 1).put F.KVC_BUSY_US_duration (min (2 ^ 20 - 1) (s.usSince 93))
      let t :=
        if !r.ok then
          (State.put { t with kvc.buf := [] } F.KVC_STAT_CODE 2).satReg R.KVC_VFAIL 1
        else if !t.vaultStored r.want then
          (let (f, t) := t.fresh
           t.put F.KVC_STAT_CODE (f.toNat % 5))
        else
          let t := if r.data.isEmpty then t else t.fillBuffer r.data
          let t := match r.tag with
            | some g => (List.range 4).foldl (fun (s : State) i => s.wr (R.KVC_TAG i) (g.extractLsb' (32 * i) 32)) t
            | none => t
          let t := match r.slot with
            | some (i, k) => t.setVslots (putVslot t.kvc.slots i k)
            | none => t
          if heldMode r.mode then t.put F.KVC_STAT_VERIFIED 1 else t
      if r.release then t.releaseLock else t

/-! ### Resets (R359) -/

/-- POR, cold reset and leaving Dark: the check and the operation are abandoned, the challenge is withdrawn, the buffer and the lock
go, and the authorisation closes. -/
def State.resetVault (s : State) : State :=
  let t : State := { s with
    kvc.tok := none
    kvc.run := none
    kvc.buf := []
    kvc.port := []
    kvc.result := 0
    marks := mapDel s.marks 51 }
  ((t.setChal none).wr R.KVC_AUTH 0).put F.KVC_LOCK_OWNER 0

/-! ### The commands -/

def execNewChallenge (p : Path) (s : State) : Host.Outcome State Fault Refusal := .next (s.newChallenge p)
def execPresentToken (p : Path) (purpose : Byte) (s : State) : Host.Outcome State Fault Refusal :=
  .next (s.presentToken p purpose.toNat)
def execCloseAuthorisation (p : Path) (s : State) : Host.Outcome State Fault Refusal := .next (s.closeAuthorisation p)
def execTokenCheckDone (s : State) : Host.Outcome State Fault Refusal := .next s.tokenCheckDone
def execChallengeExpiry (s : State) : Host.Outcome State Fault Refusal := .next s.challengeExpiry
def execAuthorisationExpiry (s : State) : Host.Outcome State Fault Refusal := .next s.authorisationExpiry
def execKvcLockWrite (safety : Bool) (p : Path) (v : Word) (s : State) : Host.Outcome State Fault Refusal :=
  .next (State.kvcLockWrite (if safety then s else s.useVault p) safety p v)
def execKvcLockBreak (s : State) : Host.Outcome State Fault Refusal := .next s.kvcLockBreak
def execGcmSeal (p : Path) (v : Word) (s : State) : Host.Outcome State Fault Refusal := .next ((s.useVault p).writeKvcCtl p v)
def execGcmOpen (p : Path) (v : Word) (s : State) : Host.Outcome State Fault Refusal := .next ((s.useVault p).writeKvcCtl p v)
def execKwWrap (p : Path) (v : Word) (s : State) : Host.Outcome State Fault Refusal := .next ((s.useVault p).writeKvcCtl p v)
def execKwUnwrap (p : Path) (v : Word) (s : State) : Host.Outcome State Fault Refusal := .next ((s.useVault p).writeKvcCtl p v)
def execCmacGen (p : Path) (v : Word) (s : State) : Host.Outcome State Fault Refusal := .next ((s.useVault p).writeKvcCtl p v)
def execCmacVerify (p : Path) (v : Word) (s : State) : Host.Outcome State Fault Refusal := .next ((s.useVault p).writeKvcCtl p v)
def execSlotImport (p : Path) (v : Word) (s : State) : Host.Outcome State Fault Refusal := .next ((s.useVault p).writeKvcCtl p v)
def execSlotErase (p : Path) (v : Word) (s : State) : Host.Outcome State Fault Refusal := .next ((s.useVault p).writeKvcCtl p v)
def execKvcOpDone (sealing : Nat) (s : State) : Host.Outcome State Fault Refusal := .next (s.kvcOpDone sealing)
def execSupplyGlitch (s : State) : Host.Outcome State Fault Refusal := .next (if s.seq.por then s else s.alarm 3)
def execClockMonitorAlarm (s : State) : Host.Outcome State Fault Refusal := .next (if s.seq.por then s else s.alarm 4)

end Sys2Proof.Machine
end

