-- ==== Sys2Proof/Machine/Resets.lean ====
section
/-! DEFINITION. What each reset keeps (R396 to R399): removal of power, the cold reset and exit from Dark, and the warm reset. -/

namespace Sys2Proof.Machine

/-! ### Work that stops before an image or a reset -/

/-- Every running re-key stops at its boundary, paused and recorded (R102). -/
def State.stopTrms (s : State) : State :=
  (List.range 4).foldl (fun s k => if s.trmBusy k then s.trmStop k 5 0 else s) s

/-- Migrations are abandoned (R304). -/
def State.dropMigs (s : State) : State :=
  let t : State := { s with
    orb.hold := []
    orb.mdataAt := [] }
  [0, 1].foldl (fun s m => (s.put (F.ORB_MIG_STAT_STATE m) 0).put (F.ORB_MIG_STAT_CODE m) 0) t

/-- A metering sweep in progress completes (R124). -/
def State.endSweep (s : State) : State :=
  State.put { s with rgn.sweepPending := 0 } F.MET_STAT_SWEEP 0

/-- The debugger is detached: nothing it halted stays halted (R392, R395). -/
def State.detach (s : State) : State :=
  let t := (List.range 32).foldl (fun s e =>
    if (s.eng e).dbg then (s.setEng e { s.eng e with
      dbg := false
      dbgLost := none }).showEng e else s) s
  (t.put F.MODE_DEBUG_ATTACHED 0).put F.MODE_DEBUG_CORES 0

/-! ### State outside the registers (R399) -/

/-- What a port keeps over a cold reset: its partitions, labels, shutdown state and ranges to zero (R54 to R57, R67; log 84). -/
def PortSt.kept (p : PortSt) : PortSt :=
  { portInit with
    dcUsed := p.dcUsed
    partVolatile := p.partNext.getD p.partVolatile
    lsa := p.lsa
    dirty := p.dirty }

/-- A start brings up every host port, DDR5 channel, cluster and link, those retired until then included (R66, R309). -/
def State.startUnits (s : State) : State :=
  let us := (List.range 8).map uPort ++ (List.range 8).map uDdr ++ (List.range 4).map uClu ++ (List.range 2).map uLink
  us.foldl (fun s u => s.setUnit u ustBringUp) s

/-- State that a cold reset, exit from Dark and POR empty: all of the data and control planes but what the media hold. -/
def State.dropVolatile (s : State) : State :=
  let s := s.dies.foldl (fun s q => s.abandon (q.1 / 16) (q.1 % 16)) s
  let t : State := { s with
    accesses := []
    adm := { adm0 with
      nextId := s.adm.nextId
      nextOrder := s.adm.nextOrder }
    clu := clu0
    stq := []
    orb := orb0
    ports := s.ports.map (fun p => (p.1, p.2.kept))
    rgn := { rgn0 with
      epoch := s.rgn.epoch
      skipLast := s.rgn.skipLast
      nextBoundary := s.rgn.nextBoundary
      releases := s.rgn.releases }
    key := { key0 with trmRecs := s.key.trmRecs }
    store := { store0 with
      groups := s.store.groups
      roleGens := s.store.roleGens
      closeCount := s.store.closeCount
      nextKey := s.store.nextKey
      ckptA := s.store.ckptA
      ckptB := s.store.ckptB
      bandA := s.store.bandA
      bandB := s.store.bandB
      imageSeq := s.store.imageSeq
      fmt := s.store.fmt
      cells := s.store.cells
      poison := s.store.poison
      ddrGib := s.store.ddrGib }
    dies := []
    boot := { boot0 with
      flash := s.boot.flash
      lastB := s.boot.lastB } }
  { t with ports := mapFilter (fun _ p => p != portInit) t.ports }

/-- Fields whose reset value another register gives: RELEASE (R390) and DIM (R402). `full`: DIM too. -/
def State.startFields (s : State) (full : Bool) : State :=
  let t := s.put F.MODE_HOLD_WHY_RELEASE (1 - s.get F.MODE_CFG_AUTO_RELEASE)
  if full then t.put F.MODE_CTL_DIM (t.get F.MODE_CFG_DIM_AT_START) else t

/-- The thermal step in force shows in the limit again, and every bucket is full (R445). -/
def State.startBuckets (s : State) : State := (s.applyStep (s.get F.THM_STAT_STEP)).fillBuckets

/-- Every domain runs. -/
def State.wakeAll (s : State) : State :=
  let ds := (List.range 32).map (8 + ·)
  (State.showAwake { s.leaveStandby ds with dom := ⟨allDomains, [], s.dom.used⟩ }).use allDomains

/-- A cold reset, or the reset of an exit from Dark (R388 step 2, R396): classes C, W, P and K take their defaults, and a start
follows from the NV store's scan on. `src` is what MODE_RST_STAT.LAST shows. -/
def State.coldReset (s : State) (src : Nat) : State :=
  let t := s.dropVolatile.startUnits
  let t := t.resetRegs ⟨coldKind.clears, false⟩ (fun _ => true)
  let t := t.resetVault
  let t : State := { t with
    paths := []
    seq.stage := .scan
    seq.src := src
    seq.cold := none
    seq.held := src == 2 && s.flag F.SEQ_IN_STAT_MRST_N
    seq.left := false
    seq.warm := false
    seq.afterWarm := false
    modeTicks := mapDel t.modeTicks 40
    marks := mapPut t.marks 61 t.now }
  let t := ((t.put F.MODE_RST_STAT_LAST src).put F.MODE_STAT_BUSY 1).startFields true
  let t := t.wakeAll.startBuckets
  (t.setTrust trSealed 9).reservice 9

/-- The data and control planes lose their supplies at the END of a shutdown (R387, R399). -/
def State.loseRails (s : State) : State :=
  let t := s.dropVolatile
  let t : State := { t with
    dom := ⟨[], [], []⟩
    key := { t.key with
      halt := s.key.halt
      haltedRun := s.key.haltedRun } }
  t

/-- Removal of every supply (R438): what is kept lies in the media, the NV store and the configuration flash. -/
def State.powerOff (s : State) : State :=
  let lost := s.nvPowerLoss
  { State.reset with
    nvs := { nvs0 with groups := lost.nvs.groups }
    store := { s.dropVolatile.store with fmt := s.store.fmt }
    wear := s.wear
    rgn := { rgn0 with releases := s.rgn.releases }
    ports := s.dropVolatile.ports
    boot := { boot0 with flash := s.boot.flash }
    seq := { seq0 with half := s.seq.half || s.store.imageRun.isSome }
    freeCtr := lost.freeCtr
    now := s.now
    out := s.out
    pending := s.pending }

/-! ### The warm reset (R398) -/

/-- What a warm reset leaves of a peer: class C, NCTR and the last round trip among it (R10, R311). -/
def PeerSt.kept (p : PeerSt) : PeerSt :=
  { peerInit with
    nctr := p.nctr
    rtt := p.rtt
    seqWarn := p.seqWarn
    lastHeard := p.lastHeard }

/-- What Orbit keeps over a warm reset: its peers' class C state, where the secondaries of a reflection stand, and its vote of the term
that ORB_TERM keeps (R293, R399). -/
def OrbSt.kept (o : OrbSt) : OrbSt :=
  { orb0 with
    applied := o.applied
    votedTerm := o.votedTerm
    peers := mapFilter (fun _ p => p != peerInit) (o.peers.map (fun p => (p.1, p.2.kept))) }

/-- What a requester path keeps over a warm reset. Its latches of R7 and R120 go: for every path, the management port's too, this is
taken to be a reset of the path (log 63). -/
def PathSt.kept (p : PathSt) : PathSt :=
  { pathInit with
    cur := p.cur
    msLen := p.msLen
    msStat := p.msStat
    msWin := p.msWin }

/-- The stores that a reset of every cluster left behind end with their targets (R237, R280, R399). -/
def State.dropLeft (s : State) : State :=
  { s with clu.engs := s.clu.engs.map (fun q => (q.1, { q.2 with ops := [] })) }

/-- Steps 1 to 6 of a warm reset. -/
def State.warmReset (s : State) : State :=
  let t := s.hold F.MODE_HOLD_WHY_WARM true 9
  let t := t.stopTrms.dropMigs
  let t := (t.orb.refl.map (·.region)).eraseDups.foldl (fun (s : State) r => s.breakRefl r) t
  let t := t.stopBackground.settleWrites.saveDmr.tagFlush.endSweep.dropImport
  let t := t.resetClusters.resetQueues.dropLeft
  let ids := t.accesses.map (·.id)
  let t := ids.foldl (fun (s : State) id => s.endAccess id) t
  let t := (List.range 8).foldl (fun (s : State) n => s.dropReplays n) (t.resetRegs warmKind (fun _ => true))
  let t : State := { t with
    key.slots := []
    key.shadows := []
    key.keks := []
    key.trmRun := []
    key.tags := []
    adm.pmc := []
    adm.deep := []
    adm.heldSince := []
    adm.heldAcc := []
    orb := t.orb.kept
    rgn.rc := rc0
    paths := t.paths.map (fun p => (p.1, p.2.kept))
    boot := { t.boot with
      val := none
      area := []
      cores := false }
    seq.stage := .none
    seq.warm := true
    seq.src := 5
    seq.afterWarm := false }
  let t := ((t.put F.MODE_RST_STAT_LAST 5).sat F.MODE_RST_STAT_warm 1).startFields false
  let t := t.key.trmRecs.foldl (fun (s : State) r => if r.mode = 0 then s else s.put (F.TRM_STAT_STATE r.engine) 5) t
  let t := t.wakeAll.startBuckets.showSlots.showKeks.showRefl.showPeers.showHalo
  (if s.configHold then t else t.beginBringUp false).setDmr t.store.recArea

end Sys2Proof.Machine
end

