-- ==== Sys2Proof/Machine/Power.lean ====
section
/-! DEFINITION. Power sequencing, the supply watch and Eclipse (R362 to R382): the sequencer's programs and steps, PHASE, requests,
shutdowns and images, the button, MRST_N, Penumbra, and POR (R438). -/

namespace Sys2Proof.Machine

/-! ### The sequencer program (R363, R364) -/

/-- The ROM program (R363). -/
def romWord (i : Nat) : Word :=
  let k := i / 4
  if i < 96 then
    (if i % 4 = 0 then BitVec.ofNat 32 (0x10000000 + k)
    else if i % 4 = 1 then BitVec.ofNat 32 (0x4000C820 + k)
    else if i % 4 = 2 then BitVec.ofNat 32 (0x70000000 + (121 - k))
    else 0x300003E8)
  else if i = 96 then 0x40EA6038
  else if i = 97 then 0x80000000
  else if i < 122 then BitVec.ofNat 32 (0x2001F400 + (121 - i))
  else 0x80000001

def seqOp (w : Word) : Nat := fieldGet w 28 4
/-- [4:0] of a step: RAIL, INPUT or state. -/
def seqLow (w : Word) : Nat := fieldGet w 0 5
/-- [7:0] of a step: a target. -/
def seqTarget (w : Word) : Nat := fieldGet w 0 8
/-- [23:8] of a step: DIS or TMO. -/
def seqLimit (w : Word) : Nat := fieldGet w 8 16

/-- A step that R365 admits. -/
def seqWordOk (w : Word) : Bool :=
  decide (fieldGet w 24 4 = 0) && (match seqOp w with
    | 1 => decide (fieldGet w 5 19 = 0) && decide (seqLow w ≤ 23)
    | 2 => decide (fieldGet w 5 3 = 0) && decide (seqLow w ≤ 23)
    | 3 => true
    | 4 => decide (fieldGet w 6 2 = 0) && decide (seqLow w ≤ 25)
    | 5 => decide (fieldGet w 8 16 = 0)
    | 6 => decide (fieldGet w 5 3 = 0) && decide (seqLow w ≠ 0)
    | 7 => decide (fieldGet w 8 16 = 0)
    | 8 => decide (fieldGet w 1 23 = 0)
    | _ => false)

/-- A step of the program in force (R363). -/
def State.progWord (s : State) (i : Nat) : Word := (mapGet? s.seq.prog i).getD (romWord i)

/-- A step of the program that runs. -/
def State.runWord (s : State) (i : Nat) : Word := (mapGet? s.seq.runProg i).getD (romWord i)

/-- The word of the step running. -/
def State.stepWord (s : State) : Word := s.runWord (s.get F.SEQ_STAT_STEP)

/-! ### Inputs and outputs -/

/-- Sets or clears bit k of a register. -/
def State.wrBit (s : State) (off k : Nat) (on : Bool) : State :=
  let w := (s.rd off).toNat
  s.wr off (BitVec.ofNat 32 (if on then w ||| 2 ^ k else w - (w &&& 2 ^ k)))

def State.pgood (s : State) (k : Nat) : Bool := (s.rd R.SEQ_IN_STAT).getLsbD k
def State.holdup (s : State) : Bool := s.flag F.SEQ_IN_STAT_HOLDUP_OK

/-- The level of a CHECK input (R364). -/
def State.checkInput (s : State) (i : Nat) : Bool :=
  if i < 24 then s.pgood i else if i = 24 then s.holdup else !s.flag F.SUP_STAT_VIN_LOW

/-- Drives PEN of a rail (R364); a rail disabled is disarmed (R365). -/
def State.drivePen (s : State) (k : Nat) (on : Bool) : State :=
  let t := s.wrBit R.SEQ_EN_STAT k on
  if on then t.mark (100 + k)
  else ((if (s.rd R.SEQ_EN_STAT).getLsbD k then t.mark (130 + k) else t).wrBit R.SEQ_PG_ARMED k false)

/-- Every enable low. -/
def State.allOff (s : State) : State := (List.range 24).foldl (fun s k => s.drivePen k false) s

/-- The N16 pulls PHASE low, or releases it (R366). -/
def State.drivePhase (s : State) (low : Bool) : State :=
  let t := s.put F.SEQ_STAT_PHASE_DRIVE (if low then 1 else 0)
  if low then t.put F.SEQ_IN_STAT_PHASE 0 else t

/-- The run takes part in PHASE (R366, R367). -/
def State.onPhase (s : State) : Bool := s.flag F.SEQ_CFG_PHASE_EN && !s.flag F.SEQ_STAT_DETACHED

/-! ### The first-failing-rail record (R374, R376) -/

/-- Stores the power record (R376). -/
def State.storePower (s : State) : State :=
  s.storeRecord 4 ([R.SEQ_FAULT, R.SEQ_FAULT_TICK_LO, R.SEQ_FAULT_TICK_HI, R.SEQ_LAST].flatMap (fun o => toBytes 4 (s.rd o)))

/-- Takes the power record in use (R376). -/
def State.loadPower (s : State) : State :=
  match s.recUsed 4 with
  | none => s
  | some bs => [R.SEQ_FAULT, R.SEQ_FAULT_TICK_LO, R.SEQ_FAULT_TICK_HI, R.SEQ_LAST].zipIdx.foldl (fun (s : State) p =>
      s.wr p.1 (ofBytes 32 ((bs.drop (4 * p.2)).take 4))) s

/-- Check, rail, discharge, sync, step and limit faults (R374, R382). -/
def faultCheck : Nat := 1
def faultRail : Nat := 2
def faultDischarge : Nat := 3
def faultSync : Nat := 4
def faultStep : Nat := 5
def faultLimit : Nat := 6

/-- No rail, as SUBJECT and in SEQ_FAULT.RAIL. -/
def noRail : Nat := 0x1F

/-- A fault: its event, FAULT_N and the first-failing-rail record (R374). -/
def State.seqFault (s : State) (kind rail step : Nat) : State :=
  let t : State := { s.post 0x01 0x06 rail 0 with seq.faultN := true }
  if t.flag F.SEQ_FAULT_VALID then t
  else
    let t := t.wr R.SEQ_FAULT (BitVec.ofNat 32 (rail + 32 * step + 2 ^ 13 * kind + 2 ^ 31))
    (t.wr64 R.SEQ_FAULT_TICK_LO t.aonTick.toNat).storePower

/-! ### Shutdowns: their end (R372, R376, R387) -/

/-- A start, an exit from Dark or a reset in progress is given up. -/
def State.endStart (s : State) : State :=
  let t : State := { s with
    seq.stage := .none
    seq.cold := none
    seq.held := false
    seq.warm := false
    seq.afterWarm := false
    boot.val := none }
  ((t.put F.MODE_STAT_BUSY 0).put F.BOOT_STAT_VALIDATING 0).put F.BOOT_STAT_LOADING 0

/-- An image that runs is abandoned (R380): its band keeps no trailer. -/
def State.dropImage (s : State) : State :=
  if s.store.imageRun.isSome then
    State.put { s with
      store.imageRun := none
      seq.half := true } F.MAP_ECL_STAT_RUN 0
  else s

/-- END of a shutdown: the power axis reaches Dark, then the service axis Hold; the power record is stored and the hold-off begins
(R369, R372, R376, R387). -/
def State.endShutdown (s : State) : State :=
  let t := s.dropImage
  let t : State := { t with
    seq.run := none
    seq.wait := .none
    seq.off := 0
    seq.fast := false
    seq.hosts := false
    seq.drain := false
    seq.zeroDue := false
    store.drainAll := false
    marks := mapPut t.marks 56 (t.now + 100000000) }
  let t := t.drivePhase false
  let t := (t.wr R.SEQ_DOWN_US (BitVec.ofNat 32 (min (t.usSince 55) (2 ^ 28 - 1)))).sat F.SEQ_RUNS_shutdowns 1
  let t := ((t.put F.SEQ_STAT_STATE 6).put F.SEQ_STAT_DETACHED 0).put F.SEQ_STAT_PEND_OFF 0
  let t := ((t.storePower.storeDrift).put F.MODE_HOLD_WHY_START 1).put F.MODE_STAT_BUSY 0
  ((t.setPower pwDark 7).reservice 7).loseRails

/-! ### Runs (R364, R365) -/

/-- A run fault in a shutdown program: the run ends there, with every enable low (R365). -/
def State.downFault (s : State) (kind step : Nat) : State := (s.seqFault kind noRail step).allOff.endShutdown

/-- Moves to a step, past the ones taken; whether it is one that R365 admits. The 4,096th step taken leaves it to RUN_STEP_LIMIT. -/
def State.moveStep (s : State) (i : Nat) : State × Bool :=
  let t := State.put { s with
    seq.wait := .none
    seq.steps := s.seq.steps + 1 } F.SEQ_STAT_STEP (i % 256)
  (t, decide (4096 ≤ t.seq.steps) || (decide (i < 256) && seqWordOk t.stepWord))

def State.enterDown (s : State) (i : Nat) : State :=
  let (t, ok) := s.moveStep i
  if ok then t else t.downFault faultStep (i % 256)

/-- Starts the program in force at a step; mark 98 is when. -/
def State.beginRun (s : State) (down : Bool) (entry : Nat) : State × Bool :=
  let t : State := { s with
    seq.run := some down
    seq.runProg := s.seq.prog
    seq.wait := .none
    seq.steps := 0 }
  let t := ((t.mark 98).put F.SEQ_STAT_PHASE_STATE 0).put F.SEQ_STAT_STEP entry
  (t, seqWordOk t.stepWord)

/-- Causes of SEQ_LAST whose shutdown is shortened (R372, R380). -/
def offFast (c : Nat) : Bool := [5, 6, 7].contains c

/-- The shutdown program, from the mirror point of an aborted power-up or from DOWN_ENTRY (R363, R372, R375). -/
def State.beginProgram (s : State) : State :=
  let entry := if s.seq.off = 9 then s.seq.mirror.getD (s.get F.SEQ_CFG_DOWN_ENTRY) else s.get F.SEQ_CFG_DOWN_ENTRY
  let t : State := { s with
    seq.fast := offFast s.seq.off
    seq.hosts := false
    seq.drain := false
    store.drainAll := false }
  let t := t.put F.SEQ_STAT_STATE (if t.flag F.SEQ_STAT_DETACHED then 5 else 3)
  let (t, ok) := t.beginRun true entry
  if ok then t else t.downFault faultStep entry

/-! ### Images of shutdowns and resets (R156, R157, R372, R380) -/

/-- Begins the image, or goes on with the one that runs; whether one is written. Halted derives slot 0 for it (R157). -/
def State.imageFor (s : State) (clean : Bool) : State :=
  if s.store.imageRun.isSome then { s with store.imageRun := some clean }
  else if !s.seq.left then s
  else
    let t : State := { s with
      seq.drain := false
      store.drainAll := false }
    let t := t.beginImage clean
    if t.store.imageRun.isSome ∧ t.key.haltedRun then
      let u : State := { t with seq.zeroDue := true }
      (u.setSlot 0 deviceKey).put F.KEY_STATUS_SLOT0_OK 1
    else t

/-- The image of a shutdown, then its program. -/
def State.offImage (s : State) (clean : Bool) : State :=
  let t := s.imageFor clean
  if t.store.imageRun.isSome then t.put F.SEQ_STAT_STATE 4 else t.beginProgram

/-- A detached shutdown begins: 4 thermal, 5 and 6 Eclipse, 7 forced, 9 aborted power-up (R367, R372, R380). -/
def State.cutOff (s : State) (cause : Nat) : State :=
  let t := s.endStart
  let t : State := { t with
    seq.run := none
    seq.wait := .none
    seq.off := cause
    seq.hosts := false
    seq.drain := false }
  let t := ((t.put F.SEQ_LAST_OFF_CAUSE cause).mark 55).drivePhase false
  let t := (t.put F.SEQ_STAT_DETACHED 1).put F.SEQ_STAT_PEND_OFF 0
  let t := if offFast cause then (((t.mark 96).post 0x01 0x01 t.store.imageSeq 0).bump 2).storeDrift else t
  let t := if t.lit then t.setPower pwEclipse 7 else t
  (t.detach.stopEngines.stopTrms.dropMigs).offImage false

/-- A program of an orderly shutdown goes on detached and shortened (R370, R381). -/
def State.hasten (s : State) (cause : Nat) : State :=
  let t : State := { s with
    seq.off := cause
    seq.fast := true }
  let t := ((t.put F.SEQ_LAST_OFF_CAUSE cause).put F.SEQ_STAT_DETACHED 1).put F.SEQ_STAT_STATE 5
  let t := ((((t.mark 96).drivePhase false).post 0x01 0x01 t.store.imageSeq 0).bump 2).storeDrift
  if t.lit then t.setPower pwEclipse 7 else t

/-! ### Orderly shutdown (R373) -/

/-- A dirty line whose key slot is loaded remains in the vault (R373 step 5). -/
def State.drainLeft (s : State) : Bool := s.store.vault.any (fun p => p.2.dirty && (s.drainKeys p.2).isSome)

def State.anyLink (s : State) : Bool := (List.range 8).any (fun n => (s.port n).linkUp)

/-- Steps 3 to 6 of R373. -/
def State.offDrain (s : State) : State :=
  let t : State := { s with seq.hosts := false }
  let t := t.updatePorts
  let t := t.stopEngines.stopTrms.dropMigs
  if !t.seq.left then t.beginProgram
  else if t.drainLeft then
    { t with
      seq.drain := true
      store.drainAll := true }
  else t.offImage true

/-- An orderly shutdown's wait is over. -/
def State.offContinue (s : State) : State :=
  if s.seq.hosts then (if s.anyLink then s else s.offDrain)
  else if s.seq.drain && !s.drainLeft then s.offImage true
  else s

/-- An orderly shutdown begins: cause 1 button, 2 REQ_OFF, 3 PHASE (R372, R373). -/
def State.beginOff (s : State) (cause : Nat) : State :=
  let t := s.dropImage.endStart
  let t : State := { t with
    seq.half := s.seq.half
    seq.off := cause
    seq.hosts := decide (t.get F.SEQ_CFG_HOST_S ≠ 0) && t.anyLink }
  let t := ((t.put F.SEQ_LAST_OFF_CAUSE cause).mark 55).put F.SEQ_STAT_STATE 3
  let t := ((t.put F.SEQ_STAT_DETACHED 0).drivePhase (t.flag F.SEQ_CFG_PHASE_EN)).post 0x01 0x03 t.store.imageSeq 0
  let t := t.storeDrift
  if t.seq.hosts then t else t.offDrain

/-! ### Power-up (R369, R375) -/

/-- An off request or a fault ends a power-up (R375); a faulted one is not retried by itself (R374). -/
def State.abortUp (s : State) : State := s.cutOff 9

def State.upFault (s : State) (kind rail step : Nat) : State :=
  let t := s.seqFault kind rail step
  State.abortUp { t with seq.noAuto := true }

def State.enterUp (s : State) (i : Nat) : State :=
  let (t, ok) := s.moveStep i
  if ok then t else t.upFault faultStep noRail (i % 256)

/-- Continues the run at a step. -/
def State.goStep (s : State) (i : Nat) : State := if s.seq.run = some true then s.enterDown i else s.enterUp i

/-- Continues the run at the next step. -/
def State.nextStep (s : State) : State := s.goStep (s.get F.SEQ_STAT_STEP + 1)

/-- A fault of a run: a power-up aborts, a shutdown ends (R365, R374). -/
def State.runFault (s : State) (kind : Nat) : State :=
  let step := s.get F.SEQ_STAT_STEP
  if s.seq.run = some true then s.downFault kind step else s.upFault kind noRail step

/-- Power-up begins from a source of SEQ_LAST (R369). -/
def State.beginUp (s : State) (src : Nat) : State :=
  let detached := src == 7
  let t : State := { s with
    seq.mirror := none
    seq.fast := false
    seq.off := 0
    seq.left := false
    seq.noAuto := false
    seq.autoWait := false }
  let t := ((t.put F.SEQ_LAST_ON_SOURCE src).put F.SEQ_STAT_STATE 1).mark 53
  let t := ((t.put F.SEQ_STAT_DETACHED (if detached then 1 else 0)).put F.SEQ_STAT_PEND_ON 0).put F.SEQ_STAT_PEND_OFF 0
  let t := t.drivePhase t.onPhase
  let (t, ok) := t.beginRun false 0
  if ok then t else t.upFault faultStep noRail 0

/-! ### Requests (R369, R370, R381) -/

def State.seqIdle (s : State) : Bool := s.get F.SEQ_STAT_STATE == 0
def State.holdOff (s : State) : Bool := s.get F.SEQ_STAT_STATE == 6
/-- From the END of a power-up to Lit or Dim (R388). -/
def State.exiting (s : State) : Bool := s.get F.SEQ_STAT_STATE == 2 && s.power == pwDark
def State.poweringUp (s : State) : Bool := s.seq.run == some false

/-- A 12-bit temperature field as a two's complement SUBJECT (R340). -/
def tempSubject (t : Nat) : Nat := if t < 2048 then t else t + 2 ^ 64 - 4096

/-- Records a refused power-up, at most one a second (R321). -/
def State.refuseUp (s : State) : State :=
  let recent := match s.thm.refusedAt with
    | some c => decide (s.now < c + 200000000)
    | none => false
  if recent then s
  else State.post { s with thm.refusedAt := some s.now } 0x03 0x04 (tempSubject (s.get F.THM_TEMP_T)) (s.get F.THM_STAT_STEP)

/-- A power-up request (R369, R381); one during a power-up's own run is deferred, and the END of that run answers it (log 47). -/
def State.onRequest (s : State) (src : Nat) : State :=
  if s.flag F.THM_STAT_LATCH then s.refuseUp
  else if s.seqIdle then s.beginUp src
  else if s.seq.off ≠ 0 ∨ s.holdOff ∨ s.poweringUp then s.put F.SEQ_STAT_PEND_ON 1
  else s

/-- An off request (R373, R375, R381). -/
def State.offRequest (s : State) (cause : Nat) : State :=
  if s.poweringUp then s.put F.SEQ_STAT_PEND_OFF 1
  else if s.exiting then s.abortUp
  else if s.seq.off ≠ 0 ∨ !s.lit then s
  else s.beginOff cause

/-- Forced off (R370). -/
def State.forceOff (s : State) : State :=
  if s.seqIdle || s.holdOff || 4 ≤ s.seq.off then s
  else if s.seq.run = some true then s.hasten 7
  else s.cutOff 7

/-- The button held to 12 s (R370). -/
def State.dropRails (s : State) : State :=
  if s.seqIdle || s.holdOff then s
  else
    let t := s.endStart.dropImage.allOff
    let t := (t.put F.SEQ_LAST_OFF_CAUSE 8).post 0x01 0x05 t.store.imageSeq 0
    let t := if s.seq.off = 0 then t.mark 55 else t
    (t.bump 4).endShutdown

/-! ### Steps (R364 to R368) -/

/-- A step begins to wait, at mark 94. -/
def State.stepWaits (s : State) (w : SeqWait) : State := State.mark { s with seq.wait := w } 94

/-- The time of a step's wait in units of so many cycles is over; R380 cuts it to `most` cycles. -/
def State.waited (s : State) (n unit most : Nat) : Bool := s.passed 94 (if s.seq.fast then min most (n * unit) else n * unit)

/-- A step of the kind runs, and takes effect now. -/
def State.seqAt (s : State) (op : Nat) : Bool :=
  s.seq.run.isSome && s.seq.wait == .none && decide (s.seq.steps < 4096) && seqOp s.stepWord == op

def State.stepEnable (s : State) : State :=
  if s.seqAt 1 then (s.drivePen (seqLow s.stepWord) true).nextStep else s

def State.stepDisable (s : State) : State :=
  if !s.seqAt 2 then s
  else
    let k := seqLow s.stepWord
    let t := s.drivePen k false
    if seqLimit s.stepWord = 0 || !t.pgood k then t.nextStep
    else t.stepWaits (.discharge k)

def State.stepWait (s : State) : State := if s.seqAt 3 then s.stepWaits .time else s

/-- A CHECK passes; a PGOOD seen high is armed (R365). -/
def State.checkPassed (s : State) (i : Nat) (level : Bool) : State :=
  (if i < 24 ∧ level ∧ s.pgood i then s.wrBit R.SEQ_PG_ARMED i true else s).nextStep

/-- A check fault aborts a power-up; a shutdown's run goes on (R374, R375). -/
def State.checkFault (s : State) (i : Nat) : State :=
  let step := s.get F.SEQ_STAT_STEP
  if s.seq.run = some true then (s.seqFault faultCheck i step).nextStep else s.upFault faultCheck i step

def State.stepCheck (s : State) : State :=
  if !s.seqAt 4 then s
  else
    let w := s.stepWord
    let i := seqLow w
    let level := w.getLsbD 5
    if s.seq.fast || s.checkInput i == level then s.checkPassed i level
    else if seqLimit w = 0 then s.checkFault i
    else s.stepWaits (.check i level)

def State.stepJump (s : State) : State := if s.seqAt 5 then s.goStep (seqTarget s.stepWord) else s

/-- A SYNC step is complete: an off request that waited for it aborts the power-up (R375). -/
def State.syncPassed (s : State) : State :=
  if s.flag F.SEQ_STAT_PEND_OFF && s.poweringUp then s.abortUp else s.nextStep

/-- SYNC (R366): a run holds PHASE low for at least 20 µs from its start. -/
def State.stepSync (s : State) : State :=
  if !s.seqAt 6 || (s.onPhase && !s.passed 98 4000) then s
  else
    let st := seqLow s.stepWord
    if !s.onPhase || st ≤ s.get F.SEQ_STAT_PHASE_STATE then (s.put F.SEQ_STAT_PHASE_STATE (max st (s.get F.SEQ_STAT_PHASE_STATE))).syncPassed
    else (State.mark { s with seq.wait := .sync st } 52).drivePhase false

def State.stepMark (s : State) : State :=
  if !s.seqAt 7 then s
  else
    let t : State := { s with seq.mirror := some (seqTarget s.stepWord) }
    if t.flag F.SEQ_STAT_PEND_OFF && t.poweringUp then t.abortUp else t.nextStep

/-- END of a power-up run: the exit from Dark begins (R369, R388). -/
def State.endUp (s : State) : State :=
  let us := s.usSince 53
  let t : State := { s with
    seq.run := none
    seq.wait := .none }
  let t := (t.wr R.SEQ_UP_US (BitVec.ofNat 32 (min us (2 ^ 28 - 1)))).sat F.SEQ_RUNS_power 1
  let t := (((t.put F.SEQ_STAT_STATE 2).put F.SEQ_STAT_DETACHED 0).put F.SEQ_STAT_PEND_ON 0).post 0x01 0x04 t.store.imageSeq us
  ((t.drivePhase false).mark 54).coldReset 4

def State.stepEnd (s : State) : State :=
  if !s.seqAt 8 then s
  else
    let down := s.stepWord.getLsbD 0
    if s.seq.run ≠ some down then s.runFault faultStep
    else if down then s.endShutdown
    else if s.flag F.SEQ_STAT_PEND_OFF then s.abortUp
    else s.endUp

/-- A WAIT has lasted its time in µs, where 0 acts as 1; R380 cuts it to 100 µs. -/
def State.waitExpiry (s : State) : State :=
  if s.seq.run.isSome && s.seq.wait == .time && s.waited (max 1 (fieldGet s.stepWord 0 24)) 200 20000 then s.nextStep else s

/-- A CHECK's TMO, in 100 µs, is over. -/
def State.checkTimeout (s : State) : State :=
  match s.seq.run, s.seq.wait with
  | some _, .check i _ => if s.passed 94 (seqLimit s.stepWord * 20000) then s.checkFault i else s
  | _, _ => s

/-- A discharge wait ends after DIS, in 100 µs: a fault, unless R380's 1 ms cut the step's own time short. -/
def State.dischargeTimeout (s : State) : State :=
  match s.seq.run, s.seq.wait with
  | some _, .discharge k =>
    if !s.waited (seqLimit s.stepWord) 20000 200000 then s
    else if s.seq.fast && decide (10 < seqLimit s.stepWord) then s.nextStep
    else (s.seqFault faultDischarge k (s.get F.SEQ_STAT_STEP)).nextStep
  | _, _ => s

/-- Notes the longest SYNC wait (R382). -/
def State.noteSync (s : State) : State :=
  s.put F.SEQ_SYNC_WAIT_longest (max (s.get F.SEQ_SYNC_WAIT_longest) (min (s.usSince 52) (2 ^ 24 - 1)))

/-- A SYNC has waited TMO ms (R364, R368). -/
def State.syncTimeout (s : State) : State :=
  if !s.passed 52 (seqLimit s.stepWord * 200000) then s
  else match s.seq.run, s.seq.wait with
  | some true, .sync st => (s.noteSync.put F.SEQ_STAT_PHASE_STATE st).nextStep
  | some false, .sync _ => s.noteSync.runFault faultSync
  | _, _ => s

def State.stepLimit (s : State) : State :=
  if s.seq.run.isSome && s.seq.wait == .none && decide (4096 ≤ s.seq.steps) then s.runFault faultLimit else s

/-- Waits whose input has the level they wait for end (R364). -/
def State.inputsMoved (s : State) : State :=
  match s.seq.run, s.seq.wait with
  | some _, .check i level => if s.checkInput i = level then s.checkPassed i level else s
  | some _, .discharge k => if s.pgood k then s else s.nextStep
  | _, _ => s

/-! ### PGOOD, PHASE, the button and MRST_N -/

/-- An armed PGOOD falls outside a run: a rail fault, and Eclipse unless one runs (R374, R381, R401). -/
def State.railFault (s : State) (k : Nat) : State :=
  let t := (s.seqFault faultRail k 0).wrBit R.SEQ_PG_ARMED k false
  if t.exiting then State.abortUp { t with seq.noAuto := true }
  else if t.lit && decide (t.seq.off ≤ 3) then t.cutOff 6
  else t

def State.pgoodChange (s : State) (k : Nat) (level : Bool) : State :=
  if s.seq.por || s.pgood k == level then s
  else
    let t := s.wrBit R.SEQ_IN_STAT k level
    let m := (if level then 100 else 130) + k
    let t : State := match mapGet? t.marks m with
      | none => t
      | some _ =>
        let us := min (t.usSince m) (2 ^ 16 - 1)
        State.put { t with marks := mapDel t.marks m } (if level then F.SEQ_RAIL_ON_US k else F.SEQ_RAIL_OFF_US k) us
    if t.seq.run.isSome then t.inputsMoved
    else if !level && (t.rd R.SEQ_PG_ARMED).getLsbD k then t.railFault k
    else t

/-- PHASE falls: a request to an N16 that runs no program, once PHASE has been high for 10 ms (R366, R381). -/
def State.phaseFall (s : State) : State :=
  if s.seq.por then s
  else
    let t := s.put F.SEQ_IN_STAT_PHASE 0
    if !t.flag F.SEQ_CFG_PHASE_EN || t.seq.run.isSome || t.exiting || !t.passed 97 2000000 then t
    else if t.lit then t.offRequest 3
    else if t.seqIdle || t.holdOff then t.onRequest 4
    else t

/-- PHASE has been high for 1 µs: a barrier is complete (R366). Mark 97 is when PHASE went high. -/
def State.phaseBarrier (s : State) : State :=
  if s.seq.por || s.flag F.SEQ_STAT_PHASE_DRIVE then s
  else
    let t := (if s.flag F.SEQ_IN_STAT_PHASE then s else s.mark 97).put F.SEQ_IN_STAT_PHASE 1
    match t.seq.run, t.seq.wait with
    | some _, .sync st =>
      let c := t.get F.SEQ_STAT_PHASE_STATE + 1
      let t := t.put F.SEQ_STAT_PHASE_STATE c
      if c < st then t
      else
        let again := seqOp (t.runWord ((t.get F.SEQ_STAT_STEP + 1) % 256)) != 8
        (t.noteSync.drivePhase again).syncPassed
    | _, _ => t

/-- A press ends (R370). -/
def State.buttonUp (s : State) (ms : Nat) : State :=
  if s.seq.por then s
  else
    let t := (s.wr R.SEQ_BTN (BitVec.ofNat 32 (min ms (2 ^ 16 - 1)))).put F.SEQ_IN_STAT_PWRBTN_N 0
    if ms < 50 || 4000 < ms then t
    else if t.poweringUp || t.exiting || (t.lit && t.seq.off = 0) then t.offRequest 1
    else t.onRequest 3

/-- A cold reset with the rails on: the image first (R371, R397). -/
def State.coldBegin (s : State) (src : Nat) : State :=
  let t := State.put { s with seq.cold := some src } F.MODE_STAT_BUSY 1
  let t := (t.detach.stopEngines.stopTrms.dropMigs).imageFor false
  if t.store.imageRun.isSome then t else t.coldReset src

/-- Lit or Dim, with no run, shutdown, start or reset in progress. -/
def State.steady (s : State) : Bool :=
  s.lit && s.seq.off == 0 && s.seq.run.isNone && s.seq.stage == .none && !s.seq.warm && s.seq.cold.isNone && !s.flag F.MODE_STAT_BUSY

/-- MRST_N is recognised low (R371); together with MODE_CTL.COLD it names the one reset (R401). -/
def State.mrstLow (s : State) : State :=
  if s.seq.por then s
  else
    let t := s.put F.SEQ_IN_STAT_MRST_N 1
    if t.seq.cold = some 3 then { t with seq.cold := some 2 }
    else if t.steady then t.coldBegin 2 else t

def State.mrstHigh (s : State) : State :=
  if s.seq.por || !s.flag F.SEQ_IN_STAT_MRST_N then s
  else
    let t := State.put { s with seq.held := false } F.SEQ_IN_STAT_MRST_N 0
    if t.seqIdle && t.flag F.SEQ_CFG_MRST_ON then t.onRequest 5 else t

/-! ### SEQ_CTL and the hold-off -/

/-- FAULT_CLR (R374). -/
def State.clearFault (s : State) : State := (({ s with seq.faultN := false }).wr R.SEQ_FAULT 0).wr64 R.SEQ_FAULT_TICK_LO 0

/-- A write of SEQ_CTL: the off request comes before the on request (R381, R382). -/
def State.writeSeqCtl (s : State) (p : Path) (v : Word) : State :=
  if !s.mayWrite p R.SEQ_CTL || p != .mgmt || !s.authorised then s
  else
    let t := if F.SEQ_CTL_FAULT_CLR.on v then s.clearFault.storePower else s
    let t := if F.SEQ_CTL_REQ_OFF.on v then t.offRequest 2 else t
    if F.SEQ_CTL_REQ_ON.on v then t.onRequest 6 else t

/-- The hold-off ends, 500 ms after the END of a shutdown (R369, R381). -/
def State.holdOffEnd (s : State) : State :=
  if !s.holdOff || !s.passed 56 0 then s
  else
    let t := s.put F.SEQ_STAT_STATE 0
    if t.flag F.SEQ_STAT_PEND_ON then (t.put F.SEQ_STAT_PEND_ON 0).onRequest 7
    else if t.flag F.SEQ_CFG_AUTO_ON && !t.seq.noAuto then
      (if t.flag F.SUP_STAT_VIN_LOW then { t with seq.autoWait := true } else t.onRequest 2)
    else t

/-! ### The supply watch (R377 to R379) -/

/-- Penumbra begins when the input is low or HOLDUP_OK is, in Lit or Dim (R378). -/
def State.supplyCheck (s : State) : State :=
  let s := s.put F.SUP_STAT_HOLD_LOW (if s.holdup then 0 else 1)
  if s.lit && !s.flag F.SUP_STAT_PEN && (s.flag F.SUP_STAT_VIN_LOW || !s.holdup) then
    let mv := s.get F.SUP_VIN_input
    let t : State := { s with seq.penLow := mv }
    let t := ((t.put F.SUP_STAT_PEN 1).sat F.SUP_PEN_Penumbra 1).mark 60
    (t.post 0x02 0x01 mv 0).showCap
  else s.showCap

/-- The input stands at or above WARN + HYST, with HOLDUP_OK high (R379). -/
def State.supplyBack (s : State) : Bool :=
  s.holdup && decide ((s.get F.SUP_CFG_WARN + s.get F.SUP_CFG_HYST) * 50 ≤ s.get F.SUP_VIN_input)

/-- Since when it has done so without a break: mark 95 (R379). -/
def State.noteBack (s : State) : State :=
  if s.supplyBack then (if (mapGet? s.marks 95).isSome then s else s.mark 95) else s.unmark 95

/-- The reset level (R378, R381). -/
def State.resetLevel (s : State) : State :=
  let seen := fun (s : State) => s.post 0x02 0x03 (s.get F.SUP_VIN_input) 0
  if s.poweringUp || s.exiting then (seen s).abortUp
  else if s.lit && decide (s.seq.off ≤ 3) && s.seq.run.isNone then (seen s).cutOff 5
  else s

/-- The power axis has become Lit or Dim: the supply is judged as it stands. -/
def State.supplyLit (s : State) : State :=
  let t := s.supplyCheck
  if t.flag F.SUP_STAT_BELOW_RESET then t.resetLevel else t

/-- The levels of SUP_CFG against the input in mV (R377, R378). -/
def State.supplyMoved (s : State) : State :=
  let mv := s.get F.SUP_VIN_input
  let was := s.flag F.SUP_STAT_BELOW_RESET
  let low := decide (mv < s.get F.SUP_CFG_WARN * 50)
  let below := decide (mv < s.get F.SUP_CFG_RESET * 50)
  let t := (s.put F.SUP_STAT_VIN_LOW (if low then 1 else 0)).put F.SUP_STAT_BELOW_RESET (if below then 1 else 0)
  let t := t.supplyCheck
  let t := if below && !was then t.resetLevel else t
  let t := t.inputsMoved
  if t.seq.autoWait && !low && t.seqIdle then State.onRequest { t with seq.autoWait := false } 2 else t

/-- The supply watch takes an input in mV (R377). -/
def State.setVin (s : State) (mv : Nat) : State :=
  if s.seq.por then s
  else
    let low := match mapGet? s.marks 57 with
      | none => mv
      | some _ => min mv (s.get F.SUP_VIN_lowest)
    let t : State := { s with seq.penLow := if s.flag F.SUP_STAT_PEN then min mv s.seq.penLow else s.seq.penLow }
    (((t.mark 57).put F.SUP_VIN_input mv).put F.SUP_VIN_lowest low).noteBack.supplyMoved

/-- The input has been back for 10 ms (R379). -/
def State.penumbraExit (s : State) (mv : Nat) : State :=
  let t := s.setVin mv
  if t.flag F.SUP_STAT_PEN && t.supplyBack && t.lasted 95 2000000 then
    let us := t.usSince 60
    let t := (t.put F.SUP_STAT_PEN 0).put F.SUP_PEN_duration (min (us / 1000) (2 ^ 16 - 1))
    (t.post 0x02 0x02 t.seq.penLow us).showCap
  else t

def State.holdupChange (s : State) (level : Bool) : State :=
  if s.seq.por then s
  else (s.put F.SEQ_IN_STAT_HOLDUP_OK (if level then 1 else 0)).noteBack.supplyCheck.inputsMoved

/-! ### Images end (R155 to R157, R380) -/

/-- The program status of an image's trailer is checked (R156 step 6). Once it reads back the image is complete (R155): key slots due to
be zeroised are (R29, R157), and what waited for the image goes on. Until then it is not, and nothing changes; nor is it while an
operation on a die, which step 5 waits for, has not ended (R209). -/
def State.imageComplete (s : State) (trailerOk : Bool) : State :=
  if s.store.imageRun.isNone || !trailerOk || s.diesBusy then s
  else
    let t := s.imageDone
    let t := if t.seq.zeroDue then State.zeroise { t with seq.zeroDue := false } else t
    if t.seq.off ≠ 0 then t.beginProgram
    else match t.seq.cold with
      | some src => t.coldReset src
      | none => t

/-- 180 ms after an Eclipse trigger, which is mark 96 (R380). -/
def State.eclipseDeadline (s : State) : State :=
  if offFast s.seq.off && s.passed 96 36000000 then s.allOff.endShutdown else s

/-- HOST_S seconds of an orderly shutdown, which began at mark 55, are over (R373). -/
def State.hostWaitEnd (s : State) : State :=
  if s.seq.hosts && s.passed 55 (s.get F.SEQ_CFG_HOST_S * oneSecond) then s.offDrain else s

/-! ### POR (R396, R438, R444) -/

/-- POR is released: every register at its reset value, V0 and V2 derived, the NV store's scan under way. -/
def State.porRelease (s : State) (fusesOk : Bool) : State :=
  if !s.seq.por then s
  else
    let t : State := { s with
      seq.por := false
      seq.stage := .scan
      seq.src := 1
      seq.unpowered := true }
    let t := ((t.put F.MODE_RST_STAT_LAST 1).fillBuckets).mark 61
    let v := mapPut (mapPut t.kvc.slots 0 vaultKey) 2 Config.vendorSecret
    let t := t.setVslots v
    let t := [F.ID_FUSE_STAT_the, F.ID_FUSE_STAT_root, F.ID_FUSE_STAT_vendor, F.ID_FUSE_STAT_calibration].foldl
      (fun (s : State) f => s.put f (if fusesOk then 1 else 0)) t
    if fusesOk then t else t.alarm 5

/-- The 32.768 kHz crystal fails (R444). -/
def State.xtalFail (s : State) : State :=
  if s.seq.por then s else State.post { s with seq.faultN := true } 0x01 0x06 0x20 0

/-! ### The commands -/

def execConventionalReset (n : Fin 8) (s : State) : Host.Outcome State Fault Refusal := .next (s.convReset n.val).offContinue
def execDrainProgramDone (slot : Nat) (ok : Bool) (s : State) : Host.Outcome State Fault Refusal :=
  .next (s.drainDone slot ok).offContinue
def execImageComplete (trailerOk : Bool) (s : State) : Host.Outcome State Fault Refusal := .next (s.imageComplete trailerOk)
def execPorAssert (s : State) : Host.Outcome State Fault Refusal := .next s.powerOff
def execPorRelease (fusesOk : Bool) (s : State) : Host.Outcome State Fault Refusal := .next (s.porRelease fusesOk)
def execXtal32kFail (s : State) : Host.Outcome State Fault Refusal := .next s.xtalFail
def execSeqEnable (s : State) : Host.Outcome State Fault Refusal := .next s.stepEnable
def execSeqDisable (s : State) : Host.Outcome State Fault Refusal := .next s.stepDisable
def execSeqWait (s : State) : Host.Outcome State Fault Refusal := .next s.stepWait
def execSeqCheck (s : State) : Host.Outcome State Fault Refusal := .next s.stepCheck
def execSeqJump (s : State) : Host.Outcome State Fault Refusal := .next s.stepJump
def execSeqSync (s : State) : Host.Outcome State Fault Refusal := .next s.stepSync
def execSeqMark (s : State) : Host.Outcome State Fault Refusal := .next s.stepMark
def execSeqEnd (s : State) : Host.Outcome State Fault Refusal := .next s.stepEnd
def execSeqWaitExpiry (s : State) : Host.Outcome State Fault Refusal := .next s.waitExpiry
def execSeqCheckTimeout (s : State) : Host.Outcome State Fault Refusal := .next s.checkTimeout
def execSeqDischargeTimeout (s : State) : Host.Outcome State Fault Refusal := .next s.dischargeTimeout
def execSeqSyncTimeout (s : State) : Host.Outcome State Fault Refusal := .next s.syncTimeout
def execRunStepLimit (s : State) : Host.Outcome State Fault Refusal := .next s.stepLimit
def execPgoodChange (rail : Fin 24) (level : Bool) (s : State) : Host.Outcome State Fault Refusal :=
  .next (s.pgoodChange rail.val level)
def execPhaseFall (s : State) : Host.Outcome State Fault Refusal := .next s.phaseFall
def execPhaseBarrier (s : State) : Host.Outcome State Fault Refusal := .next s.phaseBarrier
def execPwrbtnRelease (ms : Nat) (s : State) : Host.Outcome State Fault Refusal := .next (s.buttonUp ms)
def execPwrbtnHold8s (s : State) : Host.Outcome State Fault Refusal :=
  .next (if s.seq.por then s else (s.put F.SEQ_IN_STAT_PWRBTN_N 1).forceOff)
def execPwrbtnHold12s (s : State) : Host.Outcome State Fault Refusal :=
  .next (if s.seq.por then s else (s.put F.SEQ_IN_STAT_PWRBTN_N 1).dropRails)
def execMrstNAssert (s : State) : Host.Outcome State Fault Refusal := .next s.mrstLow
def execMrstNRelease (s : State) : Host.Outcome State Fault Refusal := .next s.mrstHigh
def execReqOn (p : Path) (v : Word) (s : State) : Host.Outcome State Fault Refusal := .next (s.writeSeqCtl p v)
def execReqOff (p : Path) (v : Word) (s : State) : Host.Outcome State Fault Refusal := .next (s.writeSeqCtl p v)
def execFaultClr (p : Path) (v : Word) (s : State) : Host.Outcome State Fault Refusal := .next (s.writeSeqCtl p v)
def execHoldoffEnd (s : State) : Host.Outcome State Fault Refusal := .next s.holdOffEnd
def execHostWaitExpiry (s : State) : Host.Outcome State Fault Refusal := .next s.hostWaitEnd
def execVinWarnCross (mv : BitVec 16) (s : State) : Host.Outcome State Fault Refusal := .next (s.setVin mv.toNat)
def execVinResetCross (mv : BitVec 16) (s : State) : Host.Outcome State Fault Refusal := .next (s.setVin mv.toNat)
def execPenumbraExit (mv : BitVec 16) (s : State) : Host.Outcome State Fault Refusal := .next (s.penumbraExit mv.toNat)
def execHoldupOkChange (level : Bool) (s : State) : Host.Outcome State Fault Refusal := .next (s.holdupChange level)
def execEclipseDeadline (s : State) : Host.Outcome State Fault Refusal := .next s.eclipseDeadline

end Sys2Proof.Machine
end

