-- ==== Sys2Proof/Machine/Thermal.lean ====
section
/-! DEFINITION. The thermal watch (R314 to R323) and the lockstep comparator (R313). -/

namespace Sys2Proof.Machine

/-! ### Units: temperatures come in 0.25 °C; T is kept in 1/48 °C, so that a mean of one to four of them is exact -/

/-- T after the last sample that gave a temperature (R314). -/
def ThmSt.mean (t : ThmSt) : Int := t.means.headD 0

/-- T in 0.25 °C, as THM_TEMP shows it. -/
def quarter (t : Int) : Int := t / 12

/-- A level in 1/48 °C: whole degrees, eighths and quarters. -/
def degC (n : Nat) : Int := (n : Int) * 48
def eighthC (n : Nat) : Int := (n : Int) * 6
def quarterC (n : Nat) : Int := (n : Int) * 12

/-- The threshold of step k (R316). -/
def State.stepLevel (s : State) (k : Nat) : Int :=
  degC (s.get F.THM_DIM_CFG_START) + ((k : Int) - 1) * eighthC (s.get F.THM_DIM_CFG_STEP_C)

/-- The dimming step of T (R316). -/
def State.dimStep (s : State) (t : Int) : Nat :=
  let d := t - degC (s.get F.THM_DIM_CFG_START)
  if d < 0 then 0 else min 15 ((d / eighthC (s.get F.THM_DIM_CFG_STEP_C)).toNat + 1)

/-- Step 15 is forced: by a rise, the latch or a second lockstep disagreement (R313, R318, R320). -/
def State.stepForced (s : State) : Bool := s.flag F.THM_STAT_RISE || s.flag F.THM_STAT_LATCH || s.thm.forced

/-- T is below the threshold of the step in force by HYST (R317). -/
def State.cool (s : State) : Bool :=
  !s.thm.means.isEmpty &&
    decide (s.thm.mean < s.stepLevel (s.get F.THM_STAT_STEP) - quarterC (s.get F.THM_DIM_CFG_HYST))

/-- Since when T has been so without a break: mark 81 (R317). -/
def State.noteCool (s : State) : State :=
  if s.cool then (if (mapGet? s.marks 81).isSome then s else s.mark 81) else s.unmark 81

/-- Puts a dimming step in force (R25, R316); the next fall needs a further 100 ms (R317). -/
def State.setStep (s : State) (k : Nat) : State :=
  if s.get F.THM_STAT_STEP = k then s else (((s.put F.THM_STAT_STEP k).applyStep k).unmark 81).noteCool

/-- THERM_N and WARN follow T, RISE and the latch (R319). -/
def State.thermPin (s : State) : State :=
  let t := s.thm.mean
  let known := !s.thm.means.isEmpty
  let level := degC (s.get F.THM_LIMIT_CFG_WARN)
  let warn := known && decide (level ≤ t)
  let s := s.put F.THM_STAT_WARN (if warn then 1 else 0)
  let low := warn || s.flag F.THM_STAT_RISE || s.flag F.THM_STAT_LATCH
  if low then
    if s.flag F.THM_STAT_THERM then s
    else (s.put F.THM_STAT_THERM 1).post 0x03 0x01 (tempSubject (s.get F.THM_TEMP_T)) (s.get F.THM_STAT_STEP)
  else if known && decide (t < level - quarterC (s.get F.THM_DIM_CFG_HYST)) then s.put F.THM_STAT_THERM 0
  else s

/-- The off request of R320 step 2, as R322 and R375 take it. -/
def State.thermalOff (s : State) : State :=
  if s.poweringUp || s.exiting then s.abortUp
  else if s.lit && s.seq.off == 0 then s.cutOff 4
  else s

/-- Critical, or a broken sensor: the latch, step 15 and the shutdown (R320 to R322). `cause` is THM_LATCH_INFO's. -/
def State.critical (s : State) (cause : Nat) : State :=
  if s.flag F.THM_STAT_LATCH then s
  else
    let last := s.get F.THM_TEMP_last
    let t := (s.put F.THM_STAT_LATCH 1).wr R.THM_LATCH_INFO (BitVec.ofNat 32 (cause + 16 * last + 2 ^ 31))
    let t := t.setStep 15
    let t := t.post 0x03 0x03 (tempSubject last) (t.rd R.THM_LATCH_INFO).toNat
    (t.thermPin.bump 3).thermalOff

/-- The sensor is broken (R315). -/
def State.breakSensor (s : State) (cause : Nat) : State :=
  if s.flag F.THM_STAT_BROKEN then s
  else
    let t := s.put F.THM_STAT_BROKEN 1
    (t.critical cause).post 0x03 0x05 (tempSubject (t.get F.THM_TEMP_last)) (t.get F.THM_STAT_STEP)

/-- The rise of R318 begins, or is extended; the steps follow T otherwise (R316). -/
def State.dimming (s : State) (rise latched : Bool) (t : Int) : State :=
  if rise then
    let fresh := !s.flag F.THM_STAT_RISE
    let u := (((s.put F.THM_STAT_RISE 1).mark 82).setStep 15).thermPin
    if !fresh then u
    else if latched then u.postNext 0x03 0x02 (tempSubject (u.get F.THM_TEMP_T)) 15
    else u.post 0x03 0x02 (tempSubject (u.get F.THM_TEMP_T)) 15
  else
    let u := if s.stepForced then s else s.setStep (max (s.get F.THM_STAT_STEP) (s.dimStep t))
    u.thermPin

/-- A sample that gives a temperature in 0.25 °C (R314, R316 to R320). The time of the last sample of a rise is mark 82. -/
def State.takeTemp (s : State) (q : Int) : State :=
  let first := s.thm.means.isEmpty
  let temps := (q :: s.thm.temps).take 4
  let t : Int := temps.foldl (· + ·) 0 * 12 / (temps.length : Int)
  let rise := match s.thm.means[9]? with
    | some old => decide (old + quarterC (s.get F.THM_RISE_CFG_RISE) < t)
    | none => false
  let hot := decide ((s.get F.THM_LIMIT_CFG_CRIT : Int) * 4 ≤ q)
  let crit := hot && s.thm.crit
  let u : State := { s with
    thm.temps := temps
    thm.means := (t :: s.thm.means).take 10
    thm.crit := hot }
  let shown := twos 12 (quarter t)
  let u := (u.put F.THM_TEMP_T shown).put F.THM_TEMP_last (twos 12 q)
  let hi := if first || decide ((BitVec.ofNat 12 (u.get F.THM_EXTREME_highest)).toInt < quarter t) then shown else u.get F.THM_EXTREME_highest
  let lo := if first || decide (quarter t < (BitVec.ofNat 12 (u.get F.THM_EXTREME_lowest)).toInt) then shown else u.get F.THM_EXTREME_lowest
  let u := (u.put F.THM_EXTREME_highest hi).put F.THM_EXTREME_lowest lo
  let latched := u.flag F.THM_STAT_LATCH
  let u := if crit then u.critical 1 else u
  (u.dimming rise (!latched && u.flag F.THM_STAT_LATCH) t).noteCool

/-- A conversion (R314, R315). -/
def State.thermalSample (s : State) (raw : BitVec 16) (r : ThermalReading) : State :=
  if s.seq.por then s
  else
    let run := s.get F.THM_RAW_run
    let same := decide (run ≠ 0) && s.get F.THM_RAW_last == raw.toNat
    let t := (s.put F.THM_RAW_last raw.toNat).put F.THM_RAW_run (if same then min 256 (run + 1) else 1)
    match r with
    | .temp q => if q.toInt < -160 ∨ 600 < q.toInt then t.breakSensor 4 else t.takeTemp q.toInt
    | .openDiode => t.breakSensor 2
    | .shortDiode => t.breakSensor 3
    | .outOfRange => t.breakSensor 4

/-- 256 identical raw codes (R315). -/
def State.sensorStuck (s : State) : State :=
  if !s.seq.por && s.get F.THM_RAW_run == 256 then s.breakSensor 5 else s

/-- T has stayed below the step's threshold less HYST for 100 ms (R317). -/
def State.stepFall (s : State) : State :=
  let k := s.get F.THM_STAT_STEP
  if k ≠ 0 && !s.stepForced && s.cool && s.lasted 81 ms100 then s.setStep (max (k - 1) (s.dimStep s.thm.mean)) else s

/-- The hold ends 100 ms after the last sample of the rise (R318); step 15 then falls under R317. -/
def State.riseEnd (s : State) : State :=
  if s.flag F.THM_STAT_RISE && s.lasted 82 ms100 then (s.put F.THM_STAT_RISE 0).thermPin else s

/-- The safety cores disagree (R313): a restart; a second one within 1 s is an alarm. -/
def State.lockstep (s : State) : State :=
  if s.seq.por then s
  else
    let again := match s.thm.strikeAt with
      | some c => decide (s.now < c + oneSecond)
      | none => false
    let t : State := { s with thm.strikeAt := some s.now }
    if again then
      let t : State := { t with
        thm.forced := true
        seq.faultN := true
        seq.faultLock := true }
      ((t.setStep 15).post 0x07 0x04 0 2).alarm 2
    else t.post 0x07 0x04 0 1

/-! ### The commands -/

def execThermalSample (raw : BitVec 16) (r : ThermalReading) (s : State) : Host.Outcome State Fault Refusal :=
  .next (s.thermalSample raw r)
def execSensorStuck (s : State) : Host.Outcome State Fault Refusal := .next s.sensorStuck
def execDimStepFall (s : State) : Host.Outcome State Fault Refusal := .next s.stepFall
def execRiseHoldEnd (s : State) : Host.Outcome State Fault Refusal := .next s.riseEnd
def execLockstepDisagree (s : State) : Host.Outcome State Fault Refusal := .next s.lockstep

end Sys2Proof.Machine
end

