-- ==== Sys2Proof/Machine/Halted.lean ====
section
/-! DEFINITION. The Halted sequence (R91) and what it is when the HALT line rises during an image (R29, R157) or a warm reset
(R401). -/

namespace Sys2Proof.Machine

/-- The line number that KEY_HALT_ADDR holds. -/
def State.haltLine (s : State) : Nat := (s.rd R.KEY_HALT_ADDR_LO).toNat + 2 ^ 32 * s.get F.KEY_HALT_ADDR_HI_LINE

/-- Viral on every port with a link up (R61). -/
def State.viralAll (s : State) : State := (List.range 8).foldl (fun s n => s.viralOut n) s

/-- Step 9 of R91: the integrity event, then the change of the service axis. -/
def State.showHalted (s : State) : State := (s.postNext 0x05 0x01 s.haltLine (s.rd R.KEY_HALT_CAUSE).toNat).reservice 5

/-- A waiting access ends as R61 states; an admitted read comes back poisoned (R91 steps 4 and 6). -/
def State.containAccess (s : State) (a : Access) : State := if a.write then s.finishWrite a false else s.finishRead a 0 true

def State.contain (s : State) (p : Access → Bool) : State :=
  (s.accesses.filter p).foldl (fun s a => s.containAccess a) s

/-- Terminator engines stop at their boundaries, with code 0x9 (R91 step 5). -/
def State.haltTrms (s : State) : State :=
  (List.range 4).foldl (fun s k => if s.trmBusy k then s.trmStop k 7 9 else s) s

/-- The Halted sequence (R91). While an image runs, its flush goes on and the key slots are zeroised at its end (R29); the accesses
left then, waiting ones and reads, are contained all the same (R61). -/
def State.halt (s : State) : State :=
  let t : State := { s with key.haltedRun := true }
  let t := ((t.bump 5).viralAll).contain (fun a => a.stage == .waiting)
  if t.store.imageRun.isSome then
    State.showHalted (State.alarm { t.contain (fun a => !a.write) with seq.zeroDue := true } 0)
  else
    let t := (t.haltEngines.stopQueues.haltTrms).resumeDies false
    let t := (t.settleWrites.contain (fun a => !a.write)).saveDmr.tagFlush.dropMigs
    (t.alarm 0).zeroise.showHalted

/-- The safety partition begins the sequence once the HALT line is up; a warm reset is completed first (R28, R401). -/
def State.haltedSequence (s : State) : State :=
  if s.seq.por || !s.key.halt || s.key.haltedRun || s.seq.warm then s else s.halt

def execHaltedSequence (s : State) : Host.Outcome State Fault Refusal := .next s.haltedSequence

end Sys2Proof.Machine
end

