-- ==== Sys2Proof/Machine/Boot.lean ====
section
/-! DEFINITION. Starts and the configuration image (R388, R403 to R416), the settings record and MODE_STORE (R417 to R420),
MODE_CTL (R386, R390, R392, R397, R398) and the configuration flash (R415). -/

namespace Sys2Proof.Machine

/-! ### The settings record (R417, R418) -/

/-- The class N bits of the register at an offset. -/
def classNMask (off : Nat) : Nat :=
  match rowOf off with
  | some r => if homeOff off = off then ((r.fields.filter (fun f => f.cls == .n)).map (·.mask)).sum else 0
  | none => 0

def within (lo hi x : Nat) : Bool := decide (lo ≤ x) && decide (x ≤ hi)

/-- Every class N field of a register's word is in its range. -/
def settingInRange (off : Nat) (v : Word) : Bool :=
  if off = R.MET_CFG then within 1 3600 (fieldGet v 0 12)
  else if off = R.MAP_CFG_NEXT then
    within 4 32 (F.MAP_CFG_NEXT_VAULT_GIB.of v) && within 1 8 (F.MAP_CFG_NEXT_HALO_64.of v) && within 1 64 (F.MAP_CFG_NEXT_DELTA_64M.of v)
  else if off = R.ORB_CFG then within 1 256 (F.ORB_CFG_AREA_16M.of v)
  else if off = R.THM_DIM_CFG then
    within 80 105 (F.THM_DIM_CFG_START.of v) && within 1 15 (F.THM_DIM_CFG_STEP_C.of v) && within 1 15 (F.THM_DIM_CFG_HYST.of v)
  else if off = R.THM_LIMIT_CFG then within 90 108 (F.THM_LIMIT_CFG_WARN.of v) && within 105 115 (F.THM_LIMIT_CFG_CRIT.of v)
  else if off = R.THM_RISE_CFG then within 4 63 (F.THM_RISE_CFG_RISE.of v)
  else if off = R.KVC_AUTH_CFG then within 1 3600 (F.KVC_AUTH_CFG_WINDOW_S.of v) && within 4 255 (F.KVC_AUTH_CFG_FAIL_LIMIT.of v)
  else if off = R.SUP_CFG then
    within 210 236 (F.SUP_CFG_WARN.of v) && within 180 216 (F.SUP_CFG_RESET.of v) && within 1 10 (F.SUP_CFG_HYST.of v)
  else if off = R.BOOT_CFG then F.BOOT_CFG_FL_MODE.of v != 3
  else (List.range 4).all (fun m => off != R.HP_LINK_CFG (2 * m + 1) || v.getLsbD 0 == false)

/-- An entry of the record: PROG is 0 in bytes 0 to 3 and they name a class N register, whose word the value fits (R417, R418). -/
def entryNames (k : Word) : Bool := decide (k.toNat < 2 ^ 26) && classNMask k.toNat != 0
def entryFits (e : Word × Word) : Bool := e.2.toNat &&& classNMask e.1.toNat == e.2.toNat
def entryIsStep (k : Word) : Bool := decide (2 ^ 31 ≤ k.toNat)

/-- Entries from the contents of a record. -/
def recEntries (bs : List Byte) : List (Word × Word) :=
  let n := leNat ((bs.drop 2).take 2) % 1024
  (chunks 8 n (bs.drop 8)).map (fun g => (ofBytes 32 (g.take 4), ofBytes 32 (g.drop 4)))

/-- The sequencer program of a set of entries: all 256 steps, each admitted by R365. -/
def entryProgram (es : List (Word × Word)) : Option (SMap Word) :=
  let steps := es.filter (fun e => entryIsStep e.1)
  if (List.range 256).all (fun i => steps.any (fun e => e.1.toNat == 2 ^ 31 + i)) && decide (steps.length = 256) &&
      steps.all (fun e => seqWordOk e.2) then
    some (steps.map (fun e => (e.1.toNat % 256, e.2)))
  else none

/-- Takes a set of entries into force: class N fields and the sequencer program (R418). -/
def State.applySettings (s : State) (es : List (Word × Word)) (blank : Bool) : State :=
  let good := es.filter (fun e => entryNames e.1 && entryFits e && settingInRange e.1.toNat e.2)
  let prog := entryProgram es
  let used := good.length + (if prog.isSome then 256 else 0)
  let t : State := { s with
    settings := good.foldl (fun m e => mapSet regReset m e.1.toNat e.2) []
    seq.prog := prog.getD [] }
  -- a register that was set and no longer has an entry is reloaded with those that have one
  let t := t.resetRegs ⟨fun _ => false, true⟩ (fun _ => true)
  let t := (t.put F.SEQ_CFG_PROG_SRC (if prog.isSome then 1 else 0)).put F.BOOT_SET_STAT_APPLIED used
  (t.put F.BOOT_SET_STAT_IGNORED (es.length - used)).put F.BOOT_SET_STAT_record (if blank then 1 else 0)

/-- Class N fields reload at the scan (R418). -/
def State.loadSettings (s : State) : State :=
  match s.recUsed 1 with
  | some bs => s.applySettings (recEntries bs) false
  | none => s.applySettings [] true

/-! ### The flash and its images (R403 to R408) -/

def State.flashSize (s : State) : Nat := 2 ^ s.boot.flash.log2
/-- Bytes of the flash; an erased byte reads 0xFF. -/
def State.flashBytes (s : State) (a n : Nat) : List Byte :=
  (List.range n).map (fun i => mapGet (fun _ => (0xFF : Byte)) s.boot.flash.bytes (a + i))

/-- A flash answers in a mode that BOOT_CFG allows (R403). -/
def State.flashUsable (s : State) : Bool := s.boot.flash.fitted && (s.get F.BOOT_CFG_FL_MODE != 2 || s.boot.flash.octal)

def State.slotBase (s : State) (b : Bool) : Nat := if b then s.flashSize / 2 else 0
def State.slotSize (s : State) : Nat := min (s.flashSize / 2) (128 * 2 ^ 20)

/-- The ID_ block's stepping (R431). -/
def stepping : Nat := 0xA0

/-- n bytes at an offset of a list, as a number. -/
def leAt (bs : List Byte) (off n : Nat) : Nat := leNat ((bs.drop off).take n)

/-- A section of the table: type, the reserved bytes, offset, length and SCRC (R406). -/
structure Section where
  type : Nat
  reserved : Nat
  offset : Nat
  length : Nat
  crc : Nat
deriving DecidableEq, Repr

def hdrSection (h : List Byte) (i : Nat) : Section :=
  let o := 64 + 16 * i
  ⟨leAt h o 2, leAt h (o + 2) 2, leAt h (o + 4) 4, leAt h (o + 8) 4, leAt h (o + 12) 4⟩

def hdrLen (h : List Byte) : Nat := leAt h 8 4
def hdrSv (h : List Byte) : Nat := leAt h 12 4
def hdrSections (h : List Byte) : List Section := (List.range (min 32 (leAt h 24 4))).map (hdrSection h)

def Section.ok (len : Nat) (x : Section) : Bool :=
  (x.type == 1 || x.type == 2) && x.reserved == 0 && x.offset % 4096 == 0 && decide (4096 ≤ x.offset) &&
    within 1 (128 * 2 ^ 20) x.length && decide (x.offset + x.length + 256 ≤ len)

def Section.apart (x y : Section) : Bool := decide (x.offset + x.length ≤ y.offset) || decide (y.offset + y.length ≤ x.offset)

/-- The header fields of R405 and the section table rules of R406. -/
def hdrOk (h : List Byte) (slot : Nat) : Bool :=
  let len := hdrLen h
  let secs := hdrSections h
  leAt h 6 2 == 1024 && len % 256 == 0 && within 4608 slot len && decide (hdrSv h < 1024) && decide (leAt h 20 4 ≤ 1) &&
    within 1 32 (leAt h 24 4) && decide (leAt h 28 4 < 256) && ((h.drop 576).take 444).all (· == 0) &&
    ((h.drop (64 + 16 * secs.length)).take (16 * (32 - secs.length))).all (· == 0) &&
    secs.all (·.ok len) && secs.countP (·.type == 1) == 1 &&
    (List.range secs.length).all (fun i => (secs.drop (i + 1)).all (fun y => match secs[i]? with
      | some x => x.apart y
      | none => true))

/-- The image key (R407): from the owner token key, or 32 bytes of zero. -/
def State.imageKey (s : State) : List Byte :=
  match s.vslot 1 with
  | some k => kdf (toBytes 32 k) (asciiBytes "N16 IMAGE KEY") [] 256
  | none => List.replicate 32 0

/-- The digest of a slot: SHA-384 up to the signature block. -/
def State.slotDigest (s : State) (b : Bool) (len : Nat) : List Byte := sha384 (s.flashBytes (s.slotBase b) (len - 256))

/-- The checks of R408, in order; 0 when all pass. -/
def State.checkSlot (s : State) (b readOk : Bool) : Nat :=
  if !s.flashUsable || !readOk then 9
  else
    let base := s.slotBase b
    let h := s.flashBytes base 1024
    let len := hdrLen h
    if h.take 4 ≠ [0x4E, 0x31, 0x36, 0x43] ∨ leAt h 4 2 ≠ 1 then 1
    else if crc32 (h.take 1020) ≠ ofBytes 32 (h.drop 1020) then 2
    else if !hdrOk h s.slotSize then 3
    else if leAt h 28 1 ≠ 0xFF ∧ leAt h 28 1 ≠ stepping then 4
    else if hdrSv h < s.spreadDue 12 then 5
    else if (hdrSections h).any (fun x => (crc32 (s.flashBytes (base + x.offset) x.length)).toNat != x.crc) then 6
    else
      let sig := s.flashBytes (base + len - 256) 256
      if sig.take 4 ≠ [0x4E, 0x31, 0x36, 0x53] ∨ (sig.drop 68).any (· != 0) ∨ (sig.drop 4).take 48 ≠ s.slotDigest b len then 7
      else if cmac s.imageKey (sig.take 52) ≠ (sig.drop 52).take 16 then 8
      else 0

/-- A boot event with the image header's first 64 bytes (R340); a header that cannot be read leaves a free value. -/
def State.bootEvent (s : State) (code : Nat) (b : Bool) (detail : Nat) : State :=
  let (f, t) := s.fresh
  let ext := if detail = 9 then toBytes 64 f else s.flashBytes (s.slotBase b) 64
  let t := if detail = 9 then t else s
  t.postRec ⟨9, code, t.evTime, if b then 1 else 0, BitVec.ofNat 64 detail, ext, t.now, false⟩

/-! ### Validation and load (R388, R409 to R412) -/

/-- Known-answer tests and slot 0 (R70, R72): which lanes pass is a free value; none is derived while HALT holds (R91). -/
def State.deriveKeys (s : State) : State :=
  let (f, t) := s.fresh
  let pass := f.toNat % 2 ^ 24
  let t := (t.put F.KEY_KAT_STAT_PASS pass).put F.KEY_KAT_STAT_DONE 1
  let t := t.put F.KEY_STATUS_KAT_FAIL (if pass = 2 ^ 24 - 1 then 0 else 1)
  if t.key.halt then t else (t.setSlot 0 deviceKey).put F.KEY_STATUS_SLOT0_OK 1

/-- A validation begins; the flash's size and read mode are found (R403, R404). -/
def State.beginValidation (s : State) (b : Bool) : State :=
  let t : State := { s with boot.val := some b }
  let fit := t.boot.flash.fitted
  let octal := fit && t.boot.flash.octal && t.get F.BOOT_CFG_FL_MODE != 1
  let t := (t.put F.BOOT_FLASH_LOG2 (if fit then t.boot.flash.log2 else 0)).put F.BOOT_FLASH_OCTAL (if octal then 1 else 0)
  let t := t.put F.BOOT_FLASH_SFDP_OCTAL (if fit && t.boot.flash.octal then 1 else 0)
  let t := t.put F.BOOT_SLOTB_BASE_flash (if fit then t.slotBase true else 0)
  ((t.sat (if b then F.BOOT_ATTEMPTS_B else F.BOOT_ATTEMPTS_A) 1).put F.BOOT_STAT_VALIDATING 1).mark 58

/-- The power axis follows its target (R386). -/
def State.followDim (s : State) (cause : Nat) : State :=
  let want := if s.flag F.MODE_CTL_DIM then pwDim else pwLit
  if s.lit then s.setPower want cause else s

/-- The power axis leaves Dark, or follows its target after a reset with the rails on; the supply is judged (R378, R388). -/
def State.showLit (s : State) (dim : Bool) : State :=
  if s.power = pwDark then
    let t := (s.wr R.MODE_EXIT_US (BitVec.ofNat 32 (min (s.usSince 54) (2 ^ 28 - 1)))).setPower (if dim && s.flag F.MODE_CTL_DIM then pwDim else pwLit) 8
    t.supplyLit
  else if dim then s.followDim 9 else s.setPower pwLit 9

/-- No image: Hold for the configuration (R409, R412). -/
def State.configStop (s : State) : State :=
  let warm := s.seq.warm || s.seq.afterWarm
  let t : State := { s with
    seq.stage := .none
    seq.warm := false
    seq.afterWarm := warm
    boot.val := none }
  let t := (t.hold F.MODE_HOLD_WHY_CONFIG true 0xA).put F.MODE_STAT_BUSY 0
  if warm then t
  else
    let t := (List.range 32).foldl (fun s c => if s.get (F.MED_STAT_STATE c) = 1 then s.put (F.MED_STAT_STATE c) 0 else s) t
    (State.showAwake { t with dom := ⟨[], [], []⟩ }).showLit false

/-- An image is rejected (R409). -/
def State.rejectImage (s : State) (b : Bool) (code : Nat) : State :=
  let t := ((s.put (if b then F.BOOT_REJ_B else F.BOOT_REJ_A) code).put F.BOOT_STAT_LAST_CODE code)
  let t := if code = 9 then t.sat F.BOOT_FL_ERR_flash 1 else t
  let t := if b then t else t.bootEvent 0x01 b code
  (t.bootEvent 0x03 b code).configStop

/-- Where each section goes in the working area (R406). -/
def placeSections (at_ : Nat) : List Section → List (Nat × Section)
  | [] => []
  | x :: xs => (at_, x) :: placeSections ((at_ + x.length + 4095) / 4096 * 4096) xs

/-- The firmware first, then the data sections in table order. -/
def loadOrder (xs : List Section) : List (Nat × Section) :=
  placeSections 0 (xs.filter (·.type == 1) ++ xs.filter (·.type != 1))

/-- Copies the sections of a slot into the working area and starts the control cores (R406, R410). -/
def State.loadImage (s : State) (b : Bool) : State :=
  let base := s.slotBase b
  let secs := loadOrder (hdrSections (s.flashBytes base 1024))
  let t : State := { s with boot := { s.boot with
    area := secs.map (fun p => (p.1, s.flashBytes (base + p.2.offset) p.2.length))
    cores := true
    lastB := b } }
  (t.put F.BOOT_SECT_NSECT secs.length).put F.BOOT_SECT_bytes ((secs.map (·.2.length)).sum / 256)

/-- START clears once the media are found and the other band is armed (R158, R388). -/
def State.clearStart (s : State) : State :=
  if s.flag F.MODE_HOLD_WHY_START && s.lit && s.seq.stage == .none && s.boot.cores && s.seq.off == 0 &&
      (s.get F.MAP_STAT_FMT != 1 || s.get F.MAP_STAT_START == 4 || s.flag F.MAP_STAT_ARMED) then
    s.hold F.MODE_HOLD_WHY_START false 1
  else s

/-- Units in service, or held where their registers say so, once DDR5 is trained and the media are up (R308, R309). -/
def State.unitsUp (s : State) : State :=
  let t := (List.range 8).foldl (fun (s : State) n =>
    s.setUnit (uPort n) (if s.flag (F.HP_ID_ODD_INERT n) then ustMerged
      else if s.flag (F.HP_CTRL_PORT_EN n) then ustService else ustHeld)) s
  let t := ((List.range 8).map uDdr).foldl (fun (s : State) u => s.setUnit u ustService) t
  (List.range 4).foldl (fun (s : State) k =>
    s.setUnit (uClu k) (if s.flag (F.ENG_CL_CTL_STOP k) then ustHeld else ustService)) t

/-- Steps 5 to 7 of R388, replay and phase 1 of the catch-up scrub, whose phase 2 is then due on every channel (R158, R176); `image`
is what reading the image gives. -/
def State.finishStart (s : State) (image : ImageRead) : State :=
  let half := s.seq.half
  let fromPor := s.seq.unpowered
  let t : State := { s with
    seq.stage := .none
    seq.warm := false
    seq.half := false
    seq.unpowered := false
    wear.scrub := []
    wear.catchDue := List.range 32 }
  let t := (t.wakeAll.bringUp true).unitsUp
  let t := if fromPor then t.estimateUnpowered else t
  let t := (((t.findMedia half image).recalibrateAll).put F.MODE_STAT_BUSY 0).put F.MODE_HOLD_WHY_WARM 0
  let t := t.showLit true
  t.clearStart

/-- Step 7 of R398: the control cores run and WARM clears; a HALT line raised meanwhile shows now (R401). -/
def State.finishWarm (s : State) : State :=
  let t : State := { s with
    seq.warm := false
    seq.afterWarm := false }
  let t := (t.wr R.MODE_WARM_US (BitVec.ofNat 32 (min (t.usSince 62) (2 ^ 24 - 1)))).put F.MODE_STAT_BUSY 0
  let t := (if t.key.halt && !t.key.haltedRun then t.halt else t).hold F.MODE_HOLD_WHY_WARM false 9
  t.followDim 2

/-- An image is accepted (R409, R411). -/
def State.acceptImage (s : State) (b : Bool) : State :=
  let h := s.flashBytes (s.slotBase b) 1024
  let len := hdrLen h
  let dig := s.slotDigest b len
  let t := (List.range 12).foldl (fun (s : State) i => s.wr (R.BOOT_DIGEST i) (ofBytes 32 ((dig.drop (4 * i)).take 4))) s
  let t := ((t.wr R.BOOT_IMG_LEN (BitVec.ofNat 32 len)).wr R.BOOT_IMG_SV (BitVec.ofNat 32 (hdrSv h))).wr R.BOOT_IMG_BUILD
    (BitVec.ofNat 32 (leAt h 16 4))
  let t := ((t.put F.BOOT_STAT_ACCEPTED 1).put F.BOOT_STAT_SLOT (if b then 1 else 0)).put F.BOOT_STAT_KEYSRC
    (if (t.vslot 1).isSome then 1 else 0)
  let t := (t.put F.BOOT_STAT_LAST_CODE 0).put (if b then F.BOOT_REJ_B else F.BOOT_REJ_A) 0
  let t := if b then (t.bootEvent 0x02 b 0).bump 9 else t
  let t := t.bootEvent 0x04 b 0
  let t := if leAt h 20 4 = 1 then (List.range (hdrSv h - t.spreadDue 12)).foldl (fun (s : State) _ => s.bump 12) t else t
  t.hold F.MODE_HOLD_WHY_CONFIG false 0xA

/-- A validation ends (R408, R409). At a warm reset the media's bring-up has ended before it (R398 step 6); at a start theirs begins
after it (R388 step 6). -/
def State.validationDone (s : State) (readOk : Bool) : State :=
  match s.boot.val with
  | none => s
  | some b =>
    let t := if s.seq.warm then s.bringUp false else s
    let t : State := { t with boot.val := none }
    let t := (t.put F.BOOT_STAT_VALIDATING 0).wr R.BOOT_VALID_US (BitVec.ofNat 32 (min (t.usSince 58) (2 ^ 24 - 1)))
    let code := t.checkSlot b readOk
    if code ≠ 0 then t.rejectImage b code
    else
      let t := t.acceptImage b
      if t.seq.warm && t.seq.stage == .none then (t.loadImage b).finishWarm
      else
        let t := if t.seq.afterWarm then t else t.beginBringUp true
        (State.put { t with seq.stage := .load } F.BOOT_STAT_LOADING 1).mark 59

/-- The second read of the accepted slot ends (R410); `image` is what a start's reading of the image gives (R158). -/
def State.loadDone (s : State) (readOk : Bool) (image : ImageRead) : State :=
  if s.seq.stage ≠ .load then s
  else
    let b := s.flag F.BOOT_STAT_SLOT
    let t := (s.put F.BOOT_STAT_LOADING 0).wr R.BOOT_LOAD_US (BitVec.ofNat 32 (min (s.usSince 59) (2 ^ 24 - 1)))
    let dig := (List.range 12).flatMap (fun i => toBytes 4 (s.rd (R.BOOT_DIGEST i)))
    if !readOk || !s.flashUsable then t.rejectImage b 9
    else if s.slotDigest b (s.rd R.BOOT_IMG_LEN).toNat ≠ dig then t.rejectImage b 0xA
    else
      let t := t.loadImage b
      if t.seq.afterWarm then State.finishWarm { t with seq.stage := .none } else t.finishStart image

/-- Merged pairs take effect (R41). -/
def State.mergePorts (s : State) : State :=
  (List.range 4).foldl (fun (s : State) m =>
    let on := if s.flag (F.HP_LINK_CFG_MERGE (2 * m)) then 1 else 0
    (s.put (F.HP_ID_MERGED (2 * m)) on).put (F.HP_ID_ODD_INERT (2 * m + 1)) on) s

/-- The scan ends and the store takes writes (R328); after a POR the sequencer may power up (R369), and a start goes on to its
validation (R388). Record writes still under way end first, and a held cold reset waits for MRST_N (R371). -/
def State.storeReady (s : State) : State :=
  let writing := s.flag F.NVS_STATUS_READY && s.nvs.queue.any (fun w => match w.done with
    | .part _ => true
    | .record _ _ _ => true
    | _ => false)
  if s.seq.por || s.seq.stage ≠ .scan || s.seq.held || writing then s
  else
    let t := s.nvScan.evrScan.loadSettings
    let t := (t.startFields true).loadVault.orbitFollow
    let t : State := { t with rgn.nextBoundary := some t.boundaryAt }
    let t := (t.bump (if t.seq.src = 1 then 0 else 1)).put F.NVS_STATUS_READY 1
    let t := t.put F.NVS_READY_US_VALUE (min (t.usSince 61) (2 ^ 16 - 1))
    if t.seq.src = 1 then
      let t : State := { t with seq.stage := .none }
      let t := (t.loadPower).wr R.MED_DRIFT_CLK (BitVec.ofNat 32 (t.driftRecord + t.drift))
      if t.flag F.SEQ_CFG_AUTO_ON then t.onRequest 1 else t
    else
      let t := t.deriveKeys.mergePorts
      State.beginValidation { t with seq.stage := .validate } false

/-! ### BOOT_CTL and BOOT_SEAL (R413, R414, R416) -/

/-- A write of BOOT_CTL. -/
def State.writeBootCtl (s : State) (p : Path) (v : Word) : State :=
  let useB := F.BOOT_CTL_USE_B.on v
  let again := F.BOOT_CTL_RETRY.on v
  if !s.mayWrite p R.BOOT_CTL || p != .mgmt || !(useB || again) || s.seq.off ≠ 0 then s
  else
    let code := fun (c : Nat) => s.put F.BOOT_STAT_CTL_CODE c
    if !s.authorised || (useB && again) || F.BOOT_CTL_KEY.of v ≠ 0x4253 then code 1
    else if !s.flag F.MODE_HOLD_WHY_CONFIG then code 2
    else if s.boot.val.isSome || s.seq.stage ≠ .none then code 3
    else
      let t := code 0
      let t : State := if t.seq.afterWarm then t else State.put { t with seq.stage := .validate } F.MODE_STAT_BUSY 1
      t.beginValidation useB

/-- A write of BOOT_SEAL by a control core or the management port. -/
def State.writeBootSeal (s : State) (p : Path) (v : Word) : State :=
  if s.mayWrite p R.BOOT_SEAL && (p == .mgmt || p == .cc) && F.BOOT_SEAL_KEY.of v == 0x5345 then s.put F.BOOT_STAT_SEALED 1 else s

/-! ### Flash operations (R415) -/

/-- The alignment of an operation: read and program a page, erase a sector or a block. -/
def flashAlign (op : Nat) : Nat := if op ≤ 2 then 256 else if op = 3 then 4096 else 65536

/-- A write of BOOT_FL_CMD. -/
def State.writeFlCmd (s : State) (p : Path) (v : Word) : State :=
  if !s.mayWrite p R.BOOT_FL_CMD || p != .mgmt || !F.BOOT_FL_CMD_GO.on v || s.flag F.BOOT_FL_STAT_BUSY then s
  else
    let op := F.BOOT_FL_CMD_OP.of v
    let a := s.get F.BOOT_FL_ADDR_ADDR
    let code := fun (c : Nat) => s.put F.BOOT_FL_STAT_CODE c
    if !s.authorised then code 1
    else if s.boot.val.isSome || s.seq.stage = .load then code 2
    else if !within 1 4 op then code 3
    else if !s.flashUsable then code 5
    else if a % flashAlign op ≠ 0 ∨ s.flashSize < a + flashAlign op then code 3
    else State.put { s with boot.op := some (op, a) } F.BOOT_FL_STAT_BUSY 1

/-- Programs bytes: a bit once 0 stays 0 until it is erased. -/
def flashProgram (m : SMap Byte) (a : Nat) (bs : List Byte) : SMap Byte :=
  bs.zipIdx.foldl (fun m b => mapSet (fun _ => (0xFF : Byte)) m (a + b.2) (mapGet (fun _ => (0xFF : Byte)) m (a + b.2) &&& b.1)) m

/-- A flash operation ends, or times out. -/
def State.flashDone (s : State) (ok : Bool) : State :=
  match s.boot.op with
  | none => s
  | some (op, a) =>
    let t : State := { s with boot.op := none }
    let t := (t.put F.BOOT_FL_STAT_BUSY 0).put F.BOOT_FL_STAT_CODE (if ok then 0 else 4)
    if !ok then t
    else if op = 1 then { t with boot.win := ((chunks 4 64 (t.flashBytes a 256)).zipIdx.map (fun w => (w.2, ofBytes 32 w.1))) }
    else
      let old := t.boot.flash.bytes
      let new :=
        if op = 2 then flashProgram old a ((List.range 64).flatMap (fun i => toBytes 4 ((mapGet? t.boot.win i).getD 0)))
        else mapFilter (fun k _ => decide (k < a) || decide (a + flashAlign op ≤ k)) old
      { t with boot.flash.bytes := new }

/-! ### MODE_STORE (R419, R420) -/

def State.msStat (s : State) (p : Path) (busy code entry : Nat) : State :=
  s.setPath p { s.path p with msStat := BitVec.ofNat 32 (busy + 2 * code + 32 * entry) }

def State.msBusy (s : State) (p : Path) : Bool := (s.path p).msStat.getLsbD 0

/-- The entries in a path's window. -/
def State.msEntries (s : State) (p : Path) : List (Word × Word) :=
  let x := s.path p
  (List.range x.msLen).map (fun i => ((mapGet? x.msWin (2 * i)).getD 0, (mapGet? x.msWin (2 * i + 1)).getD 0))

/-- A register's class N word under a set of entries; the blank value without one. -/
def entryWord (es : List (Word × Word)) (off : Nat) : Word :=
  match es.find? (fun e => e.1.toNat == off) with
  | some e => e.2
  | none => regReset off

/-- The rules across fields: CRIT and WARN, RESET and WARN - HYST, and R129; each with the registers it concerns. -/
def crossFails (es : List (Word × Word)) : Option (List Nat) :=
  let lim := entryWord es R.THM_LIMIT_CFG
  let sup := entryWord es R.SUP_CFG
  let map := entryWord es R.MAP_CFG_NEXT
  if F.THM_LIMIT_CFG_CRIT.of lim ≤ F.THM_LIMIT_CFG_WARN.of lim then some [R.THM_LIMIT_CFG]
  else if F.SUP_CFG_WARN.of sup ≤ F.SUP_CFG_RESET.of sup + F.SUP_CFG_HYST.of sup then some [R.SUP_CFG]
  else if 37 * 2 ^ 30 < saveSize (F.MAP_CFG_NEXT_VAULT_GIB.of map) (F.MAP_CFG_NEXT_HALO_64.of map) (F.MAP_CFG_NEXT_DELTA_64M.of map) then
    some [R.MAP_CFG_NEXT]
  else none

def ascending : List (Word × Word) → Bool
  | a :: b :: es => decide (a.1 < b.1) && ascending (b :: es)
  | _ => true

/-- Halted or Eclipse, or another MODE_STORE that runs. -/
def State.msBlocked (s : State) : Nat × Nat :=
  if s.halted || s.power = pwEclipse then (7, 0) else if s.boot.store.isSome then (9, 0) else (0, 0)

/-- The checks of a GO after KEY and authorisation: the code and the first failing entry. -/
def State.msCheck (s : State) (n : Nat) (es : List (Word × Word)) : Nat × Nat :=
  let bad := fun (p : Word × Word → Bool) => es.findIdx? p
  let regs := fun (p : Word × Word → Bool) => bad (fun e => !(entryIsStep e.1 && decide (e.1.toNat < 2 ^ 31 + 256)) && p e)
  if 512 < n ∨ !ascending es then (2, 0)
  else match regs (fun e => !(entryNames e.1 && entryFits e)) with
  | some i => (3, i)
  | none => match regs (fun e => !settingInRange e.1.toNat e.2) with
    | some i => (4, i)
    | none => match crossFails es with
      | some offs => (5, (bad (fun e => offs.contains e.1.toNat)).getD 0)
      | none => match bad (fun e => entryIsStep e.1) with
        | some i =>
          if (entryProgram es).isSome then s.msBlocked
          else (6, (bad (fun e => entryIsStep e.1 && !seqWordOk e.2)).getD i)
        | none => s.msBlocked
/-- Copies the record in use into the requester's window. -/
def State.msLoad (s : State) (p : Path) : State :=
  let es := match s.recUsed 1 with
    | some bs => recEntries bs
    | none => []
  let win := es.zipIdx.flatMap (fun e => [(2 * e.2, e.1.1), (2 * e.2 + 1, e.1.2)])
  (s.setPath p { s.path p with
    msLen := es.length
    msWin := win }).msStat p 0 0 0

/-- The record's contents: the format, n, and the entries. -/
def msContent (es : List (Word × Word)) : List Byte :=
  [1, 0] ++ leBytes 2 es.length ++ [0, 0, 0, 0] ++ es.flatMap (fun e => toBytes 4 e.1 ++ toBytes 4 e.2)

/-- GO: the checks, then the store of the record. -/
def State.msGo (s : State) (p : Path) : State :=
  let es := s.msEntries p
  if (p == .mgmt && !s.authorised) || (p == .cc && s.flag F.BOOT_STAT_SEALED) then s.msStat p 0 1 0
  else
    let (code, i) := s.msCheck (s.path p).msLen es
    if code ≠ 0 then s.msStat p 0 code i
    else
      let (copyB, seq) := s.recNext 1
      let t : State := { s with boot.store := some (Path.num p, copyB, seq) }
      (t.msStat p 1 0 0).storeRecord 1 (msContent es)

/-- A write of BOOT_MS_CTL by the management port or a control core. -/
def State.writeMsCtl (s : State) (p : Path) (v : Word) : State :=
  let load := F.BOOT_MS_CTL_LOAD.on v
  let go := F.BOOT_MS_CTL_GO.on v
  if !s.mayWrite p R.BOOT_MS_CTL || !(p == .mgmt || p == .cc) || !(load || go) || s.msBusy p then s
  else if F.BOOT_MS_CTL_KEY.of v ≠ 0x4D53 then s.msStat p 0 1 0
  else
    let t := if load then s.msLoad p else s
    if go then t.msGo p else t

/-- The path of a MODE_STORE in progress. -/
def storePath (k : Nat) : Path := if k = 13 then .cc else .mgmt

/-- The record's store ends: it is in use and its fields take force, or it failed (R419, R420). -/
def State.msDone (s : State) : State :=
  match s.boot.store with
  | none => s
  | some (k, copyB, seq) =>
    let p := storePath k
    if s.nvs.queue.any (fun w => match w.done with
      | .record 1 _ _ => true
      | .part 1 => true
      | _ => false) then s
    else
      let t : State := { s with boot.store := none }
      if mapGet? t.nvs.inUse 1 = some copyB ∧ (t.rd (R.NVS_REC_SEQ 1)).toNat = seq % 2 ^ 32 then
        let t := t.loadSettings.bump 8
        let t := (t.wr64 R.BOOT_MS_TICK_LO t.aonTick.toNat).msStat p 0 0 0
        let t := if (mapGet? t.marks 57).isSome then t.supplyMoved else t
        t.thermPin.orbitFollow
      else t.msStat p 0 8 0

/-! ### MODE_CTL (R386, R390, R392, R397, R398) -/

/-- A warm reset, to its validation (R398, R409). -/
def State.warmBegin (s : State) : State :=
  let first := s.configHold
  let t := ((s.put F.MODE_STAT_BUSY 1).mark 62).warmReset
  let t := t.deriveKeys
  let t : State := if first then { t with seq.stage := .validate } else t
  t.beginValidation (if first then false else t.boot.lastB)

/-- The code that a COLD or WARM request gets. -/
def State.resetCode (s : State) (warm : Bool) (v : Word) : Nat :=
  if F.MODE_CTL_KEY.of v ≠ 0x4D43 then 1
  else if warm && s.service = svHalted then 2
  else if !s.lit then 3
  else if !s.steady || s.flag F.THM_STAT_LATCH then 4
  else 0

/-- A request for a reset: COLD, or WARM without it. -/
def State.resetRequest (s : State) (v : Word) : State :=
  let cold := F.MODE_CTL_COLD.on v
  let code := s.resetCode (!cold) v
  let t := s.put F.MODE_STAT_CODE code
  let t := if cold && code ≠ 1 && t.flag F.THM_STAT_LATCH then t.refuseUp else t
  if code ≠ 0 then t else if cold then t.coldBegin 3 else t.warmBegin

/-- A write of MODE_CTL: the power target, RELEASE, SEAL, and then a reset (R402). -/
def State.writeModeCtl (s : State) (p : Path) (v : Word) : State :=
  if !s.mayWrite p R.MODE_CTL || p != .mgmt || !s.authorised then s
  else
    let was := s.flag F.MODE_CTL_DIM
    let t := (s.put F.MODE_CTL_DIM (F.MODE_CTL_DIM.of v)).put F.MODE_STAT_CODE 0
    let t := if t.seq.warm then t else t.followDim 2
    let t := if was && !t.flag F.MODE_CTL_DIM && t.lit && !t.configHold then t.wakeAll else t
    let t := if F.MODE_CTL_RELEASE.on v then t.hold F.MODE_HOLD_WHY_RELEASE false 2 else t
    let t := if !F.MODE_CTL_SEAL.on v then t
      else if t.trust = trOwner then (t.setTrust trSealed 2).letGo else t.put F.MODE_STAT_CODE 5
    if F.MODE_CTL_COLD.on v || F.MODE_CTL_WARM.on v then t.resetRequest v else t

/-! ### The commands -/

def execNvStoreReady (s : State) : Host.Outcome State Fault Refusal := .next s.storeReady
def execBootValidationDone (readOk : Bool) (s : State) : Host.Outcome State Fault Refusal := .next (s.validationDone readOk)
def execBootLoadDone (load : LoadEnd) (s : State) : Host.Outcome State Fault Refusal := .next (s.loadDone load.readOk load.image)
def execBandArmed (s : State) : Host.Outcome State Fault Refusal := .next s.bandArmed.clearStart
def execUseB (p : Path) (v : Word) (s : State) : Host.Outcome State Fault Refusal := .next (s.writeBootCtl p v)
def execRetry (p : Path) (v : Word) (s : State) : Host.Outcome State Fault Refusal := .next (s.writeBootCtl p v)
def execBootSeal (p : Path) (v : Word) (s : State) : Host.Outcome State Fault Refusal := .next (s.writeBootSeal p v)
def execFlashRead (p : Path) (v : Word) (s : State) : Host.Outcome State Fault Refusal := .next (s.writeFlCmd p v)
def execFlashProgram (p : Path) (v : Word) (s : State) : Host.Outcome State Fault Refusal := .next (s.writeFlCmd p v)
def execFlashErase4k (p : Path) (v : Word) (s : State) : Host.Outcome State Fault Refusal := .next (s.writeFlCmd p v)
def execFlashErase64k (p : Path) (v : Word) (s : State) : Host.Outcome State Fault Refusal := .next (s.writeFlCmd p v)
def execFlashOpDone (ok : Bool) (s : State) : Host.Outcome State Fault Refusal := .next (s.flashDone ok)
def execModeStoreLoad (p : Path) (v : Word) (s : State) : Host.Outcome State Fault Refusal := .next (s.writeMsCtl p v)
def execModeStore (p : Path) (v : Word) (s : State) : Host.Outcome State Fault Refusal := .next (s.writeMsCtl p v)
def execModeStoreDone (s : State) : Host.Outcome State Fault Refusal := .next s.msDone
def execModeCold (p : Path) (v : Word) (s : State) : Host.Outcome State Fault Refusal := .next (s.writeModeCtl p v)
def execModeWarm (p : Path) (v : Word) (s : State) : Host.Outcome State Fault Refusal := .next (s.writeModeCtl p v)
def execModeDim (p : Path) (v : Word) (s : State) : Host.Outcome State Fault Refusal := .next (s.writeModeCtl p v)
def execModeRelease (p : Path) (v : Word) (s : State) : Host.Outcome State Fault Refusal := .next (s.writeModeCtl p v)
def execModeSeal (p : Path) (v : Word) (s : State) : Host.Outcome State Fault Refusal := .next (s.writeModeCtl p v)

end Sys2Proof.Machine
end

