-- ==== Sys2Proof/Machine/Manage.lean ====
section
/-! DEFINITION. The management space (chapter 17): what every address reads, where every write goes, the latch of R7, refused,
unassigned and unanswered accesses (R425, R426), the region commit port (R19), and the management port's messages (R430). -/

namespace Sys2Proof.Machine

/-! ### Layout (R422, R423) -/

/-- The windows of R423. -/
inductive Window where
  | met (off : Nat)
  | counter (off : Nat)
  | event (off : Nat)
  | cursor (off : Nat)
  | token (off : Nat)
  | buffer (off : Nat)
  | staging (off : Nat)
  | flash (off : Nat)
  | rc (off : Nat)
deriving DecidableEq, Repr

/-- The window that an offset lies in, with the offset inside it (R423). -/
def windowOf (off : Nat) : Option Window :=
  let inside := fun (base size : Nat) => decide (base ≤ off) && decide (off < base + size)
  if inside 0x1000000 0x2000000 then some (.met (off - 0x1000000))
  else if inside 0x3000000 256 then some (.counter (off - 0x3000000))
  else if inside 0x3000100 256 then some (.event (off - 0x3000100))
  else if inside 0x3000200 16 then some (.cursor (off - 0x3000200))
  else if inside 0x3000300 64 then some (.token (off - 0x3000300))
  else if inside 0x3001000 4096 then some (.buffer (off - 0x3001000))
  else if inside 0x3002000 4096 then some (.staging (off - 0x3002000))
  else if inside 0x3003000 256 then some (.flash (off - 0x3003000))
  else if inside rcBase 128 then some (.rc (off - rcBase))
  else none

/-- An address that holds no register and lies in no window (R423). -/
def unassigned (off : Nat) : Bool := (windowOf off).isNone && (rowOf off).isNone

/-- Whether the block or window at an address answers (R426); the metering window does from step 5 of R388 on, which the load of the
accepted image follows (R410). -/
def State.answersAt (s : State) (off : Nat) : Bool :=
  match windowOf off with
  | some (.met _) => !s.seq.por && !s.configHold && (s.power != pwDark || s.seq.stage == .load)
  | some (.flash _) => s.answers .boot
  | some (.rc _) => s.answers .map
  | some _ => !s.seq.por
  | none => match blockOf off with
    | some b => s.answers b
    | none => !s.seq.por

/-- The address lies in the KVC block or its buffer (R357). -/
def usesVault (off : Nat) : Bool :=
  match windowOf off with
  | some (.buffer _) => true
  | some _ => false
  | none => blockOf off == some .kvc

/-- What an access wakes or keeps alive: the fabric's domain (R426), and the lock of the key vault (R357). -/
def State.reach (s : State) (p : Path) (fabric vault : Bool) : State :=
  let t := if fabric then s.touch else s
  if vault then t.useVault p else t

/-- The access reaches the data-plane fabric's domain (R30, R426). -/
def usesFabric (off : Nat) : Bool :=
  match windowOf off with
  | some (.met _) => true
  | some (.rc _) => true
  | some _ => false
  | none => match blockOf off with
    | some .mode | some .boot | some .seq | some .thm | some .nvs | some .evr | some .kvc | some .id | none => false
    | some _ => true

/-- Counts an access to an unassigned address (R425). -/
def State.countUnmapped (s : State) (write : Bool) (off : Nat) : State :=
  (s.sat F.ID_UNMAPPED_accesses 1).wr R.ID_UNMAPPED_ADDR
    (BitVec.ofNat 32 (off + (if write then 2 ^ 30 else 0) + 2 ^ 31))

/-- A path's bit of ID_ACC_ERR (R429, R432). -/
def accBit : Path → Option Nat
  | .mgmt => some 0
  | .cluster k => some (1 + k.val)
  | .cc => some 5
  | .host _ => none

/-- Sets the requester's access-error bit (R6, R429). -/
def State.accessError (s : State) (p : Path) : State :=
  match p, accBit p with
  | _, some i => s.wr R.ID_ACC_ERR (s.rd R.ID_ACC_ERR ||| (1#32 <<< i))
  | .host n, none => s.put (F.HP_STATUS_ACC_ERR n) 1
  | _, none => s

/-- A write of ID_ACC_ERR clears the bit of the writing path alone (R432). -/
def State.writeAccErr (s : State) (p : Path) (v : Word) : State :=
  match accBit p with
  | some i => if s.mayWrite p R.ID_ACC_ERR && v.getLsbD i then s.wr R.ID_ACC_ERR (s.rd R.ID_ACC_ERR &&& ~~~ (1#32 <<< i)) else s
  | none => s

/-! ### What registers show -/

/-- The index at which a register family lies at an offset. -/
def indexOf (f : Nat → Nat) (n off : Nat) : Option Nat := (List.range n).find? (fun i => f i == off)

/-- The indexes of a register family of two at an offset. -/
def indexOf2 (f : Nat → Nat → Nat) (n m off : Nat) : Option (Nat × Nat) :=
  (List.range n).findSome? (fun i => (indexOf (f i) m off).map (fun j => (i, j)))

/-- The ID block (R431, R432). -/
def State.idWord (s : State) (p : Path) (off : Nat) : Word :=
  if off = R.ID_VENDOR then 0x00164B52#32
  else if off = R.ID_STEPPING then 0xA0#32
  else if off = R.ID_IDCODE then 0x000164B7#32
  else if off = R.ID_SERIAL_LO then Config.serial.extractLsb' 0 32
  else if off = R.ID_SERIAL_HI then Config.serial.extractLsb' 32 32
  else if off = R.ID_GEOM then BitVec.ofNat 32 (32 + 16 * 2 ^ 6 + 8 * 2 ^ 11 + 8 * 2 ^ 15 + 4 * 2 ^ 19)
  else if off = R.ID_MAP_VER then 0x0C200100#32
  else if off = R.ID_PATH then BitVec.ofNat 32 (Path.num p)
  else s.rd off

/-- KEY_SLOT_QUERY: the state of the slot it selects (R71, R104). -/
def State.slotQuery (s : State) : Word :=
  let sel := s.get F.KEY_SLOT_QUERY_SEL
  let held := s.slot sel
  let kgen := match held with
    | some k => k.kgen.toNat
    | none => 0
  BitVec.ofNat 32 (sel + (if held.isSome then 2 ^ 16 else 0) + 2 ^ 17 * kgen +
    (if s.key.shadows.any (fun q => q.2.1 == sel) then 2 ^ 19 else 0) + (if s.slotNamed sel then 2 ^ 20 else 0))

/-- The QOS and PMC registers that show state kept elsewhere (R117, R120, R126). -/
def State.qosWord (s : State) (p : Path) (off : Nat) : Word :=
  let c := s.pmcAt s.pmcSel
  if off = R.PMC_EVT then c.evt.zeroExtend 32
  else if off = R.PMC_FILT then c.filt
  else if off = R.PMC_ADDR_BASE_LO then c.baseLo
  else if off = R.PMC_ADDR_BASE_HI then c.baseHi
  else if off = R.PMC_ADDR_LIM_LO then c.limLo
  else if off = R.PMC_ADDR_LIM_HI then c.limHi
  else if off = R.PMC_HI then BitVec.ofNat 32 (s.path p).pmcHi
  else match indexOf R.QOS_C_LEVEL 8 off with
    | some k => s.levelWord k
    | none => s.rd off

/-- MEDn_SCRUB_STAT with the hours since the start of the last completed pass (R191). -/
def State.scrubWord (s : State) (c : Nat) : Word :=
  let hours := match mapGet? s.wear.lastPass c with
    | some was => min 65535 ((s.drift - was) / 3600)
    | none => 0
  fieldPut (s.rd (R.MED_SCRUB_STAT c)) 16 16 hours

def State.medWord (s : State) (c off : Nat) : Word :=
  if off = R.MED_SCRUB_STAT c then s.scrubWord c
  else if off = R.MED_DIE_INFO c then s.dieInfoWord c
  else if off = R.MED_DIE_TEMP c then s.dieTempWord c
  else s.rd off

/-- CRC of the 1,024 B of the program in force (R365). -/
def State.progCrc (s : State) : Word := crc32 ((List.range 256).flatMap (fun i => toBytes 4 (s.progWord i)))

/-- Milliseconds of hold-off that remain (R369). -/
def State.holdOffMs (s : State) : Nat :=
  match mapGet? s.marks 56 with
  | some t => min 65535 ((t - s.now + 199999) / 200000)
  | none => 0

/-- E_need of R378 as SUP_STAT shows it, in J rounded up. -/
def State.energyShown (s : State) : Nat := min 255 ((s.energyNeed (!s.store.vault.isEmpty) + 999999) / 1000000)

def State.seqWord (s : State) (off : Nat) : Word :=
  if off = R.SEQ_PROG_DATA then s.progWord (s.get F.SEQ_PROG_SEL_step)
  else if off = R.SEQ_PROG_CRC then s.progCrc
  else if off = R.SEQ_HOLDOFF then BitVec.ofNat 32 s.holdOffMs
  else if off = R.SUP_STAT then fieldPut (s.rd off) 8 8 s.energyShown
  else s.rd off

/-- AON ticks kept under a number. -/
def State.ticksOf (s : State) (k : Nat) : Nat := mapGet (fun _ => 0) s.modeTicks k

/-- MODE_TIMEm in seconds, or ms for Eclipse, and MODE_HOLD_US (R402). -/
def State.modeWord (s : State) (off : Nat) : Word :=
  match indexOf R.MODE_TIME 12 off with
  | some m => BitVec.ofNat 32 (min (2 ^ 32 - 1) (if m = 3 then s.ticksOf m * 1000 / 32768 else s.ticksOf m / 32768))
  | none =>
    if off = R.MODE_HOLD_US then BitVec.ofNat 32 (min (2 ^ 32 - 1) (s.ticksOf 40 * 1000000 / 32768)) else s.rd off

/-- THM_RESk: seconds at a dimming step (R323). -/
def State.thmWord (s : State) (off : Nat) : Word :=
  match indexOf R.THM_RES 16 off with
  | some k => BitVec.ofNat 32 (min (2 ^ 32 - 1) (s.ticksOf (16 + k) / 32768))
  | none => s.rd off

/-- BOOT_MS_STAT and BOOT_MS_LEN are the requester's own (R419). -/
def State.bootWord (s : State) (p : Path) (off : Nat) : Word :=
  if off = R.BOOT_MS_STAT then (s.path p).msStat
  else if off = R.BOOT_MS_LEN then BitVec.ofNat 32 (s.path p).msLen
  else s.rd off

/-- A read of a port's counter of flit replays counts those since the last time, which happen on the link below any command (R68; log 4,
log 7). -/
def State.readReplays (s : State) (lo : Nat) : State :=
  match (List.range 8).find? (fun n => R.HP_CNT_LO n 9 == lo) with
  | some n => s.noteReplays n
  | none => s

/-- MAP_VAULT_STAT: [7] says whether a write waits for a set now (R161). -/
def State.vaultWord (s : State) : Word := (s.put F.MAP_VAULT_STAT_WAIT (if s.writeWaits then 1 else 0)).rd R.MAP_VAULT_STAT

/-- The word at a register that the path may read, before any effect of the read; `off` is its home. -/
def State.regWord (s : State) (p : Path) (off : Nat) : Word :=
  match blockOf off with
  | some (.hp n) => if off = R.HP_ID n then fieldPut (s.rd off) 0 3 n else s.rd off
  | some .key =>
    if (indexOf R.KEY_KEK_DATA 8 off).isSome then 0
    else if off = R.KEY_SLOT_QUERY then s.slotQuery else s.rd off
  | some .qos => s.qosWord p off
  | some .map => if off = R.MAP_VAULT_STAT then s.vaultWord else s.rd off
  | some (.med n) => s.medWord n off
  | some .stq => (s.readStq p off).getD (s.rd off)
  | some .orb => (s.readOrb p off).getD (s.rd off)
  | some .seq => s.seqWord off
  | some .kvc => if off = R.KVC_AUTH then s.readAuth else s.rd off
  | some .mode => s.modeWord off
  | some .thm => s.thmWord off
  | some .boot => s.bootWord p off
  | some .id => s.idWord p off
  | _ => s.rd off

/-! ### The latch of a 64-bit counter (R7) -/

/-- The low words of the 64-bit values read under R7. -/
def wideRegs : List Nat :=
  [R.KEY_MACV_LO, R.KEY_DMR_MADE_LO, R.KEY_DMR_DONE_LO, R.KEY_LANE_BUSY_LO, R.TRM_LINES_LO, R.QOS_BOUND_POISON_LO,
   R.QOS_RECON_OK_LO, R.QOS_SPEC_LO, R.QOS_SUSPEND_LO, R.QOS_PWR_HELD_LO, R.MET_EPOCH_LO, R.MET_TICK_LO, R.MAP_ECL_SIZE_LO,
   R.MAP_VAULT_WAIT_LO, R.HALO_VALID_LO, R.HALO_DRAIN_LO, R.HALO_INPLACE_LO, R.HALO_BFULL_LO, R.FOLD_DONE_LO, R.FOLD_GC_LO,
   R.FOLD_RESET_LO, R.ENG_ZERO_TILES_LO, R.ENG_DESC_LO, R.ENG_CC_INV_LO] ++
  [R.STQ_S0_RX_LO, R.STQ_S1_RX_LO, R.STQ_S0_TX_LO, R.STQ_S1_TX_LO, R.STQ_Q_ENQ_LO, R.STQ_Q_DEQ_LO, R.ORB_DIRGEN_LO,
   R.ORB_PEER_TXSEQ_LO, R.ORB_DIR_QUERY_LO, R.ORB_RWRITE_LO, R.ORB_MIG_TILES_LO, R.ORB_REM_RD_LO, R.ORB_REM_WR_LO,
   R.NVS_WR_GROUPS_LO, R.NVS_STORE_CNT_LO, R.SEQ_FAULT_TICK_LO, R.BOOT_MS_TICK_LO]

/-- An offset is the low word of a 64-bit counter. -/
def wideLo (off : Nat) : Bool :=
  wideRegs.contains off || (indexOf2 R.HP_CNT_LO 8 16 off).isSome || (indexOf R.MED_BUSY_LO 32 off).isSome ||
  (indexOf R.ENG_CC_HIT_LO 4 off).isSome || (indexOf R.ENG_CC_MISS_LO 4 off).isSome ||
  (indexOf R.ORB_S_TX_LO 2 off).isSome || (indexOf R.ORB_S_RX_LO 2 off).isSome

/-- The identity of the counter whose low word is at an offset: a selected queue or peer tells its counters apart. -/
def State.wideId (s : State) (p : Path) (lo : Nat) : Nat :=
  if lo = R.STQ_Q_ENQ_LO ∨ lo = R.STQ_Q_DEQ_LO then lo + 2 ^ 26 * (1 + (s.path p).stqSel)
  else if lo = R.ORB_PEER_TXSEQ_LO then lo + 2 ^ 26 * (1 + (s.path p).orbPeer)
  else lo

/-- A read of the low word of a 64-bit counter: the path's latch takes the high word and the counter's identity (R7). -/
def State.readLo (s : State) (p : Path) (lo : Nat) : Word × State :=
  let t := s.readReplays lo
  (t.regWord p lo, t.setPath p { t.path p with latch := some (t.wideId p lo, t.regWord p (lo + 4)) })

/-- A read of the high word: the latched word when this counter set the latch, else the word as it stands (R7). -/
def State.readHi (s : State) (p : Path) (lo : Nat) : Word × State :=
  let t := s.readReplays lo
  match (s.path p).latch with
  | some (k, w) => if k = s.wideId p lo then (w, s) else (t.regWord p (lo + 4), t)
  | none => (t.regWord p (lo + 4), t)

/-! ### Reads -/

/-- The word a row of its own has answered a path with, taken back from the answers. -/
def State.took (t : State) : Word × State :=
  match t.out with
  | .regData _ w :: rest => (w, { t with out := rest })
  | _ => (0, t)

/-- A read of a register that the path may read, with the effects that reads of some registers have. -/
def State.readRow (s : State) (p : Path) (off : Nat) : Word × State :=
  if off = R.TRM_STATUS then State.took (s.readTrmStatus p)
  else if off = R.ORB_RACK_NS_MAX then State.took (s.readRackMax p)
  else match indexOf R.PMC_LO 512 off with
    | some i => State.took (s.readPmcLo p i)
    | none => match indexOf R.QOS_C_WAITMAX 8 off with
      | some c => State.took (s.readWaitmax p c)
      | none => match indexOf R.HP_RST_STAT 8 off with
        | some n => State.took (s.readRstStat p n)
        | none =>
          if wideLo off then s.readLo p off
          else if decide (4 ≤ off) && wideLo (off - 4) then s.readHi p (off - 4)
          else (s.regWord p off, s)

/-- Bytes of a metering buffer, as 16 dwords (R123). -/
def MetBuf.word (b : MetBuf) (i : Nat) : Word :=
  let ws := [b.epoch, b.tick, b.live.bytesRd, b.live.bytesWr, b.live.tileTicks, b.live.engCycles, b.live.wrFail]
  if i < 14 then (ws.getD (i / 2) 0).extractLsb' (32 * (i % 2)) 32
  else if i = 14 then b.gen else b.flags.zeroExtend 32

/-- The metering window (R123, R423). -/
def State.readMet (s : State) (p : Path) (off : Nat) : Word :=
  let r := off / 128
  let m := s.met r
  let sees := match p with
    | .mgmt => true
    | .cc => true
    | .host n => !s.oddMerged n && (dPorts (s.desc r)).testBit n
    | .cluster _ => false
  if sees then MetBuf.word (if off % 128 < 64 then m.buf0 else m.buf1) (off % 64 / 4) else 0

/-- The region commit port as the control cores read it (R19). -/
def State.readRc (s : State) (p : Path) (off : Nat) : Word :=
  let c := s.rgn.rc
  let bit := fun (b : Bool) (i : Nat) => if b then 2 ^ i else 0
  if p != .cc then 0
  else if off = 0 then BitVec.ofNat 32 c.region
  else if off = 8 then
    BitVec.ofNat 32 (bit c.busy 0 + 2 * c.status + bit (s.isDraining c.region) 5 + bit c.keyErr 6)
  else if off = 0xC then dGen (s.desc c.region)
  else if off = 0x10 then BitVec.ofNat 32 (drainingCount s)
  else if 0x40 ≤ off then dw c.staging ((off - 0x40) / 4)
  else 0

/-- A read in a window that answers (R423). -/
def State.readWindow (s : State) (p : Path) : Window → Word
  | .met off => s.readMet p off
  | .counter off => if p = .mgmt ∨ p = .cc then BitVec.ofNat 32 (s.spread (off / 4)) else 0
  | .event off => s.readEventWindow p off
  | .cursor off => s.readCursor p off
  | .token off => s.readToken p off
  | .buffer off => s.readBuffer p off
  | .staging off => if p = .mgmt ∨ p = .cc then mapGet (fun _ => 0) (s.path p).msWin (off / 4) else 0
  | .flash off => if p == .mgmt && s.authorised then mapGet (fun _ => 0) s.boot.win (off / 4) else 0
  | .rc off => s.readRc p off

/-- An aligned 32-bit read of the management space (R422 to R426). -/
def State.readAt (s : State) (p : Path) (off : Nat) : Word × State :=
  if s.seq.por then (0, s)
  else
    let t := s.reach p (usesFabric off) (usesVault off)
    if unassigned off then (0, t.countUnmapped false off)
    else if !t.answersAt off then (0, t)
    else match windowOf off with
      | some w => (t.readWindow p w, t)
      | none => if t.mayRead p off then t.readRow p (homeOff off) else (0, t)

/-! ### The region commit port (R16, R19) -/

/-- RC_CMD.READ. -/
def State.rcLoad (s : State) : State := { s with rgn.rc.staging := s.desc s.rgn.rc.region }

/-- Makes a commit visible, with what follows it in Orbit (R16, R302) and in the DC extents that it offers (R54); one that makes a Strict
region reached wakes DDR5 (R32). -/
def State.rcApply (s : State) (staged : BitVec 512) : State :=
  let r := s.rgn.rc.region
  (((s.commitNow r staged).commitMig r (s.desc r)).keepDdr).offerNew s

/-- The commit of `staged` releases logical tiles (R234). -/
def State.rcReleases (s : State) (staged : BitVec 512) : Bool :=
  let old := s.desc s.rgn.rc.region
  !(releasedTiles old (commitDesc old staged)).isEmpty

/-- RC_CMD.COMMIT with KEY: the checks of R48; an accepted commit is made, but one that releases tiles waits for its
record (R16, R19, R234). -/
def State.rcBegin (s : State) : State :=
  let c := s.rgn.rc
  let old := s.desc c.region
  let code := s.commitStatus c.region old (commitDesc old c.staging)
  let t : State := { s with
    rgn.rc.busy := true
    rgn.rc.keyErr := false
    rgn.rc.run := some (c.staging, code) }
  if code = 0 ∧ s.rcReleases c.staging = false then t.rcApply c.staging else t

/-- The commit ends: COMMIT_STATUS is shown, and written to dword 15 of the staging copy (R19). -/
def State.rcDone (s : State) : State :=
  match s.rgn.rc.run with
  | none => s
  | some (staged, code) =>
    let t := if code = 0 ∧ s.rcReleases staged = true then s.rcApply staged else s
    { t with
      rgn.rc.busy := false
      rgn.rc.run := none
      rgn.rc.status := code
      rgn.rc.staging := setDw t.rgn.rc.staging 15 (BitVec.ofNat 32 code) }

/-- A write of RC_CMD (R19). -/
def State.writeRcCmd (s : State) (v : Word) : State :=
  let read := v.getLsbD 0
  let commit := v.getLsbD 1
  if s.rgn.rc.busy || (read && commit) then s
  else if read then s.rcLoad
  else if commit then
    (if fieldGet v 16 16 = 0x5243 then s.rcBegin else { s with rgn.rc.keyErr := true })
  else s

/-- The bits of a staging dword that are not reserved (R8, R47, R101, R296). -/
def stagingUsed (i : Nat) : Word :=
  if i = 0 ∨ i = 9 then 0xFFFFFFFF#32
  else if i = 7 then 0x3FFFFFFF#32
  else if i = 8 then 0x001FFFFF#32
  else if i = 10 then 0x1F#32
  else if i = 15 then 0xF#32
  else descUsed i

/-- A write in the region commit port by the control cores; reserved bits stay 0. -/
def State.writeRc (s : State) (p : Path) (off : Nat) (v : Word) : State :=
  if p != .cc then s
  else if off = 0 then (if s.rgn.rc.busy then s else { s with rgn.rc.region := fieldGet v 0 18 })
  else if off = 4 then s.writeRcCmd v
  else if 0x40 ≤ off then
    { s with rgn.rc.staging := setDw s.rgn.rc.staging ((off - 0x40) / 4) (v &&& stagingUsed ((off - 0x40) / 4)) }
  else s

/-! ### Writes -/

def State.writeHp (s : State) (p : Path) (n off : Nat) (v : Word) : State :=
  if off = R.HP_CTRL n then s.writeHpCtrl p n v
  else match indexOf (R.HP_DEC_EXT n) 16 off with
    | some k => s.writeDecExt p n k v
    | none => match indexOf (R.HP_DC_CFG n) 8 off with
      | some j => s.writeDcCfg p n j v
      | none => match indexOf (R.HP_DC_LEN n) 8 off with
        | some j => s.writeDcLen p n j v
        | none => s.plainWrite p off v

/-- TRMk_BOUND is written while the engine does not run (R104). -/
def State.writeBound (s : State) (p : Path) (k off : Nat) (v : Word) : State :=
  if s.get (F.TRM_STAT_STATE k) = 2 then s else s.plainWrite p off v

/-- A blob that stands at KEY_LOAD_ADDR when the write does not say: a free value. -/
def State.freeBlob (s : State) : BitVec 1024 × State :=
  let (a, t) := s.fresh
  let (b, u) := t.fresh
  (a ++ b, u)

def State.writeKey (s : State) (p : Path) (off : Nat) (v : Word) : State :=
  if off = R.KEY_KEK_CTL then s.writeKekCtl p v
  else if (indexOf R.KEY_KEK_DATA 8 off).isSome then (if s.mayWrite p off then s.wr off v else s)
  else if off = R.KEY_CTT_CFG then (s.plainWrite p off v).showDmr
  else if off = R.KEY_LOAD_CTL then
    (let (b, t) := s.freeBlob
     t.writeLoadCtl p v b)
  else match indexOf R.TRM_CTL 4 off with
    | some k => s.writeTrmCtl p k v
    | none => match (List.range 4).find? (fun k => R.TRM_BOUND_LO k == off || R.TRM_BOUND_HI k == off) with
      | some k => s.writeBound p k off v
      | none => s.plainWrite p off v

def State.writeQos (s : State) (p : Path) (off : Nat) (v : Word) : State :=
  if off = R.PMC_EVT then s.writePmcEvt p v
  else if [R.PMC_FILT, R.PMC_ADDR_BASE_LO, R.PMC_ADDR_BASE_HI, R.PMC_ADDR_LIM_LO, R.PMC_ADDR_LIM_HI].contains off then
    s.writePmcFilt p off v
  else if off = R.PMC_CTL then s.writePmcCtl p v
  else match indexOf R.QOS_C_RATE 8 off with
    | some c => s.writeRate p c v
    | none => match indexOf R.QOS_C_MRATE 8 off with
      | some c => s.writeMrate p c v
      | none => s.plainWrite p off v

/-- A write of 1 to ENGe_FAULT_ADDR_HI.VALID clears the record (R239). -/
def State.clearFaultAddr (s : State) (p : Path) (e : Nat) (v : Word) : State :=
  if s.mayWrite p (R.ENGE_FAULT_ADDR_HI e) && (F.ENGE_FAULT_ADDR_HI_VALID e).on v then
    (s.wr (R.ENGE_FAULT_ADDR_LO e) 0).wr (R.ENGE_FAULT_ADDR_HI e) 0
  else s

def State.writeEngRow (s : State) (p : Path) (e off : Nat) (v : Word) : State :=
  if off = R.ENGE_CTX e then s.writeEngCtx p e v
  else if [R.ENGE_DEV e, R.ENGE_QBASE e, R.ENGE_QCFG e].contains off then s.writeEngBound p e off v
  else if off = R.ENGE_FAULT_ADDR_HI e then s.clearFaultAddr p e v
  else s.plainWrite p off v

def State.writeEng (s : State) (p : Path) (off : Nat) (v : Word) : State :=
  if off < R.ENGE_CTX 32 then s.writeEngRow p ((off - R.ENGE_CTX 0) / 0x20) off v
  else if off = R.ENG_CFG then s.writeEngCfg p v
  else if off = R.ENG_LOAD_CTL then s.writeEngLoad p v
  else if off = R.ENG_CC_MAINT_CTL then s.writeMaint p v
  else match indexOf R.ENG_CL_CTL 4 off with
    | some k => s.writeClCtl p k v
    | none => match indexOf R.ENG_CC_LOCK 4 off with
      | some k => s.writeCcLock p k v
      | none => match indexOf R.ENG_CC_CFG 4 off with
        | some k => s.writeCcCfg p k v
        | none => s.plainWrite p off v

def State.writeStq (s : State) (p : Path) (off : Nat) (v : Word) : State :=
  if [R.STQ_Q_CFG, R.STQ_Q_BIND, R.STQ_Q_DEST, R.STQ_Q_BASE].contains off then s.writeStqQ p off v
  else if off = R.STQ_Q_CMD then s.writeStqCmd p v
  else if off = R.STQ_SEL ∨ off = R.STQ_WINBASE then s.writeStqSel p off v
  else if off = R.STQ_CTL then s.writeStqCtl p v
  else s.plainWrite p off v

def State.writeOrb (s : State) (p : Path) (off : Nat) (v : Word) : State :=
  if off = R.ORB_PEER_SEL ∨ off = R.ORB_UNIT_SEL then s.writeOrbSel p off v
  else if off = R.ORB_PEER_CFG ∨ off = R.ORB_PEER_CRED then s.writeOrbPeer p off v
  else if off = R.ORB_CTL then s.writeOrbCtl p v
  else if off = R.ORB_UNIT_CMD then s.writeUnitCmd p v
  else match indexOf R.ORB_MIG_CTL 2 off with
    | some m => s.writeMigCtl p m v
    | none => s.plainWrite p off v

/-- BOOT_MS_LEN is the requester's own, of the two that issue MODE_STORE (R419). -/
def State.writeMsLen (s : State) (p : Path) (v : Word) : State :=
  if s.mayWrite p R.BOOT_MS_LEN && (p == .mgmt || p == .cc) then
    s.setPath p { s.path p with msLen := F.BOOT_MS_LEN_entries.of v }
  else s

def State.writeBoot (s : State) (p : Path) (off : Nat) (v : Word) : State :=
  if off = R.BOOT_CTL then s.writeBootCtl p v
  else if off = R.BOOT_SEAL then s.writeBootSeal p v
  else if off = R.BOOT_FL_CMD then s.writeFlCmd p v
  else if off = R.BOOT_MS_CTL then s.writeMsCtl p v
  else if off = R.BOOT_MS_LEN then s.writeMsLen p v
  else if (indexOf R.BOOT_FWINFO 4 off).isSome && p != .cc then s
  else s.plainWrite p off v

/-- A write of HALO_CFG: a new THROTTLE level starts or ends the throttle (R140). -/
def State.writeMap (s : State) (p : Path) (off : Nat) (v : Word) : State :=
  if off = R.MAP_FMT_CTL then s.writeFmtCtl p v
  else if off = R.HALO_CFG then (s.plainWrite p off v).showHalo
  else s.plainWrite p off v

/-- A write of a register, by its block (R9, R422). -/
def State.writeRow (s : State) (p : Path) (off : Nat) (v : Word) : State :=
  match blockOf off with
  | some (.hp n) => s.writeHp p n off v
  | some .key => s.writeKey p off v
  | some .qos => s.writeQos p off v
  | some .map => s.writeMap p off v
  | some (.med c) => if off = R.MED_CTL c then s.writeMedCtl p c v else s.plainWrite p off v
  | some .eng => s.writeEng p off v
  | some .stq => s.writeStq p off v
  | some .orb => s.writeOrb p off v
  | some .seq => if off = R.SEQ_CTL then s.writeSeqCtl p v else s.plainWrite p off v
  | some .nvs => if off = R.NVS_CNT_INC then s.nvsCntInc p v else s.plainWrite p off v
  | some .evr => if off = R.EVR_CLEAR then s.evrClear p v else s.plainWrite p off v
  | some .kvc =>
    if off = R.KVC_LOCK then s.kvcLockWrite false p v
    else if off = R.KVC_CTL then s.writeKvcCtl p v else s.plainWrite p off v
  | some .mode => if off = R.MODE_CTL then s.writeModeCtl p v else s.plainWrite p off v
  | some .boot => s.writeBoot p off v
  | some .id => if off = R.ID_ACC_ERR then s.writeAccErr p v else s
  | _ => s.plainWrite p off v

/-- A write in a window that answers (R423). -/
def State.writeWindow (s : State) (p : Path) (v : Word) : Window → State
  | .cursor off => s.writeCursor p off v
  | .token off => s.writeToken p off v
  | .buffer off => s.writeBuffer p off v
  | .staging off =>
    if p = .mgmt ∨ p = .cc then s.setPath p { s.path p with msWin := mapSet (fun _ => 0) (s.path p).msWin (off / 4) v }
    else s
  | .flash off =>
    if p == .mgmt && s.authorised then { s with boot.win := mapSet (fun _ => 0) s.boot.win (off / 4) v } else s
  | .rc off => s.writeRc p off v
  | _ => s

/-- An aligned 32-bit write of the management space (R422 to R426). -/
def State.writeAt (s : State) (p : Path) (off : Nat) (v : Word) : State :=
  if s.seq.por then s
  else
    let t := s.reach p (usesFabric off) (usesVault off)
    if unassigned off then t.countUnmapped true off
    else if !t.answersAt off then t
    else match windowOf off with
      | some w => t.writeWindow p v w
      | none => t.writeRow p (homeOff off) v

/-! ### The management port's messages (R430) -/

/-- A request's COUNT and OFFSET lie in their limits (R430). -/
def mgmtFits (count off : Nat) : Bool :=
  decide (1 ≤ count) && decide (count ≤ 64) && off % 4 == 0 && decide (off + 4 * count ≤ 0x4000000)

/-- Code 0x00 or 0x04 of a request performed: whether every block it met answered. -/
def State.mgmtCode (s : State) (count off : Nat) : Byte :=
  if (List.range count).all (fun i => s.answersAt (off + 4 * i)) then 0 else 4

/-- Reads in ascending order, with nothing between them. -/
def State.readMany (s : State) (off : Nat) : Nat → List Word × State
  | 0 => ([], s)
  | n + 1 =>
    let (w, t) := s.readAt .mgmt off
    let (ws, u) := t.readMany (off + 4) n
    (w :: ws, u)

def State.mgmtRead (s : State) (count off extra : Nat) : State :=
  if s.seq.por then s
  else if !mgmtFits count off then s.say (.mgmt 2 [])
  else if extra ≠ 0 then s.say (.mgmt 3 [])
  else
    let (ws, t) := s.readMany off count
    t.say (.mgmt (s.mgmtCode count off) ws)

def State.writeMany (s : State) (off : Nat) : List Word → State
  | [] => s
  | w :: ws => (s.writeAt .mgmt off w).writeMany (off + 4) ws

def State.mgmtWrite (s : State) (count off : Nat) (data : List Word) : State :=
  if s.seq.por then s
  else if !mgmtFits count off then s.say (.mgmt 2 [])
  else if data.length ≠ count then s.say (.mgmt 3 [])
  else (s.writeMany off data).say (.mgmt (s.mgmtCode count off) [])

/-- An access that is not an aligned 32-bit one: a read returns 0 (R6). -/
def State.misaligned (s : State) (p : Path) (write : Bool) (off size : Nat) : State :=
  let dead := match p with
    | .host n => s.oddMerged n
    | _ => false
  if s.seq.por || (off % 4 == 0 && size == 4) || dead then s
  else
    let t := s.accessError p
    if write then t else t.say (.regData p 0)

/-- A read on a path, answered. -/
def State.readSay (s : State) (p : Path) (off : Nat) : State :=
  if off % 4 ≠ 0 then s.misaligned p false off 4
  else
    let (w, t) := s.readAt p off
    t.say (.regData p w)

/-- An access to an unassigned address (R425). -/
def State.unmappedAccess (s : State) (p : Path) (write : Bool) (off : Nat) : State :=
  if off % 4 ≠ 0 then s.misaligned p write off 4
  else if !unassigned off then s
  else if write then s.writeAt p off 0 else s.readSay p off

/-! ### The commands -/

def execMisalignedAccess (p : Path) (write : Bool) (off : BitVec 26) (size : Nat) (s : State) :
    Host.Outcome State Fault Refusal := .next (s.misaligned p write off.toNat size)

def execCounterLoRead (p : Path) (off : BitVec 26) (s : State) : Host.Outcome State Fault Refusal :=
  .next (s.readSay p off.toNat)

def execCounterHiRead (p : Path) (off : BitVec 26) (s : State) : Host.Outcome State Fault Refusal :=
  .next (s.readSay p off.toNat)

def execRegisterWrite (p : Path) (off : BitVec 26) (v : Word) (s : State) : Host.Outcome State Fault Refusal :=
  .next (if off.toNat % 4 = 0 then s.writeAt p off.toNat v else s.misaligned p true off.toNat 4)

def execUnmappedAccess (p : Path) (write : Bool) (off : BitVec 26) (s : State) : Host.Outcome State Fault Refusal :=
  .next (s.unmappedAccess p write off.toNat)

def execMgmtRead (count : Byte) (off : Word) (extra : Nat) (s : State) : Host.Outcome State Fault Refusal :=
  .next (s.mgmtRead count.toNat off.toNat extra)

def execMgmtWrite (count : Byte) (off : Word) (data : List Word) (s : State) : Host.Outcome State Fault Refusal :=
  .next (s.mgmtWrite count.toNat off.toNat data)

def execRcRead (p : Path) (v : Word) (s : State) : Host.Outcome State Fault Refusal := .next (s.writeAt p (rcBase + 4) v)
def execRcCommit (p : Path) (v : Word) (s : State) : Host.Outcome State Fault Refusal := .next (s.writeAt p (rcBase + 4) v)
def execCommitDone (s : State) : Host.Outcome State Fault Refusal := .next s.rcDone

end Sys2Proof.Machine
end

