-- ==== Sys2Proof/Machine/Debug.lean ====
section
/-! DEFINITION. The debug access path and boundary scan (R236, R253, R393), and the attestation of R42 and R233. -/

namespace Sys2Proof.Machine

/-- A debugger attaches in Owner-debug or Vendor-debug, or leaves (R236, R393). -/
def State.attach (s : State) (on : Bool) : State :=
  if !on then s.letGo
  else if s.trust = trSealed ∨ s.seq.por = true then s else s.put F.MODE_DEBUG_ATTACHED 1

/-- A control core is halted by the debugger. -/
def State.coreHalted (s : State) (n : Nat) : Bool := (s.get F.MODE_DEBUG_CORES).testBit n

def State.coreHalt (s : State) (n : Nat) (on : Bool) : State :=
  if !s.debugOk || s.coreHalted n == on then s
  else s.put F.MODE_DEBUG_CORES (if on then s.get F.MODE_DEBUG_CORES + 2 ^ n else s.get F.MODE_DEBUG_CORES - 2 ^ n)

def State.dbgHalt (s : State) : DebugTarget → State
  | .engine e => s.engHaltDbg e
  | .core n => s.coreHalt n true

/-- A control core's step changes nothing that the manual describes. -/
def State.dbgStep (s : State) : DebugTarget → State
  | .engine e => s.engStep e
  | .core _ => s

def State.dbgResume (s : State) : DebugTarget → State
  | .engine e => s.engResume e
  | .core n => s.coreHalt n false

/-- A register of a halted engine, or of a halted control core, whose registers the manual does not describe: what such a one reads
is a free value. -/
def State.dbgRegister (s : State) (reg : Nat) (write : Bool) (v : Xlen) : DebugTarget → State
  | .engine e =>
    if !s.dbgEngine e then s
    else if write then s.setEng e ((s.eng e).set reg v)
    else s.say (.debug ((s.eng e).get reg) false)
  | .core n =>
    if !(s.debugOk && s.coreHalted n) || write then s
    else
      let (f, t) := s.fresh
      t.say (.debug (f.extractLsb' 0 64) false)

/-- The memory operation of a debugger's read or write of 8 bytes (R393). -/
def State.dbgOp (s : State) (e ea : Nat) (write dev : Bool) (v : Xlen) (hl : Nat) : MemOp :=
  let sh := ea % 64
  { tag := (s.eng e).nextTag, ea := ea, kind := if write then .store else .debug, dev := dev,
    data := if write then BitVec.ofNat 512 (v.toNat * 2 ^ (8 * sh)) else 0,
    be := enables ea 8,
    gate := gate0, stage := .held, old := 0, hl := hl, key := if dev then 0 else s.engKey e, drop := false,
    region := (s.decodes e dev).1, desc := (s.decodes e dev).2 }

/-- Sends it as an engine access (R217), outside the program's order. -/
def State.dbgPush (s : State) (e : Nat) (o : MemOp) : State :=
  let g := s.eng e
  (s.setEng e { g with
    ops := g.ops ++ [o]
    nextTag := g.nextTag + 1 }).settle e

/-- A memory access through a halted engine's context; an address that the engine could not reach reads nothing. -/
def State.dbgMemory (s : State) (e ea : Nat) (write : Bool) (v : Xlen) : State :=
  if !s.dbgEngine e then s
  else if s.withdrawn e ea then (if write then s.engWithdraw e else (s.engWithdraw e).say (.debug 0 true))
  else match s.eaOf e ea 8 false with
    | .bad _ => if write then s else s.say (.debug 0 true)
    | .pad off =>
      if write then s.padWrite e off 8 (BitVec.ofNat 512 (v.toNat * 2 ^ (8 * (ea % 64))))
      else s.say (.debug (loadValue (s.padLine e off) (off % 64) 8 false) false)
    | .dev off => s.dbgPush e (s.dbgOp e ea write true v (off / 64))
    | .home off => s.dbgPush e (s.dbgOp e ea write false v (s.homeHl e off))

/-- A JTAG instruction is loaded: one that drives balls is taken only in Hold (R393). -/
def State.scan (s : State) (drives : Bool) : State :=
  if s.seq.por then s else s.put F.MODE_DEBUG_BSCAN (if drives && s.service == svHold then 1 else 0)

/-- The digest of each loaded program, by cluster × 64 + first slot (R231, R233). -/
def State.programDigests (s : State) : List (Nat × List Byte) :=
  s.clu.progs.map (fun q =>
    (q.1, sha384 ((List.range q.2).flatMap (fun i => ((mapGet? s.clu.prog (q.1 + i)).getD []).flatMap (toBytes 4)))))

/-- An SPDM request is answered by the firmware; the signature, and the answer to any request but measurements, are free;
it raises the vector of the DOE (R43). -/
def State.spdm (s : State) (n : Fin 8) (req : SpdmReq) : State :=
  if !(s.port n).linkUp || s.oddMerged n || !s.boot.cores then s
  else
    let (a, t) := s.wakeCores.fresh
    let (b, t) := t.fresh
    let f : BitVec 768 := a ++ b.extractLsb' 0 256
    match req with
    | .measurements => (t.say (.spdm n t.programDigests f)).msix n 2
    | .other _ => (t.say (.spdm n [] f)).msix n 2

/-! ### The commands -/

def execSpdmRequest (n : Fin 8) (req : SpdmReq) (s : State) : Host.Outcome State Fault Refusal := .next (s.spdm n req)
def execDebuggerAttach (attach : Bool) (s : State) : Host.Outcome State Fault Refusal := .next (s.attach attach)
def execDebugHalt (t : DebugTarget) (s : State) : Host.Outcome State Fault Refusal := .next (s.dbgHalt t)
def execDebugStep (t : DebugTarget) (s : State) : Host.Outcome State Fault Refusal := .next (s.dbgStep t)
def execDebugResume (t : DebugTarget) (s : State) : Host.Outcome State Fault Refusal := .next (s.dbgResume t)

def execDebugRegisterAccess (t : DebugTarget) (reg : Fin 32) (write : Bool) (v : Xlen) (s : State) :
    Host.Outcome State Fault Refusal := .next (s.dbgRegister reg write v t)

def execDebugMemoryAccess (e : Fin 32) (ea : EngAddr) (write : Bool) (v : Xlen) (s : State) :
    Host.Outcome State Fault Refusal := .next (s.dbgMemory e ea.toNat write v)

def execBoundaryScanInstruction (drives : Bool) (s : State) : Host.Outcome State Fault Refusal := .next (s.scan drives)

end Sys2Proof.Machine
end

