-- ==== Sys2Proof/Machine/Tick.lean ====
section
/-! DEFINITION. What one cycle of the 5 ns safety-core clock does on its own, with no command waiting: the buckets refill (R112,
R140, R115), counters of time advance, the always-on tick advances (R30), the band last used is reset (R158), and an orderly shutdown goes on once what it waits for has ended (R373). -/

namespace Sys2Proof.Machine

/-- Periods of 32.768 kHz in 5 ns, as a fraction: 512 of 3,125,000. -/
def aonStep : Nat := 512
def aonSpan : Nat := 3125000

/-- One more AON tick counted under a number. -/
def State.countTick (s : State) (k : Nat) : State :=
  { s with modeTicks := mapSet (fun _ => 0) s.modeTicks k (s.ticksOf k + 1) }

/-- An AON tick: the counter advances, with the times in each mode and at each dimming step (R119, R323, R402). -/
def State.onAonTick (s : State) : State :=
  let t := State.pmc { s with aonTick := s.aonTick + 1 } 0x02 .maint none none 1
  let t := (((t.countTick t.power).countTick (4 + t.service)).countTick (9 + t.trust)).countTick (16 + t.get F.THM_STAT_STEP)
  if t.service = svHold then t.countTick 40 else t

/-! ### What is counted while accesses are held (R68, R105, R119, R126, R161) -/

/-- Cycles of the data-plane fabric, and of an engine, in one cycle of 5 ns. -/
def fabCycles : Nat := 8
def engCycles : Nat := 10

/-- The accesses that admission holds. -/
def State.heldNow (s : State) : List Access := s.accesses.filter s.isHeld

/-- The accesses held in this cycle: their holds have begun, and the trigger of each, which the hold's end is, has not come yet (R105). -/
def State.markHeld (s : State) (held : List Access) : State :=
  { s with
    accesses := s.accesses.map (fun a => if held.any (fun b => b.id == a.id) then { a with born := s.now + 1 } else a)
    adm.heldSince := held.foldl (fun m a => if (mapGet? m a.id).isSome then m else mapPut m a.id s.now) s.adm.heldSince }

/-- A class has an access held for one more cycle of 5 ns; QOS_Cc_HELD counts whole microseconds (R105, R126). -/
def State.heldTick (s : State) (c : Nat) : State :=
  let n := (mapGet? s.adm.heldAcc c).getD 0 + 1
  if n < 200 then { s with adm.heldAcc := mapPut s.adm.heldAcc c n }
  else State.satReg { s with adm.heldAcc := mapDel s.adm.heldAcc c } (R.QOS_C_HELD c) 1

/-- What the accesses held now add to the counters of ports, classes and events. -/
def State.countHeld (s : State) : State :=
  let held := s.heldNow
  if held.isEmpty then s
  else
    let s := s.markHeld held
    let who := fun (l : List Access) => l.map (fun a => (a.orig, some a.cls, none))
    let t := ((List.range 8).filter (fun n => held.any (fun a => a.own == .host && a.port.val == n))).foldl
      (fun s n => s.hpCount n 10 fabCycles) s
    let t := ((List.range 8).filter (fun c => held.any (fun a => a.cls == c))).foldl (fun s c => s.heldTick c) t
    let t := t.pmcAny 0x30 (who (held.filter (fun a => !s.classAllows a))) fabCycles
    let t := if s.adm.power ≤ 0 then t.pmcAny 0x31 (who held) fabCycles else t
    if s.writeWaits then t.add64 R.MAP_VAULT_WAIT_LO fabCycles else t

/-- An engine with a descriptor in hand that no debugger holds has spent its cycles, stalled ones included (R235). -/
def EngSt.spend (g : EngSt) : EngSt :=
  if [EngPhase.running, .ended, .completing].contains g.phase && !g.dbg then { g with cycles := g.cycles + engCycles } else g

/-- Engines that stall on a full store buffer (R242). -/
def State.stalled (s : State) : Nat := s.clu.engs.countP (fun q => q.2.stall && q.2.phase == .running && !q.2.dbg)

def State.countCycles (s : State) : State :=
  let t := if s.isAwake 0 then s.pmc 0x01 .maint none none fabCycles else s
  let t := if t.stalled = 0 then t else t.satReg R.ENG_SB_FULL_CYC (t.stalled * engCycles)
  State.chargeAll { t with clu.engs := t.clu.engs.map (fun q => (q.1, q.2.spend)) }

/-- A domain by its number (`domNum`). -/
def domOf (n : Nat) : Domain :=
  if n = 0 then .fabric
  else if n < 8 then .cluster (Fin.ofNat 4 (n - 1))
  else if n < 40 then .media (Fin.ofNat 32 (n - 8))
  else if n < 48 then .ddr (Fin.ofNat 8 (n - 40))
  else if n < 52 then .core (Fin.ofNat 4 (n - 48))
  else .stream

/-- The idle times of the domains that have work in this cycle start again (R30). -/
def State.useBusy (s : State) : State := s.use (s.dom.awake.filter (fun n => s.domBusy (domOf n)))

/-- One 5 ns cycle; nothing runs while POR is held. -/
def State.idle (s : State) : State :=
  if s.seq.por then s
  else
    let t := s.countHeld.countCycles.refill.resetUsedBand.offContinue.retrainPending
    let t : State := State.noteMajority (State.useBusy { t with now := t.now + 1 })
    if aonSpan ≤ t.aonPhase + aonStep then
      State.onAonTick { t with aonPhase := t.aonPhase + aonStep - aonSpan }
    else { t with aonPhase := t.aonPhase + aonStep }

end Sys2Proof.Machine
end

