-- ==== Sys2Proof/Machine/Dispatch.lean ====
section
/-! DEFINITION. One arm for each command of the table: a direct call of its meaning. -/

namespace Sys2Proof.Machine

def exec (i : Instr) (s : State) : Host.Outcome State Fault Refusal :=
  match i with
  | .misalignedAccess p write off size => Sys2Proof.Machine.execMisalignedAccess p write off size s
  | .counterLoRead p off => Sys2Proof.Machine.execCounterLoRead p off s
  | .counterHiRead p off => Sys2Proof.Machine.execCounterHiRead p off s
  | .registerWrite p off v => Sys2Proof.Machine.execRegisterWrite p off v s
  | .unmappedAccess p write off => Sys2Proof.Machine.execUnmappedAccess p write off s
  | .mgmtRead count off extra => Sys2Proof.Machine.execMgmtRead count off extra s
  | .mgmtWrite count off data => Sys2Proof.Machine.execMgmtWrite count off data s
  | .rcRead p v => Sys2Proof.Machine.execRcRead p v s
  | .rcCommit p v => Sys2Proof.Machine.execRcCommit p v s
  | .commitDone => Sys2Proof.Machine.execCommitDone s
  | .cxlMemRead n hpa => Sys2Proof.Machine.execCxlMemRead n hpa s
  | .cxlMemWrite n hpa data be lane => Sys2Proof.Machine.execCxlMemWrite n hpa data be lane s
  | .accessAdmit step => Sys2Proof.Machine.execAccessAdmit step s
  | .lookupReturn id err egress => Sys2Proof.Machine.execLookupReturn id err egress s
  | .mediaLineReceived id r egress => Sys2Proof.Machine.execMediaLineReceived id r egress s
  | .reconstructionReady id r egress => Sys2Proof.Machine.execReconstructionReady id r egress s
  | .deepRecoveryDone line r => Sys2Proof.Machine.execDeepRecoveryDone line r s
  | .readBoundExpiry id => Sys2Proof.Machine.execReadBoundExpiry id s
  | .vaultWriteDone id => Sys2Proof.Machine.execVaultWriteDone id s
  | .dmrResolve r => Sys2Proof.Machine.execDmrResolve r s
  | .domainIdleGate d => Sys2Proof.Machine.execDomainIdleGate d s
  | .domainWakeDone d => Sys2Proof.Machine.execDomainWakeDone d s
  | .hostLinkUp n rate width loflit => Sys2Proof.Machine.execHostLinkUp n rate width loflit s
  | .conventionalReset n => Sys2Proof.Machine.execConventionalReset n s
  | .functionLevelReset n => Sys2Proof.Machine.execFunctionLevelReset n s
  | .portLeaveDetectQuiet n => Sys2Proof.Machine.execPortLeaveDetectQuiet n s
  | .hdmDecoderCommit n k base size ways gran dpaBase => Sys2Proof.Machine.execHdmDecoderCommit n k base size ways gran dpaBase s
  | .hdmDecoderUncommit n k => Sys2Proof.Machine.execHdmDecoderUncommit n k s
  | .viralReceived n => Sys2Proof.Machine.execViralReceived n s
  | .ideIntegrityFailure n => Sys2Proof.Machine.execIdeIntegrityFailure n s
  | .ideKm n keySet => Sys2Proof.Machine.execIdeKm n keySet s
  | .spdmRequest n req => Sys2Proof.Machine.execSpdmRequest n req s
  | .cdatRead n => Sys2Proof.Machine.execCdatRead n s
  | .gpfPhase1 n => Sys2Proof.Machine.execGpfPhase1 n s
  | .gpfPhase2 n => Sys2Proof.Machine.execGpfPhase2 n s
  | .addDynamicCapacityResponse n exts => Sys2Proof.Machine.execAddDynamicCapacityResponse n exts s
  | .releaseDynamicCapacity n base len => Sys2Proof.Machine.execReleaseDynamicCapacity n base len s
  | .dcReleaseComplete n => Sys2Proof.Machine.execDcReleaseComplete n s
  | .getDcExtentList n => Sys2Proof.Machine.execGetDcExtentList n s
  | .setPartitionInfo n volatile => Sys2Proof.Machine.execSetPartitionInfo n volatile s
  | .setLsa n off data => Sys2Proof.Machine.execSetLsa n off data s
  | .getLsa n off len => Sys2Proof.Machine.execGetLsa n off len s
  | .getPoisonList n => Sys2Proof.Machine.execGetPoisonList n s
  | .injectPoison n dpa => Sys2Proof.Machine.execInjectPoison n dpa s
  | .clearPoison n dpa data => Sys2Proof.Machine.execClearPoison n dpa data s
  | .getHealthInfo n => Sys2Proof.Machine.execGetHealthInfo n s
  | .unsupportedMailboxCommand n opcode => Sys2Proof.Machine.execUnsupportedMailboxCommand n opcode s
  | .hpCntClr p n v => Sys2Proof.Machine.execHpCntClr p n v s
  | .portEnWrite p n v => Sys2Proof.Machine.execPortEnWrite p n v s
  | .rstStatRead p n => Sys2Proof.Machine.execRstStatRead p n s
  | .dcRegionEnable p n j v => Sys2Proof.Machine.execDcRegionEnable p n j v s
  | .kekLoad p v => Sys2Proof.Machine.execKekLoad p v s
  | .kekErase p v => Sys2Proof.Machine.execKekErase p v s
  | .keyImport p v blob => Sys2Proof.Machine.execKeyImport p v blob s
  | .keyImportDone readable => Sys2Proof.Machine.execKeyImportDone readable s
  | .keyUnload p v => Sys2Proof.Machine.execKeyUnload p v s
  | .haltedSequence => Sys2Proof.Machine.execHaltedSequence s
  | .trmArm p k v => Sys2Proof.Machine.execTrmArm p k v s
  | .trmStart p k v => Sys2Proof.Machine.execTrmStart p k v s
  | .trmPause p k v => Sys2Proof.Machine.execTrmPause p k v s
  | .trmLineRewrite k r => Sys2Proof.Machine.execTrmLineRewrite k r s
  | .trmStatusRead p => Sys2Proof.Machine.execTrmStatusRead p s
  | .pmcOverflow k => Sys2Proof.Machine.execPmcOverflow k s
  | .pmcEvtWrite p v => Sys2Proof.Machine.execPmcEvtWrite p v s
  | .pmcClear p v => Sys2Proof.Machine.execPmcClear p v s
  | .pmcLoRead p k => Sys2Proof.Machine.execPmcLoRead p k s
  | .qosRateWrite p c v => Sys2Proof.Machine.execQosRateWrite p c v s
  | .qosMrateWrite p c v => Sys2Proof.Machine.execQosMrateWrite p c v s
  | .qosWaitmaxRead p c => Sys2Proof.Machine.execQosWaitmaxRead p c s
  | .epochBoundary => Sys2Proof.Machine.execEpochBoundary s
  | .meteringSweepDone => Sys2Proof.Machine.execMeteringSweepDone s
  | .occupancyTick => Sys2Proof.Machine.execOccupancyTick s
  | .drainLine line err => Sys2Proof.Machine.execDrainLine line err s
  | .drainProgramDone slot ok => Sys2Proof.Machine.execDrainProgramDone slot ok s
  | .foldStart tile => Sys2Proof.Machine.execFoldStart tile s
  | .foldCommit tile ok src => Sys2Proof.Machine.execFoldCommit tile ok src s
  | .foldTimeout tile => Sys2Proof.Machine.execFoldTimeout tile s
  | .groupClose ch plane => Sys2Proof.Machine.execGroupClose ch plane s
  | .groupReset g => Sys2Proof.Machine.execGroupReset g s
  | .groupResetDone g failed => Sys2Proof.Machine.execGroupResetDone g failed s
  | .checkpointStart => Sys2Proof.Machine.execCheckpointStart s
  | .checkpointDone => Sys2Proof.Machine.execCheckpointDone s
  | .imageComplete trailerOk => Sys2Proof.Machine.execImageComplete trailerOk s
  | .bandArmed => Sys2Proof.Machine.execBandArmed s
  | .mediaFormat p v => Sys2Proof.Machine.execMediaFormat p v s
  | .mediaFormatDone => Sys2Proof.Machine.execMediaFormatDone s
  | .driftClockTick => Sys2Proof.Machine.execDriftClockTick s
  | .driftRecordStore => Sys2Proof.Machine.execDriftRecordStore s
  | .epochSweep => Sys2Proof.Machine.execEpochSweep s
  | .recalibration ch die samples samples1 => Sys2Proof.Machine.execRecalibration ch die samples samples1 s
  | .dieTempPoll ch die reading => Sys2Proof.Machine.execDieTempPoll ch die reading s
  | .scrubPassStart ch => Sys2Proof.Machine.execScrubPassStart ch s
  | .scrubDeadline ch => Sys2Proof.Machine.execScrubDeadline ch s
  | .refreshFold tile => Sys2Proof.Machine.execRefreshFold tile s
  | .evacuationDone u => Sys2Proof.Machine.execEvacuationDone u s
  | .read1 ch f => Sys2Proof.Machine.execRead1 ch f s
  | .read4 ch f thr => Sys2Proof.Machine.execRead4 ch f thr s
  | .softRead ch f => Sys2Proof.Machine.execSoftRead ch f s
  | .dataOut ch f => Sys2Proof.Machine.execDataOut ch f s
  | .dataIn ch f lines => Sys2Proof.Machine.execDataIn ch f lines s
  | .program1 ch f line => Sys2Proof.Machine.execProgram1 ch f line s
  | .program4 ch f => Sys2Proof.Machine.execProgram4 ch f s
  | .resetTile ch f => Sys2Proof.Machine.execResetTile ch f s
  | .suspend ch f => Sys2Proof.Machine.execSuspend ch f s
  | .resume ch f => Sys2Proof.Machine.execResume ch f s
  | .dieStatus ch f => Sys2Proof.Machine.execDieStatus ch f s
  | .temp ch f => Sys2Proof.Machine.execTemp ch f s
  | .readId ch f => Sys2Proof.Machine.execReadId ch f s
  | .calibrate ch f => Sys2Proof.Machine.execCalibrate ch f s
  | .train ch f data => Sys2Proof.Machine.execTrain ch f data s
  | .resetDie ch f => Sys2Proof.Machine.execResetDie ch f s
  | .mediaResetPin ch => Sys2Proof.Machine.execMediaResetPin ch s
  | .dieArrayDone ch die plane r => Sys2Proof.Machine.execDieArrayDone ch die plane r s
  | .dieTempConversion ch die t => Sys2Proof.Machine.execDieTempConversion ch die t s
  | .attention ch die => Sys2Proof.Machine.execAttention ch die s
  | .dieOverdue ch die resendOk restored => Sys2Proof.Machine.execDieOverdue ch die resendOk restored s
  | .periodicRetrain ch die eye sweepEye => Sys2Proof.Machine.execPeriodicRetrain ch die eye sweepEye s
  | .dieStandby ch die => Sys2Proof.Machine.execDieStandby ch die s
  | .medRetrain p ch v => Sys2Proof.Machine.execMedRetrain p ch v s
  | .medDieRst p ch v => Sys2Proof.Machine.execMedDieRst p ch v s
  | .medCntClr p ch v => Sys2Proof.Machine.execMedCntClr p ch v s
  | .engBind p e v => Sys2Proof.Machine.execEngBind p e v s
  | .engUnbind p e v => Sys2Proof.Machine.execEngUnbind p e v s
  | .engAbort p e v => Sys2Proof.Machine.execEngAbort p e v s
  | .descriptorTake e cp8 => Sys2Proof.Machine.execDescriptorTake e cp8 s
  | .descriptorComplete e => Sys2Proof.Machine.execDescriptorComplete e s
  | .engineKeyRecheck e => Sys2Proof.Machine.execEngineKeyRecheck e s
  | .cycleLimit e => Sys2Proof.Machine.execCycleLimit e s
  | .add e f => Sys2Proof.Machine.execAdd e f s
  | .sub e f => Sys2Proof.Machine.execSub e f s
  | .and e f => Sys2Proof.Machine.execAnd e f s
  | .or e f => Sys2Proof.Machine.execOr e f s
  | .xor e f => Sys2Proof.Machine.execXor e f s
  | .sll e f => Sys2Proof.Machine.execSll e f s
  | .srl e f => Sys2Proof.Machine.execSrl e f s
  | .sra e f => Sys2Proof.Machine.execSra e f s
  | .addi e f => Sys2Proof.Machine.execAddi e f s
  | .andi e f => Sys2Proof.Machine.execAndi e f s
  | .ori e f => Sys2Proof.Machine.execOri e f s
  | .xori e f => Sys2Proof.Machine.execXori e f s
  | .slli e f => Sys2Proof.Machine.execSlli e f s
  | .srli e f => Sys2Proof.Machine.execSrli e f s
  | .srai e f => Sys2Proof.Machine.execSrai e f s
  | .lui e f => Sys2Proof.Machine.execLui e f s
  | .mul e f => Sys2Proof.Machine.execMul e f s
  | .mulhu e f => Sys2Proof.Machine.execMulhu e f s
  | .divu e f => Sys2Proof.Machine.execDivu e f s
  | .remu e f => Sys2Proof.Machine.execRemu e f s
  | .slt e f => Sys2Proof.Machine.execSlt e f s
  | .sltu e f => Sys2Proof.Machine.execSltu e f s
  | .minu e f => Sys2Proof.Machine.execMinu e f s
  | .maxu e f => Sys2Proof.Machine.execMaxu e f s
  | .ld8 e f ecc => Sys2Proof.Machine.execLd8 e f ecc s
  | .ld16 e f ecc => Sys2Proof.Machine.execLd16 e f ecc s
  | .ld32 e f ecc => Sys2Proof.Machine.execLd32 e f ecc s
  | .ld64 e f ecc => Sys2Proof.Machine.execLd64 e f ecc s
  | .ldu8 e f ecc => Sys2Proof.Machine.execLdu8 e f ecc s
  | .ldu16 e f ecc => Sys2Proof.Machine.execLdu16 e f ecc s
  | .ldu32 e f ecc => Sys2Proof.Machine.execLdu32 e f ecc s
  | .ldAcq e f ecc => Sys2Proof.Machine.execLdAcq e f ecc s
  | .st8 e f => Sys2Proof.Machine.execSt8 e f s
  | .st16 e f => Sys2Proof.Machine.execSt16 e f s
  | .st32 e f => Sys2Proof.Machine.execSt32 e f s
  | .st64 e f => Sys2Proof.Machine.execSt64 e f s
  | .stRel e f => Sys2Proof.Machine.execStRel e f s
  | .ldv e f ecc => Sys2Proof.Machine.execLdv e f ecc s
  | .stv e f => Sys2Proof.Machine.execStv e f s
  | .zero e f => Sys2Proof.Machine.execZero e f s
  | .amoAdd e f => Sys2Proof.Machine.execAmoAdd e f s
  | .amoSwap e f => Sys2Proof.Machine.execAmoSwap e f s
  | .amoCas e f => Sys2Proof.Machine.execAmoCas e f s
  | .amoAnd e f => Sys2Proof.Machine.execAmoAnd e f s
  | .amoOr e f => Sys2Proof.Machine.execAmoOr e f s
  | .amoXor e f => Sys2Proof.Machine.execAmoXor e f s
  | .amoMinu e f => Sys2Proof.Machine.execAmoMinu e f s
  | .amoMaxu e f => Sys2Proof.Machine.execAmoMaxu e f s
  | .beq e f => Sys2Proof.Machine.execBeq e f s
  | .bne e f => Sys2Proof.Machine.execBne e f s
  | .blt e f => Sys2Proof.Machine.execBlt e f s
  | .bge e f => Sys2Proof.Machine.execBge e f s
  | .bltu e f => Sys2Proof.Machine.execBltu e f s
  | .bgeu e f => Sys2Proof.Machine.execBgeu e f s
  | .jal e f => Sys2Proof.Machine.execJal e f s
  | .jalr e f => Sys2Proof.Machine.execJalr e f s
  | .crc32c e f => Sys2Proof.Machine.execCrc32c e f s
  | .popc e f => Sys2Proof.Machine.execPopc e f s
  | .clz e f => Sys2Proof.Machine.execClz e f s
  | .csrr e f => Sys2Proof.Machine.execCsrr e f s
  | .fenceLoad e f => Sys2Proof.Machine.execFenceLoad e f s
  | .fenceStore e f => Sys2Proof.Machine.execFenceStore e f s
  | .fenceFull e f => Sys2Proof.Machine.execFenceFull e f s
  | .fenceDevice e f => Sys2Proof.Machine.execFenceDevice e f s
  | .fenceSc e f => Sys2Proof.Machine.execFenceSc e f s
  | .done e f => Sys2Proof.Machine.execDone e f s
  | .brk e f => Sys2Proof.Machine.execBrk e f s
  | .fillReturn e tag err => Sys2Proof.Machine.execFillReturn e tag err s
  | .storeComplete e tag => Sys2Proof.Machine.execStoreComplete e tag s
  | .deviceStoreTimeout e tag => Sys2Proof.Machine.execDeviceStoreTimeout e tag s
  | .deviceLoadTimeout e tag => Sys2Proof.Machine.execDeviceLoadTimeout e tag s
  | .engLoad p v => Sys2Proof.Machine.execEngLoad p v s
  | .engUnload p v => Sys2Proof.Machine.execEngUnload p v s
  | .engLoadDone image => Sys2Proof.Machine.execEngLoadDone image s
  | .clusterReset p k v => Sys2Proof.Machine.execClusterReset p k v s
  | .clusterStop p k v => Sys2Proof.Machine.execClusterStop p k v s
  | .clusterWake p k v => Sys2Proof.Machine.execClusterWake p k v s
  | .releaseWalk => Sys2Proof.Machine.execReleaseWalk s
  | .invAll p v => Sys2Proof.Machine.execInvAll p v s
  | .invRange p v => Sys2Proof.Machine.execInvRange p v s
  | .lockFill p v => Sys2Proof.Machine.execLockFill p v s
  | .maintDone lost => Sys2Proof.Machine.execMaintDone lost s
  | .ccLockWrite p k v => Sys2Proof.Machine.execCcLockWrite p k v s
  | .ccCfgWrite p k v => Sys2Proof.Machine.execCcCfgWrite p k v s
  | .stqEnable p => Sys2Proof.Machine.execStqEnable p s
  | .stqDisable p => Sys2Proof.Machine.execStqDisable p s
  | .flush via => Sys2Proof.Machine.execFlush via s
  | .dropRem via => Sys2Proof.Machine.execDropRem via s
  | .dropRemResume q => Sys2Proof.Machine.execDropRemResume q s
  | .stqEnqueue q e tag item => Sys2Proof.Machine.execStqEnqueue q e tag item s
  | .enqueueUnblock q => Sys2Proof.Machine.execEnqueueUnblock q s
  | .stqDequeue q e off width => Sys2Proof.Machine.execStqDequeue q e off width s
  | .itemSend q => Sys2Proof.Machine.execItemSend q s
  | .creditReturnSend q => Sys2Proof.Machine.execCreditReturnSend q s
  | .stqCntClr p v => Sys2Proof.Machine.execStqCntClr p v s
  | .streamLinkUp sp => Sys2Proof.Machine.execStreamLinkUp sp s
  | .streamLinkDown sp => Sys2Proof.Machine.execStreamLinkDown sp s
  | .foreignFrame sp => Sys2Proof.Machine.execForeignFrame sp s
  | .pfcFrame sp pause => Sys2Proof.Machine.execPfcFrame sp pause s
  | .hello h role planetEn planet dirgen => Sys2Proof.Machine.execHello h role planetEn planet dirgen s
  | .candidate h dirgen => Sys2Proof.Machine.execCandidate h dirgen s
  | .vote h term granted => Sys2Proof.Machine.execVote h term granted s
  | .planet h dirgen standby => Sys2Proof.Machine.execPlanet h dirgen standby s
  | .dirNote h dirgen grns => Sys2Proof.Machine.execDirNote h dirgen grns s
  | .dirQuery h grns => Sys2Proof.Machine.execDirQuery h grns s
  | .dirEntries h entries => Sys2Proof.Machine.execDirEntries h entries s
  | .dirChangeRequest h entries => Sys2Proof.Machine.execDirChangeRequest h entries s
  | .dirCopy h dirgen entries => Sys2Proof.Machine.execDirCopy h dirgen entries s
  | .dirAck h grns => Sys2Proof.Machine.execDirAck h grns s
  | .unitViews h items => Sys2Proof.Machine.execUnitViews h items s
  | .unitCommand h unit gen op => Sys2Proof.Machine.execUnitCommand h unit gen op s
  | .unitResult h unit code => Sys2Proof.Machine.execUnitResult h unit code s
  | .rwrite h rseq region off l => Sys2Proof.Machine.execRwrite h rseq region off l s
  | .rack h rseq region code ns => Sys2Proof.Machine.execRack h rseq region code ns s
  | .mdata h region tile unmapped first lines => Sys2Proof.Machine.execMdata h region tile unmapped first lines s
  | .mack h region tile code => Sys2Proof.Machine.execMack h region tile code s
  | .items h dstQ srcQ epoch items => Sys2Proof.Machine.execItems h dstQ srcQ epoch items s
  | .grant h txQ rxQ epoch value => Sys2Proof.Machine.execGrant h txQ rxQ epoch value s
  | .returnFrame h txQ rxQ epoch value => Sys2Proof.Machine.execReturnFrame h txQ rxQ epoch value s
  | .rread h tag region off be devRegion => Sys2Proof.Machine.execRread h tag region off be devRegion s
  | .rdata h tag code data => Sys2Proof.Machine.execRdata h tag code data s
  | .rstore h tag region off be data devRegion => Sys2Proof.Machine.execRstore h tag region off be data devRegion s
  | .rstack h tag code => Sys2Proof.Machine.execRstack h tag code s
  | .nak h chan expected => Sys2Proof.Machine.execNak h chan expected s
  | .ackOnly h chan => Sys2Proof.Machine.execAckOnly h chan s
  | .ackOnlyTimer peer chan => Sys2Proof.Machine.execAckOnlyTimer peer chan s
  | .retransmitTimeout peer chan => Sys2Proof.Machine.execRetransmitTimeout peer chan s
  | .helloPeriod => Sys2Proof.Machine.execHelloPeriod s
  | .peerUnreachable peer => Sys2Proof.Machine.execPeerUnreachable peer s
  | .planetSilence => Sys2Proof.Machine.execPlanetSilence s
  | .electionTimeout => Sys2Proof.Machine.execElectionTimeout s
  | .planetStepDown => Sys2Proof.Machine.execPlanetStepDown s
  | .reflectionTimeout region rseq => Sys2Proof.Machine.execReflectionTimeout region rseq s
  | .nctrWarn peer => Sys2Proof.Machine.execNctrWarn peer s
  | .migStart p m v => Sys2Proof.Machine.execMigStart p m v s
  | .migPause p m v => Sys2Proof.Machine.execMigPause p m v s
  | .migrationTile m lost => Sys2Proof.Machine.execMigrationTile m lost s
  | .orbCntClr p v => Sys2Proof.Machine.execOrbCntClr p v s
  | .rackNsMaxRead p => Sys2Proof.Machine.execRackNsMaxRead p s
  | .unitHold via unit gen => Sys2Proof.Machine.execUnitHold via unit gen s
  | .unitRelease via unit gen => Sys2Proof.Machine.execUnitRelease via unit gen s
  | .unitReset via unit gen => Sys2Proof.Machine.execUnitReset via unit gen s
  | .unitRetire via unit gen => Sys2Proof.Machine.execUnitRetire via unit gen s
  | .unitAudit => Sys2Proof.Machine.execUnitAudit s
  | .lockstepDisagree => Sys2Proof.Machine.execLockstepDisagree s
  | .thermalSample raw r => Sys2Proof.Machine.execThermalSample raw r s
  | .sensorStuck => Sys2Proof.Machine.execSensorStuck s
  | .dimStepFall => Sys2Proof.Machine.execDimStepFall s
  | .riseHoldEnd => Sys2Proof.Machine.execRiseHoldEnd s
  | .nvPageWrite bad => Sys2Proof.Machine.execNvPageWrite bad s
  | .nvStoreReady => Sys2Proof.Machine.execNvStoreReady s
  | .nvsCntInc p v => Sys2Proof.Machine.execNvsCntInc p v s
  | .tornReport => Sys2Proof.Machine.execTornReport s
  | .eventAppend => Sys2Proof.Machine.execEventAppend s
  | .curSeqWrite p v => Sys2Proof.Machine.execCurSeqWrite p v s
  | .curNext p => Sys2Proof.Machine.execCurNext p s
  | .curOldest p => Sys2Proof.Machine.execCurOldest p s
  | .curNewest p => Sys2Proof.Machine.execCurNewest p s
  | .cursorLoadDone p => Sys2Proof.Machine.execCursorLoadDone p s
  | .evrClear p v => Sys2Proof.Machine.execEvrClear p v s
  | .evrClearDone => Sys2Proof.Machine.execEvrClearDone s
  | .newChallenge p => Sys2Proof.Machine.execNewChallenge p s
  | .presentToken p purpose => Sys2Proof.Machine.execPresentToken p purpose s
  | .closeAuthorisation p => Sys2Proof.Machine.execCloseAuthorisation p s
  | .tokenCheckDone => Sys2Proof.Machine.execTokenCheckDone s
  | .challengeExpiry => Sys2Proof.Machine.execChallengeExpiry s
  | .authorisationExpiry => Sys2Proof.Machine.execAuthorisationExpiry s
  | .kvcLockWrite safety p v => Sys2Proof.Machine.execKvcLockWrite safety p v s
  | .kvcLockBreak => Sys2Proof.Machine.execKvcLockBreak s
  | .gcmSeal p v => Sys2Proof.Machine.execGcmSeal p v s
  | .gcmOpen p v => Sys2Proof.Machine.execGcmOpen p v s
  | .kwWrap p v => Sys2Proof.Machine.execKwWrap p v s
  | .kwUnwrap p v => Sys2Proof.Machine.execKwUnwrap p v s
  | .cmacGen p v => Sys2Proof.Machine.execCmacGen p v s
  | .cmacVerify p v => Sys2Proof.Machine.execCmacVerify p v s
  | .slotImport p v => Sys2Proof.Machine.execSlotImport p v s
  | .slotErase p v => Sys2Proof.Machine.execSlotErase p v s
  | .kvcOpDone sealing => Sys2Proof.Machine.execKvcOpDone sealing s
  | .supplyGlitch => Sys2Proof.Machine.execSupplyGlitch s
  | .clockMonitorAlarm => Sys2Proof.Machine.execClockMonitorAlarm s
  | .xtal32kFail => Sys2Proof.Machine.execXtal32kFail s
  | .porAssert => Sys2Proof.Machine.execPorAssert s
  | .porRelease fusesOk => Sys2Proof.Machine.execPorRelease fusesOk s
  | .seqEnable => Sys2Proof.Machine.execSeqEnable s
  | .seqDisable => Sys2Proof.Machine.execSeqDisable s
  | .seqWait => Sys2Proof.Machine.execSeqWait s
  | .seqCheck => Sys2Proof.Machine.execSeqCheck s
  | .seqJump => Sys2Proof.Machine.execSeqJump s
  | .seqSync => Sys2Proof.Machine.execSeqSync s
  | .seqMark => Sys2Proof.Machine.execSeqMark s
  | .seqEnd => Sys2Proof.Machine.execSeqEnd s
  | .seqWaitExpiry => Sys2Proof.Machine.execSeqWaitExpiry s
  | .seqCheckTimeout => Sys2Proof.Machine.execSeqCheckTimeout s
  | .seqDischargeTimeout => Sys2Proof.Machine.execSeqDischargeTimeout s
  | .seqSyncTimeout => Sys2Proof.Machine.execSeqSyncTimeout s
  | .runStepLimit => Sys2Proof.Machine.execRunStepLimit s
  | .pgoodChange rail level => Sys2Proof.Machine.execPgoodChange rail level s
  | .phaseFall => Sys2Proof.Machine.execPhaseFall s
  | .phaseBarrier => Sys2Proof.Machine.execPhaseBarrier s
  | .pwrbtnRelease ms => Sys2Proof.Machine.execPwrbtnRelease ms s
  | .pwrbtnHold8s => Sys2Proof.Machine.execPwrbtnHold8s s
  | .pwrbtnHold12s => Sys2Proof.Machine.execPwrbtnHold12s s
  | .mrstNAssert => Sys2Proof.Machine.execMrstNAssert s
  | .mrstNRelease => Sys2Proof.Machine.execMrstNRelease s
  | .reqOn p v => Sys2Proof.Machine.execReqOn p v s
  | .reqOff p v => Sys2Proof.Machine.execReqOff p v s
  | .faultClr p v => Sys2Proof.Machine.execFaultClr p v s
  | .holdoffEnd => Sys2Proof.Machine.execHoldoffEnd s
  | .hostWaitExpiry => Sys2Proof.Machine.execHostWaitExpiry s
  | .vinWarnCross mv => Sys2Proof.Machine.execVinWarnCross mv s
  | .vinResetCross mv => Sys2Proof.Machine.execVinResetCross mv s
  | .penumbraExit mv => Sys2Proof.Machine.execPenumbraExit mv s
  | .holdupOkChange level => Sys2Proof.Machine.execHoldupOkChange level s
  | .eclipseDeadline => Sys2Proof.Machine.execEclipseDeadline s
  | .modeCold p v => Sys2Proof.Machine.execModeCold p v s
  | .modeWarm p v => Sys2Proof.Machine.execModeWarm p v s
  | .modeDim p v => Sys2Proof.Machine.execModeDim p v s
  | .modeRelease p v => Sys2Proof.Machine.execModeRelease p v s
  | .modeSeal p v => Sys2Proof.Machine.execModeSeal p v s
  | .useB p v => Sys2Proof.Machine.execUseB p v s
  | .retry p v => Sys2Proof.Machine.execRetry p v s
  | .bootValidationDone readOk => Sys2Proof.Machine.execBootValidationDone readOk s
  | .bootLoadDone load => Sys2Proof.Machine.execBootLoadDone load s
  | .flashRead p v => Sys2Proof.Machine.execFlashRead p v s
  | .flashProgram p v => Sys2Proof.Machine.execFlashProgram p v s
  | .flashErase4k p v => Sys2Proof.Machine.execFlashErase4k p v s
  | .flashErase64k p v => Sys2Proof.Machine.execFlashErase64k p v s
  | .flashOpDone ok => Sys2Proof.Machine.execFlashOpDone ok s
  | .bootSeal p v => Sys2Proof.Machine.execBootSeal p v s
  | .modeStoreLoad p v => Sys2Proof.Machine.execModeStoreLoad p v s
  | .modeStore p v => Sys2Proof.Machine.execModeStore p v s
  | .modeStoreDone => Sys2Proof.Machine.execModeStoreDone s
  | .scrubRead ch pos r => Sys2Proof.Machine.execScrubRead ch pos r s
  | .debuggerAttach attach => Sys2Proof.Machine.execDebuggerAttach attach s
  | .debugHalt t => Sys2Proof.Machine.execDebugHalt t s
  | .debugStep t => Sys2Proof.Machine.execDebugStep t s
  | .debugResume t => Sys2Proof.Machine.execDebugResume t s
  | .debugRegisterAccess t reg write v => Sys2Proof.Machine.execDebugRegisterAccess t reg write v s
  | .debugMemoryAccess e ea write v => Sys2Proof.Machine.execDebugMemoryAccess e ea write v s
  | .boundaryScanInstruction drives => Sys2Proof.Machine.execBoundaryScanInstruction drives s
  | .clearEventRecords n log count => Sys2Proof.Machine.execClearEventRecords n log count s

end Sys2Proof.Machine
end

