-- ==== Sys2Proof/WellFormed.lean ====
section
/-! DEFINITION. Which commands can be formed at all: the limits on operands that their types do not already say. A command that
is not well-formed still has its meaning in exec; no sender produces it. -/

namespace Sys2Proof

/-- Widths of an engine load (R227). -/
def loadWidth (w : Nat) : Bool := [1, 2, 4, 8, 64].contains w

/-- The limits on operands, by the rule that gives each. -/
def Instr.wellFormed (i : Instr) : Bool :=
  match i with
  -- An access is misaligned when it is not an aligned 32-bit one (R6).
  | .misalignedAccess _ _ off size => !(off.toNat % 4 == 0 && size == 4)
  -- A counter is read by aligned 32-bit reads (R6, R7).
  | .counterLoRead _ off => off.toNat % 4 == 0
  | .counterHiRead _ off => off.toNat % 4 == 0
  | .registerWrite _ off _ => off.toNat % 4 == 0
  | .unmappedAccess _ _ off => off.toNat % 4 == 0
  -- A load lies within one host line and is aligned to its width (R216).
  | .stqDequeue _ _ off width => loadWidth width && off.val % width == 0 && decide (off.val + width ≤ 64)
  -- A program has at most 64 slots of 1,024 words (R231).
  | .engLoadDone image => decide (image.length ≤ 65536)
  -- A batch of lines of one tile begins at one of its 256 lines (R302).
  | .mdata _ _ _ unmapped first lines => if unmapped then lines.isEmpty else decide (first.toNat + lines.length ≤ 256)
  | _ => true

end Sys2Proof
end

