-- ==== Sys2Proof/Safety.lean ====
section
/-! DEFINITION. The terms in which claims speak of a run: what a command answers, what it may change, when an engine's
instruction executes, and the invariant that every step keeps. -/

namespace Sys2Proof.Machine

/-- The command answers a next state of which `p` holds. -/
def Runs (c : Instr) (s : State) (p : State → Prop) : Prop := ∃ t, exec c s = .next t ∧ p t

/-- A run is safe when no step of it stops: there is always a next state. -/
def Safe (s : State) : Prop := ∃ t, step s = .next t

/-! ### Frames -/

/-- Nothing but registers differs, and no register outside `offs` does. -/
def regsOnly (s t : State) (offs : List Nat) : Prop :=
  t = { s with regs := t.regs } ∧ ∀ off, off ∉ offs → t.rd off = s.rd off

/-- Nothing but the state of engine e differs. -/
def engOnly (s t : State) (e : Nat) : Prop :=
  t = { s with clu.engs := t.clu.engs } ∧ ∀ i, i ≠ e → t.eng i = s.eng i

/-- The media, its maps, the NV store, the key slots and the descriptors stay as they are. -/
def dataKept (s t : State) : Prop :=
  t.store = s.store ∧ t.nvs = s.nvs ∧ t.key = s.key ∧ t.rgn.descs = s.rgn.descs ∧ t.dies = s.dies

/-- What has left the block, but for the interrupts of performance counters that overflow (R117). -/
def State.sent (s : State) : List Response := s.out.filter (fun r => match r with | .pmcIrq _ => false | _ => true)

/-! ### Accesses and lines -/

/-- The host's read has left with this answer. -/
def State.readLeft (t : State) (a : Access) (data : HostLine) (poison : Bool) : Prop :=
  Response.readData a.port a.id data poison ∈ t.out ∧ t.access a.id = none

/-- The host's write has left, stored or not, and is answered unless it completed already. -/
def State.writeLeft (t : State) (a : Access) (stored : Bool) : Prop :=
  (a.silent = false → Response.writeDone a.port a.id stored ∈ t.out) ∧ t.access a.id = none

/-- The access is in flight at this stage. -/
def State.staged (t : State) (a : Access) (st : AccStage) : Prop := ∃ b, t.access a.id = some b ∧ b.stage = st

/-- The vault holds this line. -/
def State.inVault (t : State) (line : Nat) (img : LineImg) : Prop :=
  ∃ loc w, mapGet? t.store.vault loc = some w ∧ w.line = line ∧ w.img = img

/-! ### Engine instructions -/

/-- Engine e can issue the word `w` that its program has at the PC (R224, R236, R238). -/
def State.issues (s : State) (e : Nat) (w : Word) : Prop :=
  (s.eng e).phase = .running ∧ (s.eng e).dbg = false ∧ s.isAwake (1 + e / 8) = true ∧ s.halted = false ∧
  s.pcInside e = true ∧ s.fetchWord e = w

/-- None of the registers is still being loaded (R228). -/
def State.regsIdle (s : State) (e : Nat) (rs : List Nat) : Prop := ∀ r ∈ rs, (s.eng e).busy r = false

/-- The engine goes on to the next instruction after so many cycles (R224, R228). -/
def EngSt.next (g : EngSt) (cyc : Nat) : EngSt :=
  { g with
    pc := (g.pc + 4) % 2 ^ 18
    cycles := g.cycles + cyc }

/-- Command `c` of engine e, whose word has opcode `op` and fields f, executes: when the engine can issue it, the word is legal and
its registers are idle, it answers a next state in which only engine e differs, as `after` says. -/
def Executes (c : Instr) (op : Nat) (s : State) (e : Fin 32) (f : BitVec 26) (legal : Bool) (regs : List Nat)
    (after : EngSt → EngSt) : Prop :=
  s.issues e (BitVec.ofNat 6 op ++ f) → legal = true → s.regsIdle e regs →
  Runs c s (fun t => engOnly s t e ∧ t.eng e = after (s.eng e))

/-- A register operation of format R (R225): x[rd] becomes `fn` of x[rs1] and x[rs2], in `cyc` cycles of x[rs1]. -/
def RegisterOp (c : Fin 32 → BitVec 26 → Instr) (op : Nat) (cyc : Xlen → Nat) (fn : Xlen → Xlen → Xlen) : Prop :=
  ∀ s e f, Executes (c e f) op s e f (fLow f == 0) [fA f, fB f, fC f]
    (fun g => (g.set (fA f) (fn (g.get (fB f)) (g.get (fC f)))).next (cyc (g.get (fB f))))

/-- A register operation of one source: rs2 must be 0 too. -/
def OneSourceOp (c : Fin 32 → BitVec 26 → Instr) (op : Nat) (fn : Xlen → Xlen) : Prop :=
  ∀ s e f, Executes (c e f) op s e f (fLow f == 0 && fC f == 0) [fA f, fB f]
    (fun g => (g.set (fA f) (fn (g.get (fB f)))).next 1)

/-- An operation of format I: x[rd] becomes `fn` of x[rs1] and the 16 immediate bits. -/
def ImmediateOp (c : Fin 32 → BitVec 26 → Instr) (op : Nat) (legal : BitVec 26 → Bool) (fn : Xlen → BitVec 16 → Xlen) : Prop :=
  ∀ s e f, Executes (c e f) op s e f (legal f) [fA f, fB f]
    (fun g => (g.set (fA f) (fn (g.get (fB f)) (fImm f))).next 1)

/-- A branch of format B (R225, R227): the PC goes to PC + 4 + 4 × imm when taken, in 2 cycles, else to PC + 4 in 1. -/
def BranchOp (c : Fin 32 → BitVec 26 → Instr) (op : Nat) (taken : Xlen → Xlen → Bool) : Prop :=
  ∀ s e f, Executes (c e f) op s e f true [fA f, fB f] (fun g =>
    if taken (g.get (fA f)) (g.get (fB f)) then
      { g with
        pc := (BitVec.ofNat 64 (g.pc + 4) + 4 * (fImm f).signExtend 64).toNat % 2 ^ 18
        cycles := g.cycles + 2 }
    else g.next 1)

/-- An access of engine e to address `ea` (R220): when its binding no longer stands, an access to the home or the device window withdraws the
engine; else `p` holds. -/
def Standing (c : Instr) (s : State) (e ea : Nat) (p : Prop) : Prop :=
  (s.withdrawn e ea = true → exec c s = .next (s.engWithdraw e)) ∧ (s.withdrawn e ea = false → p)

/-- A load of `width` bytes (R216, R227): an address that cannot be reached raises its exception; a load from the scratchpad gives
x[rd] the bytes at its address, sign-extended or not; any other takes its place among the memory operations. -/
def LoadOp (c : Fin 32 → BitVec 26 → CellErr → Instr) (op width : Nat) (sgn acq : Bool) : Prop :=
  ∀ (s : State) (e : Fin 32) (f : BitVec 26) (ecc : CellErr),
    s.issues e (BitVec.ofNat 6 op ++ f) → (width = 64 → fA f % 8 = 0) →
    s.regsIdle e ([fB f] ++ (if width = 64 then (List.range 8).map (fA f + ·) else [fA f])) →
    let ea := engAddr ((s.eng e).get (fB f)) ((fImm f).signExtend 64)
    Standing (c e f ecc) s e ea <| match s.eaOf e ea width false with
    | .bad code => exec (c e f ecc) s = .next (s.engFault e code ea false)
    | .pad off =>
      if ecc = .uncorrectable then
        exec (c e f ecc) s = .next ((s.sat (F.ENG_CC_ERR_ECC_UNC (e / 8)) 1).engFault e 0x08 ea false)
      else Runs (c e f ecc) s (fun t =>
        engOnly (if ecc = .corrected then s.sat (F.ENG_CC_ERR_ECC_COR (e / 8)) 1 else s) t e ∧
        t.eng e = ((s.eng e).loaded width sgn (fA f) (ea % 64) (s.padLine e off)).next 1)
    | .dev off => exec (c e f ecc) s = .next (s.pushOp e (s.loadOf e ea width sgn acq (fA f) true (off / 64) ecc))
    | .home off => exec (c e f ecc) s = .next (s.pushOp e (s.loadOf e ea width sgn acq (fA f) false (s.homeHl e off) ecc))

/-- The store that an instruction makes (R216, R227): an address that cannot be reached raises its exception; a store to the
scratchpad changes exactly its bytes; any other waits while the store buffer is full, and else takes its place in it. -/
def Stores (c : Instr) (s : State) (e : Fin 32) (ea width v : Nat) (rel : Bool) : Prop :=
  Standing c s e ea <| match s.eaOf e ea width false with
  | .bad code => exec c s = .next (s.engFault e code ea false)
  | .pad off => Runs c s (fun t =>
      t = { s with
        clu.engs := t.clu.engs
        clu.pads := t.clu.pads } ∧
      (∀ i, i ≠ e.val → t.eng i = s.eng i) ∧ t.eng e = (s.eng e).next 1 ∧
      ∀ i a, a < 2 ^ 19 → t.padByte i a =
        if i = e.val ∧ off ≤ a ∧ a < off + width then BitVec.ofNat 8 (v % 2 ^ (8 * width) / 2 ^ (8 * (a - off))) else s.padByte i a)
  | .dev off => exec c s = .next (if s.bufferFull e then s.stallStore e
      else s.pushOp e (s.storeOf e ea width v rel true (off / 64)))
  | .home off => exec c s = .next (if s.bufferFull e then s.stallStore e
      else s.pushOp e (s.storeOf e ea width v rel false (s.homeHl e off)))

/-- A store of a register (R227). -/
def StoreOp (c : Fin 32 → BitVec 26 → Instr) (op width : Nat) (rel : Bool) : Prop :=
  ∀ (s : State) (e : Fin 32) (f : BitVec 26), s.issues e (BitVec.ofNat 6 op ++ f) → s.regsIdle e [fA f, fB f] →
    Stores (c e f) s e (engAddr ((s.eng e).get (fB f)) ((fImm f).signExtend 64)) width ((s.eng e).get (fA f)).toNat rel

/-- An atomic (R216, R227): its address must lie in the home window, aligned to 8 bytes. -/
def AtomicOp (c : Fin 32 → BitVec 26 → Instr) (op : Nat) (a : AmoOp) : Prop :=
  ∀ (s : State) (e : Fin 32) (f : BitVec 26), s.issues e (BitVec.ofNat 6 op ++ f) → fLow f = 0 →
    s.regsIdle e [fA f, fB f, fC f] →
    let ea := ((s.eng e).get (fB f)).toNat % 2 ^ 48
    Standing (c e f) s e ea <| match s.eaOf e ea 8 true with
    | .bad code => exec (c e f) s = .next (s.engFault e code ea false)
    | .home off => exec (c e f) s = .next (if s.bufferFull e then s.stallStore e
        else s.pushOp e (s.amoOf e ea a f off))
    | _ => False

/-! ### Media commands -/

/-- The N16 sends the die a frame of opcode `op`: an overdue die is sent STATUS, RESUME and DATA-OUT alone (R208). -/
def State.reaches (s : State) (ch die op : Nat) : Prop := (s.die ch die).overdue = false ∨ op ∈ [opStatus, opResume, opDataOut]

/-- Command `c` sends the frame of opcode `op` to a powered die that takes it: it answers a next state of which `after` holds, given
the state before, the frame's fields and the die, out of standby (R197 to R199, R212). -/
def TakenIn (s : State) (c : Instr) (ch : Fin 32) (op : Nat) (f : BitVec 128) (after : State → Frame → DieSt → State → Prop) : Prop :=
  s.power ≠ pwDark →
    let g := frameFields (frameOf op f)
    let d := { s.die ch g.die with standby := false }
    s.reaches ch g.die op → d.reject op (frameOf op f) = 0 → Runs c s (after s g d)

/-- So in every state. -/
def Taken (c : Instr) (ch : Fin 32) (op : Nat) (f : BitVec 128) (after : State → Frame → DieSt → State → Prop) : Prop :=
  ∀ s : State, TakenIn s c ch op f after

/-- The frame's array operation starts on its plane, or queues behind the running pass; no cell and no other die changes. -/
def starts (ch : Fin 32) (op : Nat) (thr : BitVec 256) (data : Stored) (s : State) (g : Frame) (d : DieSt) (t : State) : Prop :=
  ∀ o, g.arrOp op thr data = some o →
    t.die ch g.die = d.start g.plane o ∧ t.store = s.store ∧
    ∀ i, i ≠ dieIdx ch g.die → mapGet (fun _ => dieInit) t.dies i = mapGet (fun _ => dieInit) s.dies i

/-- A frame that the die rejects leaves its code in ERR and nothing else of any die, and no cell, changed (R199). -/
def RejectedIn (s : State) (c : Instr) (ch : Fin 32) (op : Nat) (f : BitVec 128) : Prop :=
  s.power ≠ pwDark →
    let g := frameFields (frameOf op f)
    let d := { s.die ch g.die with standby := false }
    s.reaches ch g.die op → d.reject op (frameOf op f) ≠ 0 → Runs c s (fun t =>
      t.die ch g.die = { d with err := d.reject op (frameOf op f) } ∧ t.store = s.store ∧ t.sent = s.sent ∧
      ∀ i, i ≠ dieIdx ch g.die → mapGet (fun _ => dieInit) t.dies i = mapGet (fun _ => dieInit) s.dies i)

/-- So in every state. -/
def Rejected (c : Instr) (ch : Fin 32) (op : Nat) (f : BitVec 128) : Prop := ∀ s : State, RejectedIn s c ch op f

/-! ### Orbit frames -/

/-- A received header is of this N16's own constellation (R282, R285 to R287): Orbit runs, the link carries traffic, the form is that of
message `msg` on channel `ch`, and it comes from another moon, a member, to this one. -/
def State.meant (s : State) (h : OrbHdr) (ch : Nat) (msg : OrbMsg) : Prop :=
  s.orbitRuns = true ∧ s.linkOk h.port = true ∧ OrbHdr.formOk h ch msg = true ∧ h.src.toNat ≠ s.ownMoon ∧
  (s.peer h.src.toNat).member = true ∧ h.dst.toNat = s.ownMoon ∧ h.constId.toNat = s.get F.ORB_ID_CONST

/-- It is also its own to act on (R287): its tag verifies under the pair key, which is held. -/
def State.hears (s : State) (h : OrbHdr) (ch : Nat) (msg : OrbMsg) : Prop := s.meant h ch msg ∧ s.tagOk h msg = true

/-- The header's SEQ is the next of its channel (R289). -/
def State.nextSeq (s : State) (h : OrbHdr) (ch : Nat) : Prop :=
  h.seq.toNat = (((s.peer h.src.toNat).chan ch).rxSeq + 1) % 2 ^ 48

/-- What a taken header leaves (R289, R292, R293): its sender reachable and heard now, its SEQ received, the higher term adopted, and no
data touched. -/
def State.heard (s : State) (h : OrbHdr) (ch : Nat) (u : State) : Prop :=
  (u.peer h.src.toNat).reachable = true ∧ (u.peer h.src.toNat).lastHeard = s.now ∧
  ((u.peer h.src.toNat).chan ch).rxSeq = h.seq.toNat ∧ u.term = max s.term h.term.toNat ∧ dataKept s u ∧ u.pending = s.pending

/-- A sequenced frame that carries `msg` (R282, R285 to R290), in a state where `room` holds: nothing while Orbit does not run or its link
carries nothing; counted and discarded when its form is wrong, when it is foreign or when its tag fails; else, in order, taken: it does
`act`, and its buffer is given back. -/
def FrameOp (c : Instr) (h : OrbHdr) (msg : OrbMsg) (room : State → Bool) (act : State → State) : Prop :=
  ∀ s : State, room s = true →
    (s.orbitRuns = false ∨ s.linkOk h.port = false → exec c s = .next (s.wake [52])) ∧
    (s.orbitRuns = true → s.linkOk h.port = true → OrbHdr.formOk h msg.chan msg = false →
      exec c s = .next ((s.wake [52]).sat F.ORB_ERR_BAD_FRAME 1)) ∧
    (s.orbitRuns = true → s.linkOk h.port = true → OrbHdr.formOk h msg.chan msg = true → h.src.toNat ≠ s.ownMoon →
      (s.peer h.src.toNat).member = false ∨ h.dst.toNat ≠ s.ownMoon ∨ h.constId.toNat ≠ s.get F.ORB_ID_CONST →
      exec c s = .next ((s.wake [52]).satReg R.ORB_RX_FOREIGN 1)) ∧
    (s.meant h msg.chan msg → s.tagOk h msg = false → Runs c s (fun t => dataKept s t ∧
      (t.rd (R.ORB_S_TAG_FAIL h.port)).toNat = min ((s.rd (R.ORB_S_TAG_FAIL h.port)).toNat + 1) (2 ^ 32 - 1))) ∧
    (s.hears h msg.chan msg → s.nextSeq h msg.chan →
      Runs c s (fun t => ∃ u, s.heard h msg.chan u ∧ t = (act u).freeCredits h.src.toNat msg.chan msg))

/-! ### The key vault cipher -/

/-- A GO of KVC_CTL with this MODE is taken (R356, R357, R359, R360). -/
def State.kvcReady (s : State) (v : Word) (m : Nat) : Prop :=
  s.seq.por = false ∧ s.authorised = true ∧ s.get F.KVC_LOCK_OWNER = 2 ∧ s.kvc.run = none ∧ s.vaultDead = false ∧
  F.KVC_CTL_GO.on v = true ∧ F.KVC_CTL_MODE.of v = m

/-- A cipher operation runs, with nothing of the vault or the buffer changed yet. -/
def State.began (s t : State) (r : KvcRun) : Prop :=
  t.kvc.run = some r ∧ t.get F.KVC_STAT_BUSY = 1 ∧ t.get F.KVC_STAT_CODE = 0 ∧ t.kvc.slots = s.kvc.slots ∧ t.kvc.buf = s.kvc.buf

/-- Every key of the vault and of the key slot array is gone, the authorisation is closed and the source is shown (R360). -/
def State.alarmed (s t : State) (src : Nat) : Prop :=
  t.kvc.slots = [] ∧ t.key.slots = [] ∧ t.key.keks = [] ∧ t.authorised = false ∧ t.kvc.run = none ∧
  t.get F.KVC_ALARM_SOURCES = s.get F.KVC_ALARM_SOURCES ||| 2 ^ src ∧ 2 ≤ t.get F.KVC_ALARM_LEVEL

/-! ### The sequencer -/

/-- The run may go on at step i (R364, R365). -/
def State.stepOk (s : State) (i : Nat) : Prop := 4096 ≤ s.seq.steps + 1 ∨ (i < 256 ∧ seqWordOk (s.runWord i) = true)

/-- The run goes on at step i. -/
def State.movedTo (s t : State) (i : Nat) : Prop :=
  t.get F.SEQ_STAT_STEP = i % 256 ∧ t.seq.run = s.seq.run ∧ t.seq.wait = .none ∧ t.seq.steps = s.seq.steps + 1

/-- A power-up request would be taken (R369). -/
def State.upReady (s : State) : Prop :=
  s.seq.por = false ∧ s.flag F.THM_STAT_LATCH = false ∧ seqWordOk (s.progWord 0) = true

/-- The power-up program runs, for this source (R369). -/
def State.upBegun (s t : State) (src : Nat) : Prop :=
  t.seq.run = some false ∧ t.seq.runProg = s.seq.prog ∧ t.get F.SEQ_STAT_STEP = 0 ∧ t.get F.SEQ_STAT_STATE = 1 ∧
  t.get F.SEQ_LAST_ON_SOURCE = src

/-! ### The invariant -/

/-- Every waiting command can be formed, and what is left over of the always-on clock's period is less than one period. -/
def State.Inv (s : State) : Prop := (∀ c ∈ s.pending, c.wellFormed = true) ∧ s.aonPhase < aonSpan

end Sys2Proof.Machine
end

