-- ==== Sys2Proof/Certificates/Slice0/Obligations.lean ====
section
/-! DEFINITION. The statements about the N16, for the provers. Each says in its docstring which rules of spec/ it formalises. -/

open Sys2Proof Sys2Proof.Machine

/-- A step takes the command at the front of the queue and is exec of it on the state with the queue's rest; with none waiting one
cycle passes (log 2). No word of the table spells a command (log 9). -/
def Obligations.StepRunsTheFrontCommand : Prop :=
  (∀ (c : Instr) (s : State), step { s with pending := c :: s.pending } = exec c s) ∧
  (∀ s : State, s.pending = [] → step s = .next s.idle) ∧
  (∀ (s : State) (n w : Nat), decodeTableWord n w = none ∧ s.withFetchWord n w = s)

/-- With none waiting and POR released, a cycle advances the time by one and the always-on tick by at most one, and leaves the data,
the keys and the queue as they are, but for an orderly shutdown that goes on, the reset of the band last used and a retraining
of dies that is due (log 2; R30, R158, R213, R373). Domains gate and wake (R30, R31): a gated domain is not awake, a woken one
is, and no other changes; with a media channel its dies leave standby (R212). -/
def Obligations.IdleCycleAndDomains : Prop :=
  (∀ s : State, s.pending = [] → s.seq.por = false → s.seq.hosts = false → s.seq.drain = false → s.store.bandResetDue = false →
    s.wear.retrainDue = [] →
    ∃ t, step s = .next t ∧ t.now = s.now + 1 ∧
    t.store = s.store ∧ t.nvs = s.nvs ∧ t.key = s.key ∧ t.dies = s.dies ∧ t.rgn.descs = s.rgn.descs ∧ t.pending = [] ∧ t.sent = s.sent ∧
    (s.aonPhase + 512 < 3125000 → t.aonTick = s.aonTick ∧ t.aonPhase = s.aonPhase + 512) ∧
    (3125000 ≤ s.aonPhase + 512 → t.aonTick = s.aonTick + 1 ∧ t.aonPhase + 3125000 = s.aonPhase + 512)) ∧
  (∀ (s : State) (d : Domain),
    (s.mayGate d = true → Runs (.domainIdleGate d) s (fun t => t.isAwake (domNum d) = false ∧
      (∀ i, i ≠ domNum d → t.isAwake i = s.isAwake i) ∧ dataKept s t)) ∧
    (s.dom.waking.contains (domNum d) = true → Runs (.domainWakeDone d) s (fun t => t.isAwake (domNum d) = true ∧
      (∀ i, i ≠ domNum d → t.isAwake i = s.isAwake i) ∧ t.dom.waking.contains (domNum d) = false ∧
      t.store = s.store ∧ t.nvs = s.nvs ∧ t.key = s.key ∧ t.rgn = s.rgn ∧
      (mapWf s.dies = true → ∀ (ch : Fin 32) (i : Fin 16), t.die ch i =
        if d = .media ch then { s.die ch i with standby := false } else s.die ch i))))

/-- What reset leaves, where the spec says it (R396, R438): POR held, the power axis Dark and the service axis Hold, trust Sealed,
every register at its reset value, no command waiting, no key held, nothing in flight; and the invariant holds. -/
def Obligations.ResetState : Prop :=
  State.reset.seq.por = true ∧ State.reset.power = pwDark ∧ State.reset.service = svHold ∧ State.reset.trust = trSealed ∧
  (∀ off, State.reset.rd off = regReset off) ∧ State.reset.pending = [] ∧ (∀ i, State.reset.slot i = none) ∧
  (∀ v, State.reset.vslot v = none) ∧ State.reset.accesses = [] ∧ (∀ e, (State.reset.eng e).phase = .off) ∧
  (∀ m, State.reset.cell m = erased) ∧ State.reset.flag (F.HP_CTRL_PORT_EN 0) = true ∧
  State.reset.get F.THM_LIMIT_CFG_CRIT = 110 ∧ State.reset.Inv

/-- The invariant is kept by every step, from every state that has it. -/
def Obligations.InvariantKept : Prop :=
  ∀ s t : State, s.Inv → step s = .next t → t.Inv

/-- Every command answers a next state in every state, and leaves the queue and the time alone: the queue is the step's, and the
time is the idle cycle's. -/
def Obligations.EveryCommandAnswers : Prop :=
  ∀ (c : Instr) (s : State), Runs c s (fun t => t.pending = s.pending ∧ t.now = s.now)

/-- Engine words (R225, R226, R250): the decoder gives back every instruction from its word, and every word it accepts is the word
of what it gives. -/
def Obligations.EngineWordRoundTrip : Prop :=
  (∀ (i : Instr) (e : Fin 32) (op : BitVec 6) (f : BitVec 26), engFields i = some (e, op, f) → engLegal op f = true →
    engKindOk i = true → engWord i = some (op ++ f) ∧ engDecode e (op ++ f) = some (engClean i)) ∧
  (∀ (e : Fin 32) (w : BitVec 32) (i : Instr), engDecode e w = some i → engWord i = some w ∧
    ∃ op f, engFields i = some (e, op, f) ∧ engLegal op f = true ∧ engKindOk i = true)

/-- Register operations compute what R227 gives, and change nothing but x[rd], the PC and the cycle count (R224, R228). -/
def Obligations.EngineRegisterOperations : Prop :=
  RegisterOp .add 0x00 (fun _ => 1) (fun a b => a + b) ∧ RegisterOp .sub 0x01 (fun _ => 1) (fun a b => a - b) ∧
  RegisterOp .and 0x02 (fun _ => 1) (fun a b => a &&& b) ∧ RegisterOp .or 0x03 (fun _ => 1) (fun a b => a ||| b) ∧
  RegisterOp .xor 0x04 (fun _ => 1) (fun a b => a ^^^ b) ∧
  RegisterOp .sll 0x05 (fun _ => 1) (fun a b => a <<< (b.toNat % 64)) ∧
  RegisterOp .srl 0x06 (fun _ => 1) (fun a b => a >>> (b.toNat % 64)) ∧
  RegisterOp .sra 0x07 (fun _ => 1) (fun a b => a.sshiftRight (b.toNat % 64)) ∧
  RegisterOp .mul 0x10 (fun _ => 3) (fun a b => a * b) ∧
  RegisterOp .mulhu 0x11 (fun _ => 3) (fun a b => BitVec.ofNat 64 (a.toNat * b.toNat / 2 ^ 64)) ∧
  RegisterOp .divu 0x12 (fun a => 2 + sigBits a) (fun a b => if b = 0 then BitVec.allOnes 64 else a / b) ∧
  RegisterOp .remu 0x13 (fun a => 2 + sigBits a) (fun a b => if b = 0 then a else a % b) ∧
  RegisterOp .slt 0x14 (fun _ => 1) (fun a b => if a.toInt < b.toInt then 1 else 0) ∧
  RegisterOp .sltu 0x15 (fun _ => 1) (fun a b => if a.toNat < b.toNat then 1 else 0) ∧
  RegisterOp .minu 0x16 (fun _ => 1) (fun a b => if a.toNat < b.toNat then a else b) ∧
  RegisterOp .maxu 0x17 (fun _ => 1) (fun a b => if a.toNat < b.toNat then b else a) ∧
  RegisterOp .crc32c 0x38 (fun _ => 1) (fun a b => (crc32cUpd (a.setWidth 32) (toBytes 8 b)).zeroExtend 64) ∧
  OneSourceOp .popc 0x39 (fun a => BitVec.ofNat 64 (popcount a)) ∧
  OneSourceOp .clz 0x3A (fun a => BitVec.ofNat 64 (64 - sigBits a))

/-- Operations with an immediate: sign-extended for ADDI, zero-extended for ANDI, ORI and XORI, a shift amount whose bits above the
sixth must be 0, the high half of a word for LUI (R227), and a special register for CSRR (R228). -/
def Obligations.EngineImmediateOperations : Prop :=
  ImmediateOp .addi 0x08 (fun _ => true) (fun a i => a + i.signExtend 64) ∧
  ImmediateOp .andi 0x09 (fun _ => true) (fun a i => a &&& i.zeroExtend 64) ∧
  ImmediateOp .ori 0x0A (fun _ => true) (fun a i => a ||| i.zeroExtend 64) ∧
  ImmediateOp .xori 0x0B (fun _ => true) (fun a i => a ^^^ i.zeroExtend 64) ∧
  ImmediateOp .slli 0x0C (fun f => decide ((fImm f).toNat < 64)) (fun a i => a <<< i.toNat) ∧
  ImmediateOp .srli 0x0D (fun f => decide ((fImm f).toNat < 64)) (fun a i => a >>> i.toNat) ∧
  ImmediateOp .srai 0x0E (fun f => decide ((fImm f).toNat < 64)) (fun a i => a.sshiftRight i.toNat) ∧
  ImmediateOp .lui 0x0F (fun f => fB f == 0) (fun _ i => (i ++ 0#16).signExtend 64) ∧
  (∀ s e f v, s.special e (fImm f).toNat = some v → Executes (.csrr e f) 0x3B s e f (fB f == 0) [fA f]
    (fun g => (g.set (fA f) v).next 1))

/-- Branches compare x[rs1] with x[rs2], signed for BLT and BGE; JAL and JALR write PC + 4 to x[rd] and jump, JALR with the low two
bits of the target 0 (R225, R227, R228). -/
def Obligations.EngineBranchesAndJumps : Prop :=
  BranchOp .beq 0x30 (fun a b => a == b) ∧ BranchOp .bne 0x31 (fun a b => a != b) ∧
  BranchOp .blt 0x32 (fun a b => decide (a.toInt < b.toInt)) ∧ BranchOp .bge 0x33 (fun a b => decide (b.toInt ≤ a.toInt)) ∧
  BranchOp .bltu 0x34 (fun a b => decide (a.toNat < b.toNat)) ∧ BranchOp .bgeu 0x35 (fun a b => decide (b.toNat ≤ a.toNat)) ∧
  (∀ s e f, Executes (.jal e f) 0x36 s e f true [fA f] (fun g =>
    { g.set (fA f) (BitVec.ofNat 64 (g.pc + 4)) with
      pc := (BitVec.ofNat 64 (g.pc + 4) + 4 * (f.extractLsb' 0 21).signExtend 64).toNat % 2 ^ 18
      cycles := g.cycles + 2 })) ∧
  (∀ s e f, Executes (.jalr e f) 0x37 s e f true [fA f, fB f] (fun g =>
    { g.set (fA f) (BitVec.ofNat 64 (g.pc + 4)) with
      pc := (g.get (fB f) + (fImm f).signExtend 64).toNat / 4 * 4 % 2 ^ 18
      cycles := g.cycles + 2 }))

/-- Loads (R216, R227, R246): LD8 to LD64 sign-extend, LDU8 to LDU32 zero-extend, LD.ACQ holds back what follows it, LDV fills eight
registers. -/
def Obligations.EngineLoads : Prop :=
  LoadOp .ld8 0x18 1 true false ∧ LoadOp .ld16 0x19 2 true false ∧ LoadOp .ld32 0x1A 4 true false ∧
  LoadOp .ld64 0x1B 8 false false ∧ LoadOp .ldu8 0x1C 1 false false ∧ LoadOp .ldu16 0x1D 2 false false ∧
  LoadOp .ldu32 0x1E 4 false false ∧ LoadOp .ldAcq 0x1F 8 false true ∧ LoadOp .ldv 0x25 64 false false

/-- Stores (R216, R227, R242, R247): ST8 to ST64 and ST.REL store the low bytes of x[rs2], STV eight registers, ZERO 64 zero bytes. -/
def Obligations.EngineStores : Prop :=
  StoreOp .st8 0x20 1 false ∧ StoreOp .st16 0x21 2 false ∧ StoreOp .st32 0x22 4 false ∧ StoreOp .st64 0x23 8 false ∧
  StoreOp .stRel 0x24 8 true ∧
  (∀ (s : State) (e : Fin 32) (f : BitVec 26), s.issues e (0x26#6 ++ f) → fA f % 8 = 0 →
    s.regsIdle e ([fB f] ++ (List.range 8).map (fA f + ·)) →
    Stores (.stv e f) s e (engAddr ((s.eng e).get (fB f)) ((fImm f).signExtend 64)) 64
      ((List.range 8).foldl (fun n i => n + ((s.eng e).get (fA f + i)).toNat * 2 ^ (64 * i)) 0) false) ∧
  (∀ (s : State) (e : Fin 32) (f : BitVec 26), s.issues e (0x27#6 ++ f) → fA f = 0 → s.regsIdle e [fB f] →
    Stores (.zero e f) s e (engAddr ((s.eng e).get (fB f)) ((fImm f).signExtend 64)) 64 0 false)

/-- Atomics take their place in the store buffer with what they compare and store (R216, R227, R242). What each stores over an old
value is its operation's result; CAS stores only on equality. -/
def Obligations.EngineAtomics : Prop :=
  (AtomicOp .amoAdd 0x28 .add ∧ AtomicOp .amoSwap 0x29 .swap ∧ AtomicOp .amoCas 0x2A .cas ∧ AtomicOp .amoAnd 0x2B .and ∧
   AtomicOp .amoOr 0x2C .or ∧ AtomicOp .amoXor 0x2D .xor ∧ AtomicOp .amoMinu 0x2E .minu ∧ AtomicOp .amoMaxu 0x2F .maxu) ∧
  ∀ cmp src old : Xlen, amoNew .add cmp src old = old + src ∧ amoNew .swap cmp src old = src ∧
    amoNew .cas cmp src old = (if old = cmp then src else old) ∧ amoNew .and cmp src old = old &&& src ∧
    amoNew .or cmp src old = old ||| src ∧ amoNew .xor cmp src old = old ^^^ src ∧
    amoNew .minu cmp src old = BitVec.ofNat 64 (min old.toNat src.toNat) ∧
    amoNew .maxu cmp src old = BitVec.ofNat 64 (max old.toNat src.toNat)

/-- Barriers set what later loads and stores wait for, start the timers of the device stores they wait on, and take one cycle (R250,
R252): FENCE.LOAD loads for loads, FENCE.STORE stores for stores, FENCE.FULL loads and issued stores for loads and both for
stores, FENCE.DEVICE device stores for both, FENCE.SC all for all. -/
def Obligations.EngineBarriers : Prop :=
  (∀ (s : State) (e : Fin 32) (f : BitVec 26), fImm f = 1 → Executes (.fenceLoad e f) 0x3C s e f (fA f == 0 && fB f == 0) [] (fun g =>
    { g with ldGate := g.ldGate.join ⟨g.nextTag, 0, 0, 0⟩ }.timed (s.now + s.tmoCycles) |>.next 1)) ∧
  (∀ (s : State) (e : Fin 32) (f : BitVec 26), fImm f = 2 → Executes (.fenceStore e f) 0x3C s e f (fA f == 0 && fB f == 0) [] (fun g =>
    { g with stGate := g.stGate.join ⟨0, 0, g.nextTag, 0⟩ }.timed (s.now + s.tmoCycles) |>.next 1)) ∧
  (∀ (s : State) (e : Fin 32) (f : BitVec 26), fImm f = 3 → Executes (.fenceFull e f) 0x3C s e f (fA f == 0 && fB f == 0) [] (fun g =>
    { g with
      ldGate := g.ldGate.join ⟨g.nextTag, g.nextTag, 0, 0⟩
      stGate := g.stGate.join ⟨g.nextTag, 0, g.nextTag, 0⟩ }.timed (s.now + s.tmoCycles) |>.next 1)) ∧
  (∀ (s : State) (e : Fin 32) (f : BitVec 26), fImm f = 4 → Executes (.fenceDevice e f) 0x3C s e f (fA f == 0 && fB f == 0) [] (fun g =>
    { g with
      ldGate := g.ldGate.join ⟨0, 0, 0, g.nextTag⟩
      stGate := g.stGate.join ⟨0, 0, 0, g.nextTag⟩ }.timed (s.now + s.tmoCycles) |>.next 1)) ∧
  (∀ (s : State) (e : Fin 32) (f : BitVec 26), Executes (.fenceSc e f) 0x3D s e f (fA f == 0 && fB f == 0 && fImm f == 0) [] (fun g =>
    { g with
      ldGate := g.ldGate.join ⟨g.nextTag, 0, g.nextTag, 0⟩
      stGate := g.stGate.join ⟨g.nextTag, 0, g.nextTag, 0⟩ }.timed (s.now + s.tmoCycles) |>.next 1))

/-- DONE ends the descriptor with code 0x00 and x[rs1] (R227); BRK has an attached debugger halt the engine after it, and else
raises exception 0x0C (R229, R236). -/
def Obligations.EngineEnds : Prop :=
  (∀ (s : State) (e : Fin 32) (f : BitVec 26), s.issues e (0x3E#6 ++ f) → fA f = 0 → fImm f = 0 → s.regsIdle e [fB f] →
    Runs (.done e f) s (fun t => t.eng e =
      { s.eng e with
        phase := .ended
        code := 0
        ret := (s.eng e).get (fB f)
        cycles := (s.eng e).cycles + 1 }.timed (s.now + s.tmoCycles) ∧ ∀ i, i ≠ e.val → t.eng i = s.eng i)) ∧
  (∀ (s : State) (e : Fin 32) (f : BitVec 26), s.issues e (0x3F#6 ++ f) → fA f = 0 → fB f = 0 → s.debugOk = true →
    Runs (.brk e f) s (fun t => t.eng e = { s.eng e with dbg := true }.next 1 ∧ ∀ i, i ≠ e.val → t.eng i = s.eng i)) ∧
  (∀ (s : State) (e : Fin 32) (f : BitVec 26), s.issues e (0x3F#6 ++ f) → fA f = 0 → fB f = 0 → s.debugOk = false →
    exec (.brk e f) s = .next (s.engFault e 0x0C (s.eng e).pc false))

/-- A word that is not an instruction raises 0x03, whichever of the 64 opcodes it has (R225, R229); with the PC outside the program
every instruction raises 0x04 (R224, R229). An exception ends the descriptor with its code, and ENGe_FAULT_ADDR holds the
address and code (R229). -/
def Obligations.IllegalWordsAndExceptions : Prop :=
  ((∀ (s : State) (e : Fin 32) (op : BitVec 6) (f : BitVec 26), s.issues e (op ++ f) → engLegal op f = false →
    exec (engByOpcode e op f) s = .next (s.engFault e 0x03 (s.eng e).pc false)) ∧
  (∀ (s : State) (e : Fin 32) (op : BitVec 6) (f : BitVec 26), (s.eng e).phase = .running → (s.eng e).dbg = false →
    s.isAwake (1 + e / 8) = true → s.halted = false → s.pcInside e = false →
    exec (engByOpcode e op f) s = .next (s.engFault e 0x04 (s.eng e).pc false))) ∧
  (∀ (s : State) (e : Fin 32) (code addr : Nat), (s.eng e).phase = .running → code < 256 →
    let t := s.engFault e code addr false
    (t.eng e).phase = .ended ∧ (t.eng e).code = code ∧
    t.rd (R.ENGE_FAULT_ADDR_LO e) = BitVec.ofNat 32 addr ∧ t.get (F.ENGE_FAULT_ADDR_HI_CODE e) = code ∧
    t.get (F.ENGE_FAULT_ADDR_HI_VALID e) = 1 ∧ t.get (F.ENGE_STAT_LAST_CODE e) = code ∧ dataKept s t ∧
    ∀ i, i ≠ e.val → t.eng i = s.eng i)

/-- What ends a memory operation of an engine. A load's data crosses CP8: it is metered (R235); intact, it may be installed and is
delivered (R218, R259); poisoned or mismatching, it raises 0x08 (R229); with no valid key, 0x0A. A store's completion waits for
older stores to its line (R245); it frees the buffer entry, and one that was not stored sets WR_FAILED (R228, R240); an atomic's
old value crosses CP8 too (R218). A device access whose time runs out is given up: a load poisoned, a store lost with 0x09
(R252). -/
def Obligations.EngineCompletions : Prop :=
  ∀ (s : State) (e : Fin 32) (tag : Nat) (o : MemOp), s.opOf e tag = some o →
  (∀ h err, o.stage = .back (.data h false) → o.dev = false → carryCheck (h ^^^ err) = carryCheck h →
    exec (.fillReturn e tag err) s = .next (State.settle
      (((s.meterOp o .bytesRd 64).installFill e o h).deliver e o (h ^^^ err)) e)) ∧
  (∀ h err, o.stage = .back (.data h true) → exec (.fillReturn e tag err) s = .next
    ((s.meterOp o .bytesRd 64).loadPoisoned e o false)) ∧
  (∀ err, o.stage = .back .noKey → o.kind ≠ .debug → exec (.fillReturn e tag err) s = .next
    (((s.dropOp e tag).engFault e 0x0A o.ea true).settle e)) ∧
  (∀ b err, o.stage = .done b → s.completesNow e o = false → exec (.storeComplete e ⟨tag, err⟩) s = .next s) ∧
  (∀ err, o.stage = .done true → o.kind = .store → s.completesNow e o = true →
    exec (.storeComplete e ⟨tag, err⟩) s = .next ((s.dropOp e tag).settle e)) ∧
  (∀ err, o.stage = .done false → o.kind = .store → o.left = false → s.completesNow e o = true →
    exec (.storeComplete e ⟨tag, err⟩) s = .next (State.settle
      ((s.dropOp e tag).setEng e { (s.dropOp e tag).eng e with wrFailed := true }) e)) ∧
  (∀ err op cmp src rd, o.stage = .done true → o.kind = .amo op cmp src rd → o.left = false → s.completesNow e o = true →
    let t := (s.dropOp e tag).meterOp o .bytesRd 64
    (carryCheck (o.data ^^^ err) = carryCheck o.data → exec (.storeComplete e ⟨tag, err⟩) s = .next (State.settle
      (t.setEng e ((t.eng e).set rd (loadValue (o.data ^^^ err) (o.ea % 64) 8 false))) e)) ∧
    (carryCheck (o.data ^^^ err) ≠ carryCheck o.data → exec (.storeComplete e ⟨tag, err⟩) s = .next (State.settle
      (((t.meterOp o .rdPoison 1).ccMismatch 8 o.region).engFault e 0x08 o.ea true) e))) ∧
  (o.dev = true → o.isLoad = true → o.stage = .sent → s.ranOut o = true → exec (.deviceLoadTimeout e tag) s = .next (State.loadPoisoned
    { s with orb.remote := s.orb.remote.filter (fun r => !(r.eng == e && r.ref == tag)) } e o false)) ∧
  (o.dev = true → o.isStore = true → o.stage = .sent → s.ranOut o = true → (s.eng e).dbg = false →
    Runs (.deviceStoreTimeout e tag) s (fun t =>
      ∃ u, t = (State.engFault u e 0x09 o.ea true).settle e ∧ u.opOf e tag = none ∧
        u.rd R.ENG_STORE_LOST = BitVec.ofNat 32 (min ((s.rd R.ENG_STORE_LOST).toNat + 1) (2 ^ 32 - 1))))

/-- The queue loop (R223): a descriptor read intact and of the right form starts its program with x1 to x5 its arguments, x6 its
address, x7 CONS and every other register 0; after the barrier its completion is written; a key that has become valid resumes
the read that waited, 1 ms after the last look (R229); CYC_LIMIT × 2^20 cycles end it with 0x0B (R229). -/
def Obligations.EngineQueueLoop : Prop :=
  (∀ (s : State) (e : Fin 32) (h : HostLine), (s.eng e).dbg = false → s.isAwake (1 + e / 8) = true →
    s.mayTake e = true → (s.eng e).phase = .readDesc → (s.eng e).ring = some (.data h false) → bytesOf h 0 1 = 1 → bytesOf h 1 1 = 0 → bytesOf h 4 4 = 0 →
    s.get (F.ENGE_QCFG_PROG_FIRST e) ≤ bytesOf h 2 2 → bytesOf h 2 2 ≤ s.get (F.ENGE_QCFG_PROG_LAST e) →
    (s.progLen e (bytesOf h 2 2)).isSome = true → bytesOf h 2 2 < 64 →
    Runs (.descriptorTake e false) s (fun t =>
      (t.eng e).phase = .running ∧ (t.eng e).pc = bytesOf h 2 2 * 4096 ∧ (t.eng e).cycles = 0 ∧ (t.eng e).wrFailed = false ∧
      (∀ i, i < 5 → (t.eng e).get (i + 1) = BitVec.ofNat 64 (bytesOf h (8 + 8 * i) 8)) ∧
      (t.eng e).get 6 = BitVec.ofNat 64 (s.entryOff e) ∧ (t.eng e).get 7 = (s.engCons e).zeroExtend 64 ∧
      ∀ r, 8 ≤ r → (t.eng e).get r = 0)) ∧
  (∀ (s : State) (e : Fin 32), (s.eng e).phase = .ended → (s.eng e).mine = [] → (s.eng e).dbg = false → s.halted = false →
    s.service ≠ svReadOnly → exec (.descriptorComplete e) s = .next (s.writeCompletion e false)) ∧
  (∀ (s : State) (e : Fin 32), (s.slot (s.engKey e).toNat).isSome = true → s.passed (200 + e) 200000 = true →
    ((s.eng e).phase = .keyCons → exec (.engineKeyRecheck e) s = .next (s.ringRead e (s.ringOff e + 64) .readCons)) ∧
    ((s.eng e).phase = .keyProd → exec (.engineKeyRecheck e) s = .next (s.readProd e)) ∧
    ((s.eng e).phase = .keyDesc → exec (.engineKeyRecheck e) s = .next (s.engNext e))) ∧
  (∀ (s : State) (e : Fin 32), (s.eng e).phase = .running → (s.eng e).dbg = false → s.get (F.ENGE_QCFG_CYC_LIMIT e) ≠ 0 →
    s.get (F.ENGE_QCFG_CYC_LIMIT e) * 2 ^ 20 ≤ (s.eng e).cycles →
    exec (.cycleLimit e) s = .next (s.engFault e 0x0B (s.eng e).pc false))

/-- A bind that fails a check shows it in BERR and leaves the engine unbound; one that passes all zeroes the slice and the engine's
registers and reads CONS (R219, R263). Unbinding and aborting wait for the completion of a descriptor in hand, which an abort
ends with 0x0D (R220). A load of program slots that passes the checks of R232 is under way until its image is placed as one
program (R231); an unload empties the slots at once; a failed check is shown by its code and changes no slot. -/
def Obligations.EngineBindingAndPrograms : Prop :=
  ((∀ (s : State) (p : Path) (e : Fin 32) (v : Word), s.touch.mayWrite p (R.ENGE_CTX e) = true → s.engBound e = false →
    (F.ENGE_CTX_BIND e).on v = true → (F.ENGE_CTX_ABORT e).on v = false →
    let t := (s.touch.put (F.ENGE_CTX_REGION e) ((F.ENGE_CTX_REGION e).of v)).put (F.ENGE_CTX_KALIAS e) ((F.ENGE_CTX_KALIAS e).of v)
    (t.bindCheck e ≠ 0 → Runs (.engBind p e v) s (fun u => u.engBound e = false ∧ u.get (F.ENGE_STAT_BERR e) = t.bindCheck e ∧
      u.clu = s.clu)) ∧
    (t.bindCheck e = 0 → Runs (.engBind p e v) s (fun u => u.engBound e = true ∧ (u.eng e).phase = .readCons ∧
      (u.eng e).x = [] ∧ u.rd (R.ENGE_CONS e) = 0 ∧ ∀ a, a < 2 ^ 19 → u.padByte e a = 0))) ∧
  (∀ (s : State) (p : Path) (e : Fin 32) (v : Word), s.touch.mayWrite p (R.ENGE_CTX e) = true → s.engBound e = true →
    ((F.ENGE_CTX_BIND e).on v = false → (F.ENGE_CTX_ABORT e).on v = false →
      exec (.engUnbind p e v) s = .next (s.touch.engUnbind e)) ∧
    ((F.ENGE_CTX_ABORT e).on v = true → exec (.engAbort p e v) s = .next (s.touch.engWithdraw e))) ∧
  (∀ (s : State) (e : Fin 32), (s.eng e).inHand = true → s.engUnbind e = s.setEng e { s.eng e with leaving := true } ∧
    s.engWithdraw e = State.engFault (s.setEng e { s.eng e with leaving := true }) e 0x0D (s.eng e).pc false)) ∧
  ((∀ (s : State) (p : Path) (v : Word), s.touch.mayWrite p R.ENG_LOAD_CTL = true → s.clu.loadRun = none →
    let t := s.touch.plainWrite p R.ENG_LOAD_CTL v
    let c := F.ENG_LOAD_CTL_CLUSTERS.of v
    let f := F.ENG_LOAD_CTL_SLOT.of v
    let n := F.ENG_LOAD_CTL_NSLOTS.of v + 1
    (F.ENG_LOAD_CTL_GO.on v = true → t.loadCheck c f n = 0 → Runs (.engLoad p v) s (fun u =>
      u.clu.loadRun = some ⟨c, f, n⟩ ∧ u.get F.ENG_LOAD_STAT_BUSY = 1 ∧ u.get F.ENG_LOAD_STAT_CODE = 0 ∧ u.clu.prog = s.clu.prog)) ∧
    (F.ENG_LOAD_CTL_GO.on v = true → t.loadCheck c f n ≠ 0 → Runs (.engLoad p v) s (fun u =>
      u.clu = s.clu ∧ u.get F.ENG_LOAD_STAT_CODE = t.loadCheck c f n)) ∧
    (F.ENG_LOAD_CTL_GO.on v = false → F.ENG_LOAD_CTL_UNLOAD.on v = true → t.loadCheck c f n = 0 → Runs (.engUnload p v) s (fun u =>
      u.clu.loadRun = none ∧ u.get F.ENG_LOAD_STAT_CODE = 0 ∧
      ∀ k i, c.testBit k = true → f ≤ i → i < f + n → i < 64 → mapGet? u.clu.prog (k * 64 + i) = none))) ∧
  (∀ (s : State) (image : List Word) (r : LoadRun), s.clu.loadRun = some r → r.slot + r.n ≤ 64 → 0 < r.n →
    Runs (.engLoadDone image) s (fun u => u.clu.loadRun = none ∧ u.get F.ENG_LOAD_STAT_BUSY = 0 ∧
      ∀ k, k < 4 → r.clusters.testBit k = true → mapGet? u.clu.progs (k * 64 + r.slot) = some r.n ∧
        ∀ i j, i < r.n → j < 1024 →
          ((mapGet? u.clu.prog (k * 64 + r.slot + i)).getD []).getD j 0 = image.getD (1024 * i + j) 0)))

/-- The debugger (R236, R393): attached in Owner-debug or Vendor-debug it halts a bound engine, reads and writes its registers and
memory, steps it one instruction and resumes it; leaving, it resumes what it halted. Boundary scan drives balls in Hold only.
SPDM measurements list the digest of each loaded program (R233). -/
def Obligations.DebugAccess : Prop :=
  (∀ s : State, s.trust ≠ trSealed → s.seq.por = false → exec (.debuggerAttach true) s = .next (s.put F.MODE_DEBUG_ATTACHED 1)) ∧
  (∀ s : State, exec (.debuggerAttach false) s = .next s.letGo ∧ s.letGo.get F.MODE_DEBUG_ATTACHED = 0) ∧
  (∀ (s : State) (e : Fin 32), s.debugOk = true → s.engBound e = true → Runs (.debugHalt (.engine e)) s (fun t =>
    t.eng e = { s.eng e with dbg := true } ∧ t.engState e = 7 ∧ ∀ i, i ≠ e.val → t.eng i = s.eng i)) ∧
  (∀ (s : State) (e : Fin 32), s.debugOk = true → (s.eng e).dbg = true →
    exec (.debugResume (.engine e)) s = .next (s.engGo e) ∧
    (∀ (r : Fin 32) (v : Xlen), exec (.debugRegisterAccess (.engine e) r true v) s = .next (s.setEng e ((s.eng e).set r v)) ∧
      exec (.debugRegisterAccess (.engine e) r false v) s = .next (s.say (.debug ((s.eng e).get r) false))) ∧
    (∀ (ea : EngAddr) (v : Xlen) (off : Nat), s.eaOf e ea.toNat 8 false = .pad off →
      exec (.debugMemoryAccess e ea false v) s = .next (s.say (.debug (loadValue (s.padLine e off) (off % 64) 8 false) false))) ∧
    Runs (.debugStep (.engine e)) s (fun t => ∃ u,
      engOpcode (((s.engGo e).fetchWord e).toNat / 2 ^ 26) e (((s.engGo e).fetchWord e).extractLsb' 0 26) (s.engGo e) = .next u ∧
      t = State.showEng (u.setEng e { u.eng e with dbg := true }) e ∧ (t.eng e).dbg = true)) ∧
  (∀ (s : State) (e : Fin 32), s.dbgEngine e = false → exec (.debugStep (.engine e)) s = .next s) ∧
  (∀ (s : State) (n : Fin 4), exec (.debugStep (.core n)) s = .next s) ∧
  (∀ (s : State) (drives : Bool), s.seq.por = false → Runs (.boundaryScanInstruction drives) s (fun t =>
    t = s.put F.MODE_DEBUG_BSCAN (t.get F.MODE_DEBUG_BSCAN) ∧
    (t.get F.MODE_DEBUG_BSCAN = 1 ↔ (drives = true ∧ s.service = svHold)))) ∧
  (∀ (s : State) (n : Fin 8), (s.port n).linkUp = true → s.oddMerged n = false → s.boot.cores = true →
    Runs (.spdmRequest n .measurements) s (fun t => ∃ free, t.out = .spdm n t.programDigests free :: s.out))

/-- Array commands (R115, R198, R202): a powered die that takes the frame starts the operation on the frame's plane, or queues a
pass; the cells and every other die stay as they are. Programs and resets are not sent while the power level is not positive,
Eclipse apart. -/
def Obligations.MediaArrayCommands : Prop :=
  (∀ ch f, Taken (.read1 ch f) ch opRead1 f (starts ch opRead1 0 0)) ∧
  (∀ ch f thr, Taken (.read4 ch f thr) ch opRead4 f (starts ch opRead4 thr 0)) ∧
  (∀ ch f, Taken (.softRead ch f) ch opSoft f (starts ch opSoft 0 0)) ∧
  (∀ s ch f line, s.frameHeld opProg1 = false → TakenIn s (.program1 ch f line) ch opProg1 f (starts ch opProg1 0 line)) ∧
  (∀ s ch f, s.frameHeld opProg4 = false → TakenIn s (.program4 ch f) ch opProg4 f (starts ch opProg4 0 0)) ∧
  (∀ s ch f, s.frameHeld opResetTile = false → TakenIn s (.resetTile ch f) ch opResetTile f (starts ch opResetTile 0 0)) ∧
  (∀ s ch f line, s.adm.power ≤ 0 → s.power ≠ pwEclipse → exec (.program1 ch f line) s = .next s ∧ exec (.program4 ch f) s = .next s ∧
    exec (.resetTile ch f) s = .next s) ∧
  (∀ ch f, Taken (.calibrate ch f) ch opCalibrate f (starts ch opCalibrate 0 0))

/-- The other commands that a die takes (R109, R198, R200, R201, R204 to R206): what it answers, and what its planes hold after.
RESUME is sent only while no read of the die is outstanding. A rejected frame changes nothing of the die but ERR, which holds
the lowest code that applies (R199). -/
def Obligations.MediaDieCommandsAndRejects : Prop :=
  ((∀ ch f, Taken (.dataOut ch f) ch opDataOut f (fun s g d t => t.die ch g.die = d ∧
    ((d.plane g.plane).soft = false → t.sent = .die ch g.die (toBytes 304 (d.plane g.plane).buf) :: s.sent))) ∧
  (∀ ch f lines, Taken (.dataIn ch f lines) ch opDataIn f (fun _ g _ t => ((t.die ch g.die).plane g.plane).order = 0 ∧
    ∀ i, i < lines.length → i < (if g.count = 0 then 256 else g.count) →
      some (mapGet (fun _ => erased) ((t.die ch g.die).plane g.plane).tileBuf (g.line + i)) = lines[i]?)) ∧
  (∀ ch f, Taken (.suspend ch f) ch opSuspend f (fun _ g d t =>
    ∀ o, (d.plane g.plane).run = some o → (d.plane g.plane).susp = none → o.suspendable = true →
      ((t.die ch g.die).plane g.plane).run = none ∧ ((t.die ch g.die).plane g.plane).susp = some o)) ∧
  (∀ s ch f, s.readsOn ch (frameFields (frameOf opResume f)).die = false → TakenIn s (.resume ch f) ch opResume f (fun _ g d t =>
    ∀ o, (d.plane g.plane).susp = some o →
      ((t.die ch g.die).plane g.plane).run = some o ∧ ((t.die ch g.die).plane g.plane).susp = none)) ∧
  (∀ ch f, Taken (.dieStatus ch f) ch opStatus f (fun s g d t => t.sent = .die ch g.die (withCrc (toBytes 4 d.status)) :: s.sent ∧
    t.die ch g.die = (if g.arg % 2 = 1 then d.acked else d))) ∧
  (∀ ch f, Taken (.temp ch f) ch opTemp f (fun s g d t => t.die ch g.die = d ∧
    t.sent = .die ch g.die (withCrc (leBytes 2 (d.temp.toNat + (if d.tempValid then 32768 else 0)))) :: s.sent)) ∧
  (∀ ch f, Taken (.readId ch f) ch opReadId f (fun s g d t => t.die ch g.die = d ∧
    t.sent = .die ch g.die (withCrc (State.readIdBytes ch g.die)) :: s.sent)) ∧
  (∀ ch f data, Taken (.train ch f data) ch opTrain f (fun s g d t => t.die ch g.die = d ∧
    t.sent = .die ch g.die (withCrc (if frameByte f 7 % 2 = 1 then toBytes 64 data else trainPattern)) :: s.sent)) ∧
  (∀ ch f, Taken (.resetDie ch f) ch opResetDie f (fun _ g d t => t.die ch g.die = { d.cleared with ownReset := true } ∧
    d.cleared.planes = [] ∧ d.cleared.wasReset = true ∧ d.cleared.tempValid = false))) ∧
  (∀ (ch : Fin 32) (f : BitVec 128) (data : BitVec 512) (thr : BitVec 256) (line : Stored) (lines : List Stored),
    Rejected (.read1 ch f) ch opRead1 f ∧ Rejected (.read4 ch f thr) ch opRead4 f ∧ Rejected (.softRead ch f) ch opSoft f ∧
    Rejected (.dataOut ch f) ch opDataOut f ∧ Rejected (.dataIn ch f lines) ch opDataIn f ∧
    (∀ s : State, s.frameHeld opProg1 = false → RejectedIn s (.program1 ch f line) ch opProg1 f) ∧
    (∀ s : State, s.frameHeld opProg4 = false → RejectedIn s (.program4 ch f) ch opProg4 f) ∧
    (∀ s : State, s.frameHeld opResetTile = false → RejectedIn s (.resetTile ch f) ch opResetTile f) ∧
    Rejected (.suspend ch f) ch opSuspend f ∧
    (∀ s : State, s.readsOn ch (frameFields (frameOf opResume f)).die = false → RejectedIn s (.resume ch f) ch opResume f) ∧
    Rejected (.dieStatus ch f) ch opStatus f ∧ Rejected (.temp ch f) ch opTemp f ∧ Rejected (.readId ch f) ch opReadId f ∧
    Rejected (.calibrate ch f) ch opCalibrate f ∧ Rejected (.train ch f data) ch opTrain f ∧ Rejected (.resetDie ch f) ch opResetDie f)

/-- How array operations end (R193, R198, R202, R204): a read fills the plane's buffer with what its thresholds make of the cells, a
SOFT-READ with samples, a program that verifies stores its line and a reset that verifies erases the tile's lines, and no other
cell changes. No work of a die reset waits to be repeated on the die (R209). -/
def Obligations.MediaArrayEnds : Prop :=
  ∀ (s : State) (ch : Fin 32) (die : Fin 16) (p : Fin 4), s.power ≠ pwDark → (s.die ch die).again = [] →
  let x := (s.die ch die).plane p
  let fills := fun (r : ArrayResult) (v : BitVec 9728) => Runs (.dieArrayDone ch die p r) s (fun t =>
    ((t.die ch die).plane p).buf = v ∧ ((t.die ch die).plane p).bufValid = true ∧
    (x.susp = none → ((t.die ch die).plane p).run = none) ∧ t.store = s.store)
  (∀ tile l thr dev, x.run = some (.read1 tile l thr) →
    fills (.read dev) (BitVec.ofNat 9728 (read1Line (s.mediaCell (mpaOf ch die p tile l)) thr dev).toNat)) ∧
  (∀ tile l thr dev, x.run = some (.read4 tile l thr) →
    fills (.read dev) (BitVec.ofNat 9728 (read4Line (s.mediaCell (mpaOf ch die p tile l)) thr dev).toNat)) ∧
  (∀ tile l q dev, x.run = some (.soft false tile l q) →
    fills (.samples dev) (softLine (s.mediaCell (mpaOf ch die p tile l)) (decide (s.haloTiles ≤ tile)) q dev)) ∧
  (∀ tile l data, x.run = some (.prog1 tile l data) → Runs (.dieArrayDone ch die p (.verify true)) s (fun t =>
    t.cell (mpaOf ch die p tile l) = data ∧ (∀ m, m ≠ mpaOf ch die p tile l → t.cell m = s.cell m) ∧
    ((t.die ch die).plane p).fail = false ∧ (x.susp = none → ((t.die ch die).plane p).run = x.queued))) ∧
  (∀ tile, x.run = some (.reset tile) → Runs (.dieArrayDone ch die p (.verify true)) s (fun t =>
    (∀ l, l < 256 → t.cell (mpaOf ch die p tile l) = erased) ∧
    (∀ m, (∀ l, l < 256 → m ≠ mpaOf ch die p tile l) → t.cell m = s.cell m)))

/-- What dies do apart from frames and how the N16 cares for them: temperatures (R201), the reset pin (R195), attention (R203),
standby (R212), an overdue die, which is waited for while its other planes work and then reset (R208), retraining (R211), and
MEDn_CTL (R213). Attention fetches the reads that ended (R203). -/
def Obligations.MediaCare : Prop :=
  (∀ (s : State) (ch : Fin 32) (d : Fin 16) (v : BitVec 12), s.power ≠ pwDark →
    exec (.dieTempConversion ch d (some v)) s = .next (s.setDie ch d { s.die ch d with
      temp := v
      tempValid := true })) ∧
  (∀ (s : State) (ch : Fin 32), s.power ≠ pwDark → Runs (.mediaResetPin ch) s (fun t =>
    ∀ d, d < 16 → t.die ch d = (s.die ch d).cleared)) ∧
  (∀ (s : State) (ch : Fin 32) (d : Fin 16), s.lit = true → (s.die ch d).attention = true →
    (∀ p, p < 4 → ((s.die ch d).plane p).fail = false) → Runs (.attention ch d) s (fun t =>
    (t.die ch d).attention = false ∧
    (∀ p o, p < 4 → ((s.die ch d).plane p).done = true → ((s.die ch d).plane p).last = some o → o.suspendable = false →
      .die ch d ((s.die ch d).plane p).out ∈ t.out) ∧ (2 ≤ (s.die ch d).err → (s.die ch d).err < 8 → t.get (F.MED_ERR_CODE ch) = (s.die ch d).err))) ∧
  (∀ (s : State) (ch : Fin 32) (d : Fin 16), s.power = pwDim → s.isAwake (8 + ch) = false → s.strictReached = false →
    (s.die ch d).active = false →
    Runs (.dieStandby ch d) s (fun t => t.die ch d = { s.die ch d with standby := true })) ∧
  (∀ (s : State) (ch : Fin 32) (d : Fin 16) (b : Bool), s.lit = true → s.chanOut ch = false →
    s.wear.diesOut.contains (dieIdx ch d) = false →
    ((s.die ch d).overdue = false → exec (.dieOverdue ch d true b) s =
      .next (((s.sat (F.MED_TIMEOUT_COUNT ch) 1).put (F.MED_TIMEOUT_DIE ch) d).bus ch 22)) ∧
    ((s.die ch d).overdue = false → 2 ≤ (s.die ch d).waiting → Runs (.dieOverdue ch d false b) s (fun t =>
      (t.die ch d).overdue = true ∧ t.store = s.store ∧ ∀ p high, t.planeFree ch d p high = false)) ∧
    ((s.die ch d).overdue = true → Runs (.dieOverdue ch d b true) s (fun t =>
      (t.die ch d).overdue = false ∧ (t.die ch d).attention = false))) ∧
  (∀ (s : State) (ch : Fin 32) (d : Fin 16) (eye sweep : BitVec 6), s.lit = true → s.chanOut ch = false →
    s.trainDue ch = true → s.trainNext ch = some d.val → (s.die ch d).overdue = false →
    (s.minEye ch ≤ eye.toNat → exec (.periodicRetrain ch d eye sweep) s =
      .next ((((s.wake [8 + ch]).noteTrain ch d eye.toNat).trained ch d).stepPhase ch d)) ∧
    (eye.toNat < s.minEye ch → s.minEye ch ≤ sweep.toNat → exec (.periodicRetrain ch d eye sweep) s =
      .next ((((s.wake [8 + ch]).noteTrain ch d sweep.toNat).trained ch d).sweepPhase ch d))) ∧
  (∀ (s : State) (p : Path) (ch : Fin 32) (v : Word), s.touch.mayWrite p (R.MED_CTL ch) = true →
    ((F.MED_CTL_CNT_CLR ch).on v = true → (F.MED_CTL_DIE_RST ch).on v = false → (F.MED_CTL_RETRAIN ch).on v = false →
      Runs (.medCntClr p ch v) s (fun t => t.rd (R.MED_ERR ch) = 0 ∧ t.rd (R.MED_TIMEOUT ch) = 0 ∧ t.rd64 (R.MED_BUSY_LO ch) = 0)) ∧
    ((F.MED_CTL_DIE_RST ch).on v = true → (F.MED_CTL_CNT_CLR ch).on v = false → (F.MED_CTL_RETRAIN ch).on v = false →
      s.power ≠ pwDark → (s.die ch (s.get (F.MED_DIE_SEL_DIE ch))).active = false →
      Runs (.medDieRst p ch v) s (fun t => t.die ch (s.get (F.MED_DIE_SEL_DIE ch)) =
        { (s.die ch (s.get (F.MED_DIE_SEL_DIE ch))).cleared with ownReset := true })) ∧
    ((F.MED_CTL_RETRAIN ch).on v = true → (F.MED_CTL_CNT_CLR ch).on v = false → (F.MED_CTL_DIE_RST ch).on v = false →
      s.lit = true → s.chanOut ch = false → Runs (.medRetrain p ch v) s (fun t => t = s.touch.retrainAll ch ∧
        t.get (F.MED_STAT_STATE ch) = 4 ∧ mapGet? t.wear.retrainDue ch =
          some ((List.range 16).filter (fun d => !s.wear.diesOut.contains (dieIdx ch d))))))

/-- A read from a host (R46, R51, R53, R61): one that does not resolve, or that a containment meets, is answered at once with poison
and reaches nothing; one that resolves is an access that waits for admission, at the DPA and under the key ID of R46. -/
def Obligations.HostReads : Prop :=
  ∀ (s : State) (n : Fin 8) (hpa : BitVec 52), s.portServes n = true → s.queueFull n = false →
  (s.portContained n = true → Runs (.cxlMemRead n hpa) s (fun t =>
    t.out = .readData n s.adm.nextId 0 true :: s.out ∧ t.accesses = s.accesses ∧ dataKept s t)) ∧
  (∀ reason dpa, s.portContained n = false → s.resolve n hpa.toNat = .bad reason dpa → reason < 8 → reason ≠ 6 →
    Runs (.cxlMemRead n hpa) s (fun t =>
      t.out = .readData n s.adm.nextId 0 true :: s.out ∧ t.accesses = s.accesses ∧ t.get (F.HP_ERR_INFO_REASON n) = reason)) ∧
  (∀ k r d key dpa, s.portContained n = false → s.resolve n hpa.toNat = .ok k r d key dpa → s.mediaLost = false →
    Runs (.cxlMemRead n hpa) s (fun t => t.sent = s.sent ∧ dataKept s t ∧ ∃ a, t.accesses = s.accesses ++ [a] ∧ a.id = s.adm.nextId ∧
      a.port = n ∧ a.write = false ∧ a.dpa = dpa / 64 * 64 ∧ a.region = r ∧ a.key = BitVec.ofNat 14 key ∧ a.stage = .waiting))

/-- A write from a host (R34, R46, R53, R90): one that does not resolve is completed unstored; one that resolves waits for admission
with its bytes; a carry check that does not match at the lane discards it and raises the halt with cause 8 at CP2. -/
def Obligations.HostWrites : Prop :=
  ∀ (s : State) (n : Fin 8) (hpa : BitVec 52) (data : HostLine) (be : BitVec 64) (lane : HostLine), s.portServes n = true →
  s.queueFull n = false → s.portContained n = false →
  (∀ reason dpa, s.resolve n hpa.toNat = .bad reason dpa → Runs (.cxlMemWrite n hpa data be lane) s (fun t =>
    t.out = .writeDone n s.adm.nextId false :: s.out ∧ t.accesses = s.accesses ∧ t.store = s.store)) ∧
  (∀ k r d key dpa, s.resolve n hpa.toNat = .ok k r d key dpa → s.mediaLost = false →
    let got := mergeBytes 64 0 data be.toNat
    (carryCheck (got ^^^ lane) = carryCheck got → Runs (.cxlMemWrite n hpa data be lane) s (fun t => t.sent = s.sent ∧ dataKept s t ∧
      ∃ a, t.accesses = s.accesses ++ [a] ∧ a.port = n ∧ a.write = true ∧ a.dpa = dpa / 64 * 64 ∧ a.data = got ∧ a.be = be ∧
        a.key = BitVec.ofNat 14 key ∧ a.stage = .waiting)) ∧
    (carryCheck (got ^^^ lane) ≠ carryCheck got → s.key.halt = false → Runs (.cxlMemWrite n hpa data be lane) s (fun t =>
      t.accesses = s.accesses ∧ t.sent = s.sent ∧ t.key.halt = true ∧ t.get F.KEY_HALT_CAUSE_CAUSE = 8 ∧
      t.get F.KEY_HALT_CAUSE_CP = 2 ∧ t.store = s.store)))

/-- An access on its way (R34, R35, R37, R38, R51, R59, R86, R88 to R90, R110, R111, R113). accessAdmit sends an admitted access to
its lookups, merges a write into its line's record, and keeps one that may not pass waiting. lookupReturn answers a host read
from the vault, poisons one of another key's line, raises cause 8 at CP4, reads an unmapped line as zeros and sends the read of
a bulk line to the media. mediaLineReceived and reconstructionReady answer the read with the decoded line; an undecodable one
goes on to reconstruction or deep recovery. deepRecoveryDone places the line it recovers, or a poisoned one, and raises cause 6
on a wrong MAC. vaultWriteDone places a write's line and completes it. dmrResolve places the merged line and ends the record. A
read that reaches its bound, 2.5 µs or 40 µs after its trigger by its region's class, leaves poisoned and is counted, and its
access is gone; before the bound nothing happens (R38, R39, R106). -/
def Obligations.AccessFlowAndBound : Prop :=
  ((∀ (s : State) (id : Nat) (lane : HostLine) (a : Access), s.access id = some a →
    let b := { a with
      order := s.adm.nextOrder
      material := s.newMaterial a
      stage := .lookup }
    (s.admits a = true → a.write = false → a.device = false → Runs (.accessAdmit ⟨id, lane⟩) s (fun t =>
      t.access id = some b ∧ t.sent = s.sent ∧ t.store = s.store)) ∧
    (s.admits a = true → a.write = true → a.own = .host → s.service ≠ svReadOnly → s.aloneOn a = false →
      Runs (.accessAdmit ⟨id, lane⟩) s (fun t => t.access id = some b ∧ t.sent = s.sent)) ∧
    (s.admits a = true → a.write = true → a.own = .host → s.service ≠ svReadOnly → s.aloneOn a = true → s.joins a (s.newMaterial a) = true →
      Runs (.accessAdmit ⟨id, lane⟩) s (fun t => t.writeLeft a true ∧
        ∃ r, s.dmrOf (lineOf a.dpa) = some r ∧ t.dmrOf (lineOf a.dpa) = some (r.merge b))) ∧
    (s.admits a = true → a.write = true → a.own = .host → s.service = svReadOnly → a.amo = none →
      Runs (.accessAdmit ⟨id, lane⟩) s (fun t => t.writeLeft a false ∧ t.store.vault = s.store.vault)) ∧
    (s.admits a = false → a.write = false → Runs (.accessAdmit ⟨id, lane⟩) s (fun t =>
      t.access id = some a ∧ t.sent = s.sent ∧ t.store = s.store))) ∧
  (∀ (s : State) (id : Nat) (err : LineData) (egress : HostLine) (a : Access), s.access id = some a → a.stage = .lookup → a.own = .host →
    a.write = false → s.lookupAwake = true → s.lineTurn a = true → a.poisonAll = false → s.late a = false →
    s.dmrOf (lineOf a.dpa) = none →
    let i := a.dpa / 64 % 4
    (∀ loc w, s.source (lineOf a.dpa) = .vault loc w →
      let got := hostLine (w.img.data ^^^ err) i
      let keys := s.readKeys (s.accDesc a) a.key.toNat w.img.keyTag.toNat w.img.kgen.toNat
      (carryChecks (w.img.data ^^^ err) = w.img.cc →
        (∀ k, keys = .slot (some k) → w.img.poison.getLsbD i = false → carryCheck (got ^^^ egress) = carryCheck got →
          Runs (.lookupReturn id err egress) s (fun t => t.readLeft a (got ^^^ egress) false)) ∧
        (∀ k, keys = .slot (some k) → w.img.poison.getLsbD i = true → Runs (.lookupReturn id err egress) s (fun t => t.readLeft a 0 true)) ∧
        (keys = .mismatch → Runs (.lookupReturn id err egress) s (fun t => t.readLeft a 0 true ∧
          t.rd64 (R.HP_CNT_LO a.port 7) = (s.rd64 (R.HP_CNT_LO a.port 7) + 1) % 2 ^ 64))) ∧
      (carryChecks (w.img.data ^^^ err) ≠ w.img.cc → s.key.halt = false → Runs (.lookupReturn id err egress) s (fun t =>
        t.key.halt = true ∧ t.get F.KEY_HALT_CAUSE_CAUSE = 8 ∧ t.get F.KEY_HALT_CAUSE_CP = 4 ∧ t.sent = s.sent ∧ t.store = s.store))) ∧
    (s.source (lineOf a.dpa) = .unmapped → Runs (.lookupReturn id err 0) s (fun t => t.readLeft a 0 false)) ∧
    (∀ m, s.source (lineOf a.dpa) = .bulk m → s.chanOut (mpaCh m) = false → s.unitOut (mpaCh m) (mpaDie m) (mpaPlane m) = false →
      s.sharedRead a = none → s.mustAround a m false = false → s.dieSilent m false a.forced = false →
      Runs (.lookupReturn id err egress) s (fun t => t.staged a (.media m false) ∧
        ∀ r, r ∈ t.sent → r ∈ s.sent ∨ ∃ m' thr, r = .mediaRead m' thr))) ∧
  (∀ (s : State) (id c : Nat) (err : Stored) (a : Access) (mpa : Nat) (halo : Bool), s.access id = some a → a.stage = .media mpa halo →
    a.own = .host → a.write = false → s.isAwake (8 + mpaCh mpa) = true → a.poisonAll = false → s.dieTurn a mpa = true →
    s.vaultHit (lineOf a.dpa) = none → s.chanOut (mpaCh mpa) = false → s.late a = false →
    let read := s.readFor a (!halo) (s.cell mpa ^^^ err)
    (∀ l, read = .ok l → s.dmrOf (lineOf a.dpa) = none → l.poison.getLsbD (a.dpa / 64 % 4) = false →
      Runs (.mediaLineReceived id (.decoded c err) 0) s (fun t => t.readLeft a (hostLine l.data (a.dpa / 64 % 4)) false)) ∧
    (read = .mismatch → s.dmrOf (lineOf a.dpa) = none → Runs (.mediaLineReceived id (.decoded c err) 0) s (fun t => t.readLeft a 0 true)) ∧
    (read = .macFail → s.key.halt = false → s.dmrOf (lineOf a.dpa) = none → Runs (.mediaLineReceived id (.decoded c err) 0) s (fun t =>
      t.key.halt = true ∧ t.get F.KEY_HALT_CAUSE_CAUSE = 1 ∧ t.sent = s.sent)) ∧
    (halo = true ∨ (a.spec = false ∧ dPatient a.desc = true) → Runs (.mediaLineReceived id .undecodable 0) s (fun t =>
      t.staged a (.deep mpa) ∧ t.adm.deep.any (fun p => p.1 == lineOf a.dpa) = true)) ∧
    (halo = false → a.spec = true ∨ dPatient a.desc = false → Runs (.mediaLineReceived id .undecodable 0) s (fun t =>
      t.staged a (.recon mpa) ∧ t.adm.deep.any (fun p => p.1 == lineOf a.dpa) = true))) ∧
  (∀ (s : State) (id : Nat) (c : List (Fin 16 × Nat)) (err : Stored) (a : Access) (mpa : Nat), s.access id = some a →
    a.stage = .recon mpa → a.own = .host → a.write = false → a.poisonAll = false → s.vaultHit (lineOf a.dpa) = none → s.late a = false →
    (∀ l, s.readFor a true (s.reconstruct mpa ^^^ err) = .ok l → s.reconBlocked mpa = false → s.dmrOf (lineOf a.dpa) = none →
      l.poison.getLsbD (a.dpa / 64 % 4) = false → Runs (.reconstructionReady id (.decoded c err) 0) s (fun t =>
        t.readLeft a (hostLine l.data (a.dpa / 64 % 4)) false ∧
        (a.around = false → (s.vaultRoom (lineOf a.dpa)).isSome = true → t.inVault (lineOf a.dpa) l))) ∧
    (a.around = false → Runs (.reconstructionReady id .undecodable 0) s (fun t => t.staged a (.deep mpa)))) ∧
  (∀ (s : State) (line : LineNo) (region m c : Nat) (err : Stored), s.adm.deep.find? (fun p => p.1 == line.toNat) = some (line.toNat, region) →
    s.source line.toNat = .bulk m → s.chanOut (mpaCh m) = false → s.unitOut (mpaCh m) (mpaDie m) (mpaPlane m) = false → s.dmrOf line.toNat = none →
    let read := s.readStored (s.liveDesc region) (metaTag (storedMeta (s.cell m ^^^ err))) line.toNat true (s.cell m ^^^ err)
    ((s.vaultRoom line.toNat).isSome = true → (∀ l, read = .ok l → Runs (.deepRecoveryDone line (.decoded c err)) s (fun t =>
        t.inVault line.toNat l ∧ t.adm.deep.any (fun p => p.1 == line.toNat) = false)) ∧
      (∀ img, s.lostLine region line.toNat = some img → Runs (.deepRecoveryDone line .undecodable) s (fun t =>
        img.poison = 0xF ∧ t.inVault line.toNat img ∧ t.adm.deep.any (fun p => p.1 == line.toNat) = false))) ∧
    (read = .macFail → s.key.halt = false → Runs (.deepRecoveryDone line (.decoded c err)) s (fun t =>
      t.key.halt = true ∧ t.get F.KEY_HALT_CAUSE_CAUSE = 6 ∧ t.store.vault = s.store.vault))) ∧
  (∀ (s : State) (id : Nat) (a : Access) (img : LineImg), s.access id = some a → a.stage = .forming img → a.own = .host →
    (s.vaultRoom (lineOf a.dpa)).isSome = true →
    (s.reflKind (s.accDesc a) a.region (lineOf a.dpa) = .here → Runs (.vaultWriteDone id) s (fun t =>
      t.writeLeft a true ∧ t.inVault (lineOf a.dpa) img)) ∧
    (s.reflKind (s.accDesc a) a.region (lineOf a.dpa) = .reflect → Runs (.vaultWriteDone id) s (fun t =>
      t.inVault (lineOf a.dpa) img ∧ ∃ seq, t.staged a (.reflecting seq)))) ∧
  (∀ (s : State) (r : MediaResult) (d : DmrRec) (rest : List DmrRec) (loc : Nat) (w : VaultWay) (img : LineImg),
    s.key.dmr = d :: rest → s.source d.line = .vault loc w → s.lit = true → s.halted = false → 0 < s.adm.power →
    s.readDdr (s.liveDesc d.region) d.key.toNat w.img = .ok w.img → s.mergeRec d (some w.img) = some img →
    Runs (.dmrResolve r) s (fun t => t.inVault d.line img ∧ t.dmrOf d.line = none))) ∧
  ((∀ (s : State) (id : Nat) (a : Access), s.access id = some a → a.write = false → a.stage ≠ .waiting → a.own = .host →
    a.bound ≤ s.now - a.born → Runs (.readBoundExpiry id) s (fun t => .readData a.port id 0 true ∈ t.out ∧ t.access id = none ∧ t.store = s.store ∧
      t.rd64 R.QOS_BOUND_POISON_LO = (s.rd64 R.QOS_BOUND_POISON_LO + 1) % 2 ^ 64)) ∧
  (∀ (s : State) (id : Nat) (a : Access), s.access id = some a → s.now - a.born < (if dPatient a.desc then 8000 else 500) →
    exec (.readBoundExpiry id) s = .next s))

/-- Links and holds of a host port (R40, R41, R66, R67, R68): a trained link shows its rate, capped, and its width; a conventional
reset takes the link down and with it the decoders; a function-level reset notes itself and drops no decoder; the port leaves
its hold when no condition holds it; RST_STAT reads LAST. -/
def Obligations.PortLinks : Prop :=
  (∀ (s : State) (n : Fin 8) (rate : BitVec 3) (width : BitVec 5) (lo : Bool), (s.port n).linkUp = false →
    s.flag (F.HP_STATUS_DQ_HOLD n) = false → s.dqReasons n = [] → rate.toNat ≤ 5 → s.widthOk n width.toNat = true → s.halted = false →
    Runs (.hostLinkUp n rate width lo) s (fun t => (t.port n).linkUp = true ∧
      t.get (F.HP_LINK_STAT_RATE n) = min rate.toNat (2 + s.get (F.HP_LINK_CFG_MAX_RATE n)) ∧
      t.get (F.HP_LINK_STAT_WIDTH n) = width.toNat ∧ ∀ i, i ≠ n.val → t.port i = s.port i)) ∧
  (∀ (s : State) (n : Fin 8), s.seq.off = 0 → Runs (.conventionalReset n) s (fun t =>
    (t.port n).linkUp = false ∧ (t.port n).decs = [] ∧ (t.port n).resetting = true ∧ t.store = s.store ∧ t.key = s.key ∧
    ∀ i, i ≠ n.val → t.port i = s.port i)) ∧
  (∀ (s : State) (n : Fin 8), (s.port n).linkUp = true → Runs (.functionLevelReset n) s (fun t =>
    (t.port n).linkUp = true ∧ (t.port n).decs = (s.port n).decs ∧ t.accesses = s.accesses ∧
    ((s.port n).rstSeen = 0 → t.get (F.HP_RST_STAT_LAST n) = 2))) ∧
  (∀ (s : State) (n : Fin 8), (State.setPort s n { s.port n with resetting := false }).dqReasons n = [] →
    Runs (.portLeaveDetectQuiet n) s (fun t => t.get (F.HP_STATUS_DQ_HOLD n) = 0 ∧ t.get (F.HP_STATUS_DQ_REASON n) = 0 ∧
      (t.port n).resetting = false)) ∧
  (∀ (s : State) (p : Path) (n : Fin 8), s.touch.mayRead p (R.HP_RST_STAT n) = true → Runs (.rstStatRead p n) s (fun t =>
    t.out = .regData p (s.rd (R.HP_RST_STAT n)) :: s.out ∧
    (s.get (F.HP_RST_STAT_LAST n) = 3 → t.get (F.HP_RST_STAT_LAST n) = 0)))

/-- What a port's host and the links' standards do to a port (R32, R44, R45, R58, R61 to R63, R66, R68, R54): decoders, viral, IDE,
CDAT, GPF, counters, PORT_EN and DC regions. -/
def Obligations.PortEvents : Prop :=
  (∀ (s : State) (n : Fin 8) (k : Fin 16) (base size : BitVec 52) (ways gran : Nat) (dpa : Dpa), (s.port n).linkUp = true →
    let d : Decoder := ⟨base.toNat, size.toNat, ways, gran, dpa.toNat, s.get (F.HP_DEC_EXT_KIDW n k)⟩
    (s.decoderOk n k d = true → Runs (.hdmDecoderCommit n k base size ways gran dpa) s (fun t =>
      mapGet? (t.port n).decs k = some d ∧ mapGet? (t.port n).commitErr k = none)) ∧
    (s.decoderOk n k d = false → Runs (.hdmDecoderCommit n k base size ways gran dpa) s (fun t =>
      mapGet? (t.port n).decs k = none ∧ mapGet? (t.port n).commitErr k = some true))) ∧
  (∀ (s : State) (n : Fin 8) (k : Fin 16), (s.port n).linkUp = true → Runs (.hdmDecoderUncommit n k) s (fun t =>
    mapGet? (t.port n).decs k = none ∧ ∀ j, j ≠ k.val → mapGet? (t.port n).decs j = mapGet? (s.port n).decs j)) ∧
  (∀ (s : State) (n : Fin 8), (s.port n).linkUp = true → Runs (.viralReceived n) s (fun t =>
    t.flag (F.HP_STATUS_VIRAL_IN n) = true ∧ t.portContained n = true ∧ dataKept s t)) ∧
  (∀ (s : State) (n : Fin 8), (s.port n).linkUp = true → s.flag (F.HP_IDE_STAT_SECURE n) = true → Runs (.ideIntegrityFailure n) s (fun t =>
    t.flag (F.HP_IDE_STAT_SECURE n) = false ∧ t.flag (F.HP_IDE_STAT_FAIL n) = true ∧ t.out = .uncorrectable n :: s.out ∧
    t.portContained n = true)) ∧
  (∀ (s : State) (n : Fin 8) (b : Bool), (s.port n).linkUp = true → Runs (.ideKm n b) s (fun t =>
    t.flag (F.HP_IDE_STAT_SECURE n) = true ∧ (t.port n).ideBad = false)) ∧
  (∀ (s : State) (n : Fin 8), (s.port n).linkUp = true → Runs (.cdatRead n) s (fun t => dataKept s t ∧ t.out = .cdat n
    (none :: ((List.range 8).filter (fun j => s.flag (F.HP_DC_CFG_EN n j))).map some) 1300 1595 (s.get (F.HP_LINK_STAT_RATE n))
    (s.get (F.HP_LINK_STAT_WIDTH n)) :: s.out)) ∧
  (∀ (s : State) (n : Fin 8), (s.port n).linkUp = true →
    Runs (.gpfPhase1 n) s (fun t => t.get (F.HP_GPF_STAT_P1 n) = 1 ∧ t.out = .gpfDone n 1 :: s.out ∧ dataKept s t) ∧
    Runs (.gpfPhase2 n) s (fun t => t.get (F.HP_GPF_STAT_P2 n) = 1 ∧ t.out = .gpfDone n 2 :: s.out ∧ dataKept s t)) ∧
  (∀ (s : State) (p : Path) (n : Fin 8) (v : Word), s.touch.mayWrite p (R.HP_CTRL n) = true → (∀ m, p ≠ .host m) →
    (F.HP_CTRL_CNT_CLR n).on v = false →
    (let u := (s.touch.put (F.HP_CTRL_PORT_EN n) ((F.HP_CTRL_PORT_EN n).of v)).updatePorts;
      exec (.portEnWrite p n v) s = .next (u.holdUnit (uPort n) (!u.flag (F.HP_CTRL_PORT_EN n)))) ∧
    (s.flag (F.HP_CTRL_PORT_EN n) = true → (F.HP_CTRL_PORT_EN n).on v = false → (s.port n).linkUp = true →
      Runs (.portEnWrite p n v) s (fun t => t.flag (F.HP_CTRL_PORT_EN n) = false ∧ (t.port n).linkUp = false ∧
        t.flag (F.HP_STATUS_DQ_HOLD n) = true))) ∧
  (∀ (s : State) (n : Fin 8) (v : Word), s.touch.mayWrite (.host n) (R.HP_CTRL n) = true → (F.HP_CTRL_CNT_CLR n).on v = true →
    Runs (.hpCntClr (.host n) n v) s (fun t => (∀ i, i < 16 → t.rd64 (R.HP_CNT_LO n i) = 0) ∧ dataKept s t ∧
      t.port n = { s.port n with replayFrom := (s.port n).replayFrom.map (fun _ => s.now) } ∧ ∀ i, i ≠ n.val → t.port i = s.port i)) ∧
  (∀ (s : State) (n j : Fin 8) (v : Word), s.touch.mayWrite .cc (R.HP_DC_CFG n j) = true → s.flag (F.HP_DC_CFG_EN n j) = false →
    (F.HP_DC_CFG_EN n j).on v = true →
    State.dcClash (s.touch.put (F.HP_DC_CFG_BASE n j) ((F.HP_DC_CFG_BASE n j).of v)) n j = false → Runs (.dcRegionEnable .cc n j v) s (fun t => t.flag (F.HP_DC_CFG_EN n j) = true ∧
      t.get (F.HP_DC_CFG_BASE n j) = (F.HP_DC_CFG_BASE n j).of v ∧ (t.port n).dcAccepted = (s.port n).dcAccepted))

/-- The mailbox (R54 to R57, R60, R64, R65, R185): with its link up and no command in progress a port's mailbox answers each command
with its return code, counts it and wakes the control cores. That a part of an extent may be released, and what the Set commands
carry, are the model's choices (log 84). A release of dynamic capacity completes once nothing of it drains (R55). -/
def Obligations.PortMailboxCommands : Prop :=
  (∀ (s : State) (n : Fin 8), s.mboxFree n = true →
  (∀ q : MboxReq, (q.opcode.toNat ∉ mailboxOpcodes → Runs (.unsupportedMailboxCommand n q) s (fun t =>
      t.out = .mbox n q.opcode.toNat mbUnsupported [] :: s.out ∧ dataKept s t)) ∧
    (∀ len f, mboxSet q.opcode.toNat = some (len, f) → Runs (.unsupportedMailboxCommand n q) s (fun t =>
      let p := if q.input.length = len then f q.input (s.port n) else s.port n
      t.out = .mbox n q.opcode.toNat (if q.input.length = len then mbSuccess else mbPayload) [] :: s.out ∧ dataKept s t ∧
      (t.port n).respLimit = p.respLimit ∧ (t.port n).intPolicy = p.intPolicy ∧ (t.port n).alerts = p.alerts ∧
      (t.port n).dirty = p.dirty)) ∧
    (∀ l, mboxSet q.opcode.toNat = none → s.mboxPlain n q.opcode.toNat = some l → q.input = [] →
      Runs (.unsupportedMailboxCommand n q) s (fun t => t.out = .mbox n q.opcode.toNat mbSuccess l :: s.out ∧ dataKept s t))) ∧
  Runs (.getDcExtentList n) s (fun t => t.out = .mbox n 0x4801 mbSuccess (pairList (s.port n).dcAccepted) :: s.out ∧ dataKept s t) ∧
  (∀ v, v % 2 ^ 24 = 0 → v ≤ s.capacity → Runs (.setPartitionInfo n v) s (fun t => (t.port n).partNext = some v ∧ t.out = .mbox n 0x4101 mbSuccess [] :: s.out)) ∧
  (∀ off data, off + data.length ≤ 262144 → Runs (.setLsa n off data) s (fun t => t.out = .mbox n 0x4103 mbSuccess [] :: s.out ∧
    ∀ i, i < data.length → some (mapGet (fun _ => 0) (t.port n).lsa (off + i)) = data[i]?)) ∧
  (∀ off len, off + len ≤ 262144 → Runs (.getLsa n off len) s (fun t => dataKept s t ∧ t.out =
    .mbox n 0x4102 mbSuccess ((List.range len).map (fun i => (mapGet (fun _ => 0) (s.port n).lsa (off + i) : Byte).toNat)) :: s.out)) ∧
  Runs (.getPoisonList n) s (fun t => t.out = .mbox n 0x4300 mbSuccess (s.poisonPayload n) :: s.out ∧ dataKept s t) ∧
  (∀ (dpa : Dpa) r k m old, s.poisonTarget n dpa.toNat = some r → s.poisonBase r (lineOf dpa.toNat) = some (k, m, old) →
    (s.vaultRoom (lineOf dpa.toNat)).isSome = true →
    Runs (.injectPoison n dpa) s (fun t => .mbox n 0x4301 mbSuccess [] ∈ t.out ∧ t.dmrOf (lineOf dpa.toNat) = none ∧
      ∃ img, t.inVault (lineOf dpa.toNat) img ∧ hostLine img.data (dpa.toNat / 64 % 4) = 0 ∧ img.poison =
        (mergeLine k m s.integ (lineOf dpa.toNat) old 0 0).poison ||| BitVec.ofNat 4 (2 ^ (dpa.toNat / 64 % 4))) ∧
    ∀ data, Runs (.clearPoison n dpa data) s (fun t =>
      .mbox n 0x4302 mbSuccess [] ∈ t.out ∧ t.dmrOf (lineOf dpa.toNat) = none ∧ ∃ img, t.inVault (lineOf dpa.toNat) img ∧
        img.poison.getLsbD (dpa.toNat / 64 % 4) = false ∧ hostLine img.data (dpa.toNat / 64 % 4) = data)) ∧
  Runs (.getHealthInfo n) s (fun t => t.out = .mbox n 0x4200 mbSuccess [s.get F.MED_HEALTH_LIFE_USED,
    if s.get F.MED_HEALTH_WARN ≥ 2 then 1 else 0, if s.get F.MED_HEALTH_WARN = 3 then 1 else 0] :: s.out ∧ dataKept s t) ∧
  (∀ exts, exts.all (fun e => s.dcOffered n e.1 e.2) = true → extentsApart exts = true →
    (s.port n).dcAccepted.length + exts.length ≤ 512 → Runs (.addDynamicCapacityResponse n exts) s (fun t =>
      (t.port n).dcAccepted = (s.port n).dcAccepted ++ exts ∧ t.out = .mbox n 0x4802 mbSuccess [] :: s.out)) ∧
  (∀ a len, 0 < len → rangeCovered (s.port n).dcAccepted a len = true → (rangesMinus (s.port n).dcAccepted a len).length ≤ 512 →
    Runs (.releaseDynamicCapacity n a len) s (fun t =>
    (t.port n).dcAccepted = rangesMinus (s.port n).dcAccepted a len ∧ (t.port n).mbox = some (a, len, false) ∧
    t.get (F.HP_MBOX_STAT_BUSY n) = 1 ∧ t.get (F.HP_MBOX_STAT_OPCODE n) = 0x4803)) ∧
  (∀ log count, Runs (.clearEventRecords n log count) s (fun t => t.out = .mbox n 0x0101 mbSuccess [] :: s.out ∧
    (log = .info → (t.port n).info.recs = (s.port n).info.recs.drop count) ∧
    (log = .fatal → (t.port n).fatal.recs = (s.port n).fatal.recs.drop count)))) ∧
  (∀ (s : State) (n : Fin 8) (a len : Nat), (s.port n).mbox = some (a, len, false) → s.rangeBusy n a len = false →
    Runs (.dcReleaseComplete n) s (fun t => (t.port n).mbox = none ∧ t.get (F.HP_MBOX_STAT_BUSY n) = 0 ∧
      t.out = .mbox n 0x4803 mbSuccess [] :: s.out))

/-- KEKs (R74): LOAD takes the KEK data, which reads 0 afterwards, and ERASE forgets a KEK; no other KEK and no key slot changes.
Imports and unloads of key slots (R75 to R77): GO starts an import; its end shows the first code of R76 that applies, and only
code 0 installs keys; UNLOAD refuses slot 0 and a slot that a descriptor names, and else empties the slot. An import never
installs a blob whose format, slot, KEK or checks are wrong, and never the same key twice (R76). -/
def Obligations.KeksAndKeyImports : Prop :=
  (∀ (s : State) (p : Path) (v : Word), s.touch.mayWrite p R.KEY_KEK_CTL = true → s.halted = false →
  let i := F.KEY_KEK_CTL_INDEX.of v
  (F.KEY_KEK_CTL_LOAD.on v = true → F.KEY_KEK_CTL_ERASE.on v = false → Runs (.kekLoad p v) s (fun t =>
    mapGet? t.key.keks i = some s.kekData ∧ (∀ j, j ≠ i → mapGet? t.key.keks j = mapGet? s.key.keks j) ∧
    (∀ j, j < 8 → t.rd (R.KEY_KEK_DATA j) = 0) ∧ t.key.slots = s.key.slots)) ∧
  (F.KEY_KEK_CTL_ERASE.on v = true → F.KEY_KEK_CTL_LOAD.on v = false → Runs (.kekErase p v) s (fun t =>
    mapGet? t.key.keks i = none ∧ (∀ j, j ≠ i → mapGet? t.key.keks j = mapGet? s.key.keks j) ∧ t.key.slots = s.key.slots))) ∧
  ((∀ (s : State) (p : Path) (v : Word) (blob : BitVec 1024), s.touch.mayWrite p R.KEY_LOAD_CTL = true →
    s.flag F.KEY_LOAD_STAT_BUSY = false → F.KEY_LOAD_CTL_GO.on v = true → F.KEY_LOAD_CTL_UNLOAD.on v = false → s.halted = false →
    s.trust ≠ trVendor → Runs (.keyImport p v blob) s (fun t => t.get F.KEY_LOAD_STAT_BUSY = 1 ∧ t.key.slots = s.key.slots ∧
      ∃ r, t.key.importRun = some r ∧ r.blob = blob)) ∧
  (∀ (s : State) (b : Bool) (r : ImportRun), s.key.importRun = some r → Runs (.keyImportDone b) s (fun t =>
    t.key.importRun = none ∧ t.get F.KEY_LOAD_STAT_BUSY = 0 ∧
    (∀ code, s.importCheck r b = (code, none) → code < 16 → t.key.slots = s.key.slots ∧ t.get F.KEY_LOAD_STAT_CODE = code) ∧
    (∀ k, s.importCheck r b = (0, some k) → r.shadow = false → t.slot (blobSlot r.blob) = some k ∧
      t.get F.KEY_LOAD_STAT_CODE = 0 ∧ ∀ j, j ≠ blobSlot r.blob → t.slot j = s.slot j))) ∧
  (∀ (s : State) (p : Path) (v : Word), s.touch.mayWrite p R.KEY_LOAD_CTL = true → s.flag F.KEY_LOAD_STAT_BUSY = false →
    F.KEY_LOAD_CTL_UNLOAD.on v = true → F.KEY_LOAD_CTL_GO.on v = false →
    let sel := s.get F.KEY_SLOT_QUERY_SEL
    ((sel = 0 ∨ s.slotNamed sel = true) → Runs (.keyUnload p v) s (fun t => t.key.slots = s.key.slots ∧
      t.get F.KEY_LOAD_STAT_CODE = 0xA)) ∧
    (sel ≠ 0 → s.slotNamed sel = false → Runs (.keyUnload p v) s (fun t => t.slot sel = none ∧
      t.get F.KEY_LOAD_STAT_CODE = 0 ∧ ∀ j, j ≠ sel → t.slot j = s.slot j)))) ∧
  (∀ (s : State) (r : ImportRun) (b : Bool) (code : Nat) (k : KeySlot), s.importCheck r b = (code, some k) →
    code = 0 ∧ b = true ∧ r.inArea = true ∧ s.halted = false ∧ s.trust ≠ trVendor ∧ blobByte r.blob 0 = 1 ∧ blobSlot r.blob ≠ 0 ∧
    k.k1 ≠ k.k2 ∧ k.kgen = blobKgen r.blob ∧ (∃ kek, mapGet? s.key.keks (blobKek r.blob) = some kek ∧ blobKeys kek r.blob = some k) ∧
    (r.shadow = false → s.slotLocked (blobSlot r.blob) = false))

/-- The terminator (R99, R103, R104). TRM_ARM arms; TRM_START shows why a START is refused, or runs; TRM_PAUSE pauses.
TRM_LINE_REWRITE ends the re-key at the end of its region, passes over an empty tile, places a vault line under the new key as
one step, and raises cause 4 on a wrong MAC. TRM_STATUS_READ returns the done bits and clears them. -/
def Obligations.Terminator : Prop :=
  (∀ (s : State) (p : Path) (k : Fin 4) (v : Word), s.touch.mayWrite p (R.TRM_CTL k) = true →
    let t := s.touch.plainWrite p (R.TRM_CTL k) v
    ((F.TRM_CTL_START k).on v = false → t.trmBusy k = false → (F.TRM_CTL_MODE k).on v = true →
      Runs (.trmArm p k v) s (fun u => u.get (F.TRM_STAT_STATE k) = 1 ∧ u.get (F.TRM_STAT_CODE k) = 0 ∧ dataKept s u)) ∧
    ((F.TRM_CTL_START k).on v = true → t.trmCheck k ≠ 0 → t.trmBusy k = false → Runs (.trmStart p k v) s (fun u =>
      u.get (F.TRM_STAT_STATE k) = 7 ∧ u.get (F.TRM_STAT_CODE k) = t.trmCheck k ∧ dataKept s u)) ∧
    ((F.TRM_CTL_START k).on v = true → t.trmCheck k = 0 → t.trmRunState k = 2 → Runs (.trmStart p k v) s (fun u =>
      u.get (F.TRM_STAT_STATE k) = 2 ∧ u.get (F.TRM_STAT_CODE k) = 0 ∧ u.trmRegion k = some (t.get (F.TRM_CTL_REGION k)) ∧
      u.store = s.store)) ∧
    ((F.TRM_CTL_START k).on v = false → t.trmBusy k = true → t.get (F.TRM_STAT_STATE k) = 2 → t.trmRunState k = 3 →
      Runs (.trmPause p k v) s (fun u => u.get (F.TRM_STAT_STATE k) = 3 ∧ u.store = s.store ∧ u.key.slots = s.key.slots))) ∧
  (∀ (s : State) (k : Fin 4) (r : MediaResult) (reg : Nat), s.trmRegion k = some reg → s.get (F.TRM_STAT_STATE k) = 2 →
    s.halted = false → s.lit = true →
    let d := s.liveDesc reg
    let line := dBase d * 65536 + dTrmBound d
    (dSize d * 65536 ≤ dTrmBound d → Runs (.trmLineRewrite k r) s (fun t => t.get (F.TRM_STAT_STATE k) = 6 ∧
      t.get (F.TRM_STAT_DONE_EVT k) = 1 ∧ t.trmRegion k = none)) ∧
    (dTrmBound d < dSize d * 65536 → s.tileEmpty (tileOfLine line) = true →
      exec (.trmLineRewrite k r) s = .next (s.setTrmBound reg k ((dTrmBound d / 256 + 1) * 256))) ∧
    (∀ keys, dTrmBound d < dSize d * 65536 → s.tileEmpty (tileOfLine line) = false → s.lineBusy line = false → s.trmAdmits d = true →
      s.trmPaced k = true →
      (s.vaultRoom line).isSome = true → s.trmNewKeys d k = some keys →
      (∀ loc w, s.source line = .vault loc w → carryChecks w.img.data = w.img.cc →
        s.readDdr d ((trmUser d).key w.img.keyTag.toNat) w.img = .ok w.img → trmDone d w.img = false → s.dmrOf line = none →
        Runs (.trmLineRewrite k r) s (fun t => ∃ img, t.inVault line img ∧ img.data = w.img.data ∧ img.poison = w.img.poison ∧
          img.keyTag = BitVec.ofNat 14 (dTrmKey (s.desc reg)) ∧ img.kgen = keys.kgen)) ∧
      (((s.source line).mpa.isSome && s.budgetBroken (dClass d)) = false → s.key.halt = false →
        (((((s.trmTokens d).mark (310 + k)).mark 314).wake (s.accessDomains line)).trmImage reg line r).2 = .macFail → Runs (.trmLineRewrite k r) s (fun t =>
          t.key.halt = true ∧ t.get F.KEY_HALT_CAUSE_CAUSE = 4 ∧ t.store.vault = s.store.vault)))) ∧
  (∀ (s : State) (p : Path), s.touch.mayRead p R.TRM_STATUS = true → Runs (.trmStatusRead p) s (fun t =>
    t.out = .regData p s.trmStatus :: s.out ∧ t.rd R.TRM_STATUS = 0))

/-- Performance counters (R117, R120, R126): a running counter at its top wraps and sets its overflow bit; PMC_EVT selects the event
and clears the counter; CLEAR clears all; a read of PMC_LO latches the high bits for its path. The admission controller's
buckets and metering (R121, R122, R124, R126, R445): a lowered burst cuts the level; WAITMAX is cleared by its read; an epoch
ends when its boundary is due, its sweep begins and ends; tiles are charged in Lit and Dim only. -/
def Obligations.CountersAdmissionAndMetering : Prop :=
  ((∀ (s : State) (i : Fin 512), s.pmcRuns i = true → (s.pmcAt i).count = BitVec.allOnes 48 → s.flag F.PMC_CTL_OVF_IRQ = false →
    Runs (.pmcOverflow i) s (fun t => (t.pmcAt i).count = 0 ∧ (t.rd (R.PMC_OVF (i / 32))).getLsbD (i % 32) = true ∧
      ∀ j, j ≠ i.val → t.pmcAt j = s.pmcAt j)) ∧
  (∀ (s : State) (p : Path) (v : Word), s.touch.mayWrite p R.PMC_EVT = true → Runs (.pmcEvtWrite p v) s (fun t =>
    (t.pmcAt s.pmcSel).evt.toNat = F.PMC_EVT_EVT.of v ∧ (t.pmcAt s.pmcSel).count = 0 ∧
    (t.rd (R.PMC_OVF (s.pmcSel / 32))).getLsbD (s.pmcSel % 32) = false ∧ ∀ j, j ≠ s.pmcSel → t.pmcAt j = s.pmcAt j)) ∧
  (∀ (s : State) (p : Path) (v : Word), s.touch.mayWrite p R.PMC_CTL = true → F.PMC_CTL_CLEAR.on v = true →
    Runs (.pmcClear p v) s (fun t => (∀ i, (t.pmcAt i).count = 0) ∧ ∀ j, j < 16 → t.rd (R.PMC_OVF j) = 0)) ∧
  (∀ (s : State) (p : Path) (i : Fin 512), s.touch.mayRead p (R.PMC_LO i) = true → Runs (.pmcLoRead p i) s (fun t =>
    t.out = .regData p ((s.pmcAt i).count.setWidth 32) :: s.out ∧ (t.path p).pmcHi = (s.pmcAt i).count.toNat / 2 ^ 32 ∧ t.regs = s.regs))) ∧
  ((∀ (s : State) (p : Path) (c : Fin 8) (v : Word), s.touch.mayWrite p (R.QOS_C_RATE c) = true →
    let t := s.touch.plainWrite p (R.QOS_C_RATE c) v
    Runs (.qosRateWrite p c v) s (fun u => u.regs = t.regs ∧ u.clsLevel c = min (s.clsLevel c) (t.clsCap c) ∧
      ∀ j, j ≠ c.val → u.clsLevel j = s.clsLevel j)) ∧
  (∀ (s : State) (p : Path) (c : Fin 8) (v : Word), s.touch.mayWrite p (R.QOS_C_MRATE c) = true →
    let t := s.touch.plainWrite p (R.QOS_C_MRATE c) v
    Runs (.qosMrateWrite p c v) s (fun u => u.regs = t.regs ∧ u.mreadLevel c = min (s.mreadLevel c) (t.mreadCap c) ∧
      ∀ j, j ≠ c.val → u.mreadLevel j = s.mreadLevel j)) ∧
  (∀ (s : State) (p : Path) (c : Fin 8), s.touch.mayRead p (R.QOS_C_WAITMAX c) = true → Runs (.qosWaitmaxRead p c) s (fun t =>
    t.out = .regData p (s.rd (R.QOS_C_WAITMAX c)) :: s.out ∧ t.get (F.QOS_C_WAITMAX_longest c) = 0)) ∧
  (∀ s : State, s.boundaryAt ≤ s.aonTick.toNat → s.lit = true → s.flag F.MET_STAT_SWEEP = false → Runs .epochBoundary s (fun t =>
    t.rgn.epoch = s.rgn.epoch + 1 ∧ t.get F.MET_STAT_BUF = s.rgn.epoch % 2 ∧ t.get F.MET_STAT_SWEEP = 1 ∧ t.store = s.store)) ∧
  (∀ s : State, s.boundaryAt ≤ s.aonTick.toNat → s.lit = false → Runs .epochBoundary s (fun t => t.rgn.epoch = s.rgn.epoch + 1 ∧
    t.rgn.skipLast = some s.rgn.epoch ∧ t.rgn.met = s.rgn.met ∧ t.regs = s.regs)) ∧
  (∀ s : State, s.flag F.MET_STAT_SWEEP = true → s.rgn.sweepPending = 0 → Runs .meteringSweepDone s (fun t =>
    t.get F.MET_STAT_SWEEP = 0 ∧ t.rgn.met = s.rgn.met)) ∧
  (∀ s : State, s.lit = true → s.passed 330 6250000 = true → exec .occupancyTick s = .next ((s.rgn.descs.foldl (fun t p =>
    if dValid p.2 then t.meter p.1 p.2 .tileTicks (s.tilesHeld p.2) else t) s).mark 330)) ∧
  (∀ s : State, s.passed 330 6250000 = false → exec .occupancyTick s = .next s))

/-- Drains (R134, R135): a dirty line whose carry check holds, whose keys and slot are there and whose turn it is, is programmed
into its Halo slot, encoded under its key; a carry check that does not match raises the halt at CP4. When the program ends well
the line is in the Halo and its way is empty if nothing wrote it since; when it fails the slot is BAD. -/
def Obligations.VaultDrains : Prop :=
  (∀ (s : State) (line : LineNo) (err : LineData) (loc : Nat) (w : VaultWay), s.vaultHit line.toNat = some (loc, w) →
    w.dirty = true → State.backgroundRuns { s with store.drainRun := s.drainByOcc } = true → s.store.drainAll = true →
    s.store.drains.any (fun d => d.loc == loc) = false →
    (carryChecks (w.img.data ^^^ err) ≠ w.img.cc → s.key.halt = false → Runs (.drainLine line err) s (fun t =>
      t.key.halt = true ∧ t.get F.KEY_HALT_CAUSE_CAUSE = 8 ∧ t.get F.KEY_HALT_CAUSE_CP = 4 ∧ t.store.cells = s.store.cells ∧
      t.store.drains = s.store.drains)) ∧
    (∀ k slot, carryChecks (w.img.data ^^^ err) = w.img.cc → s.drainKeys w = some k → s.bucketDead line.toNat = false →
      State.drainSlot { s with store.drainRun := s.drainByOcc } line.toNat = some slot →
      State.drainTurn { s with store.drainRun := s.drainByOcc } loc w = true →
      s.planeFree (mpaCh (slotMpa slot)) (mpaDie (slotMpa slot)) (mpaPlane (slotMpa slot)) false = true → Runs (.drainLine line err) s (fun t =>
        t.store.drains = s.store.drains ++ [⟨slot, loc, w, encodeStored k 1 line.toNat { w.img with data := w.img.data ^^^ err }⟩] ∧
        t.store.cells = s.store.cells ∧ t.store.vault = s.store.vault))) ∧
  (∀ (s : State) (slot : Nat) (d : DrainRec), s.store.drains.find? (fun d => d.slot == slot) = some d → s.seq.off = 0 →
    s.seq.hosts = false → s.seq.drain = false → s.planeHeld (mpaCh (slotMpa slot)) (mpaDie (slotMpa slot)) (mpaPlane (slotMpa slot)) = false →
    (Runs (.drainProgramDone slot true) s (fun t => t.cell (slotMpa slot) = d.stored ∧
      (∀ m, m ≠ slotMpa slot → t.cell m = s.cell m) ∧ t.store.drains.all (fun q => q.slot != slot) = true ∧
      (mapGet? s.store.vault d.loc = some d.way → mapGet? t.store.vault d.loc = none))) ∧
    (Runs (.drainProgramDone slot false) s (fun t => t.rd R.HALO_PROG_FAIL =
      BitVec.ofNat 32 (min ((s.rd R.HALO_PROG_FAIL).toNat + 1) (2 ^ 32 - 1)) ∧ t.store.vault = s.store.vault ∧
      ∀ m, m ≠ slotMpa slot → t.cell m = s.cell m)))

/-- Folds (R145 to R148, R173). FOLD_START begins a fold of a tile for the reason that holds, REFRESH_FOLD one that refresh asks
for. FOLD_TIMEOUT begins one again that has run 1 s. FOLD_COMMIT maps the tile at the new position and ends the fold; it takes a
position when the fold has none; while HALT is up it commits nothing. Groups (R143, R149, R178, R180). GROUP_CLOSE closes an
open group that is full or has waited CLOSE_MS, once its parity is programmed; where that program fails the parity's position
retires and the group stays open; GROUP_RESET starts a reset only while free groups are short and the planes are free;
GROUP_RESET_DONE ends it with the next generation, and at 100,000 the group is retired. -/
def Obligations.FoldsAndGroups : Prop :=
  ((∀ (s : State) (tile : BitVec 28) (why : FoldWhy), s.gcUpdate.backgroundRuns = true → tile.toNat < s.get F.MAP_USER_TILES_user →
    s.gcUpdate.foldReason tile.toNat = some why →
    s.foldBlocked tile.toNat ((List.range 256).map (fun i => s.foldSource tile.toNat i (s.hasDead tile.toNat))) = false →
    let begun := fun (t : State) => (t.tileEnt tile.toNat).folding = true ∧
      ∃ f, f ∈ t.store.folds ∧ f.tile = tile.toNat ∧ f.why = why ∧ f.entry = s.tileEnt tile.toNat ∧ f.began = s.now
    Runs (.foldStart tile) s begun ∧ (why = .refresh → Runs (.refreshFold tile) s begun)) ∧
  (∀ (s : State) (tile : BitVec 28) (f : FoldRec), s.store.folds.find? (fun f => f.tile == tile.toNat) = some f →
    (f.began + oneSecond ≤ s.now → (s.dropFold f).backgroundRuns = true → ((s.dropFold f).tileEnt tile.toNat).mapped = true →
      (s.dropFold f).foldBlocked tile.toNat ((List.range 256).map (fun i =>
        (s.dropFold f).foldSource tile.toNat i ((s.dropFold f).hasDead tile.toNat))) = false →
      Runs (.foldTimeout tile) s (fun t => (t.tileEnt tile.toNat).folding = true ∧
        ∃ g, g ∈ t.store.folds ∧ g.tile = tile.toNat ∧ g.why = f.why ∧ g.began = s.now)) ∧
    (∀ ok src, s.halted = true → exec (.foldCommit tile ok src) s = .next s) ∧
    (∀ lines pos (src : FoldReads), s.halted = false → s.lit = true → s.store.imageRun = none → s.deltaRoom 3 = true → s.posHeld pos = false →
      s.foldLines f (s.foldLost f (src.lost.map (·.val))) = some lines → f.pos = some pos → s.foldStale f = false →
      f.tile = tile.toNat →
      Runs (.foldCommit tile true src) s (fun t => (t.tileEnt tile.toNat).mapped = true ∧ (t.tileEnt tile.toNat).pos = pos ∧
        (t.tileEnt tile.toNat).folding = false ∧ t.store.folds.all (fun q => q.tile != tile.toNat) = true)))) ∧
  ((∀ (s : State) (ch : Fin 32) (pl : CloseEnd) (o : OpenGroup), mapGet? s.store.opened (pl.plane * 32 + ch) = some o → s.backgroundRuns = true →
    s.deltaRoom 3 = true → s.closeDue o = true → o.placed ≠ [] → s.foldInto o.group = false →
    ((s.tileOut o.group (s.closeParity o) = true ∨ (pl.ok = true ∧ s.posFree (groupPos s.haloTiles o.group (s.closeParity o)) = true)) →
      Runs (.groupClose ch pl) s (fun t => mapGet? t.store.opened (pl.plane * 32 + ch) = none ∧
        (t.groupState o.group = .closed ∨ t.groupState o.group = .reclaimable))) ∧
    (s.tileOut o.group (s.closeParity o) = false → pl.ok = false → s.posFree (groupPos s.haloTiles o.group (s.closeParity o)) = true →
      posGroup s.haloTiles (groupPos s.haloTiles o.group (s.closeParity o)) = o.group →
      posDie (groupPos s.haloTiles o.group (s.closeParity o)) = s.closeParity o →
      Runs (.groupClose ch pl) s (fun t => t.store.opened = s.store.opened ∧ t.store.cells = s.store.cells ∧
        (t.group o.group).retired = (s.group o.group).retired ||| bit16 (s.closeParity o)))) ∧
  (∀ (s : State) (g : Nat), (∀ d ∈ s.resetDies g, s.planeFree (groupCh g) d (groupPlane g) true = true) →
    s.backgroundRuns = true → s.groupState g = .reclaimable → s.store.fmt.isSome = true →
    s.chanOut (groupCh g) = false → g < s.groupsPer * 128 →
    s.freeOn (groupCh g) + s.resettingOn (groupCh g) < s.get F.FOLD_GC_CFG_FREE_TARGET →
    Runs (.groupReset g) s (fun t => t.groupState g = .resetting ∧ t.store.cells = s.store.cells)) ∧
  (∀ (s : State) (g : Nat), s.groupState g = .resetting → s.deltaRoom 17 = true → s.wear.retireNext = [] →
    (∀ d, d < 16 → s.planeHeld (groupCh g) d (groupPlane g) = false) →
    ((s.group g).gen + 1 < 100000 → Runs (.groupResetDone g 0) s (fun t => (t.group g).gen = (s.group g).gen + 1 ∧
      (t.group g).live = 0 ∧ (t.group g).dead = 0 ∧ (t.group g).retired = (s.group g).retired)) ∧
    (100000 ≤ (s.group g).gen + 1 → Runs (.groupResetDone g 0) s (fun t => t.groupState g = .retired ∧
      (t.group g).gen = (s.group g).gen + 1))))

/-- Checkpoints, the format, the band and the image (R152, R155, R158, R160): a due checkpoint goes to the copy that is not the
newest and holds the map and descriptors as they stand; its end discards the log before it; a format is refused with its code or
begins with an empty store; an image ends with its sequence number and event once its trailer reads back, and not before. -/
def Obligations.CheckpointsAndImages : Prop :=
  (∀ s : State, s.lit = true → s.halted = false → s.formatted = true → s.store.imageRun = none → s.store.ckptRun = none →
    s.ckptDue = true → Runs .checkpointStart s (fun t => t.get F.MAP_CKPT_STAT_BUSY = 1 ∧ ∃ c, t.store.ckptRun = some c ∧ c.map = s.store.map ∧
      c.logPos = s.store.deltaBase + s.store.delta.length ∧ c.descs = s.rgn.descs.map (fun p => (p.1, mirrorDesc p.2)))) ∧
  (∀ (s : State) (c : Checkpoint), s.store.ckptRun = some c → Runs .checkpointDone s (fun t =>
    (t.store.ckptA = some c ∨ t.store.ckptB = some c) ∧ t.store.ckptRun = none ∧ t.get F.MAP_CKPT_STAT_BUSY = 0 ∧
    t.store.delta = s.store.delta.drop (c.logPos - s.store.deltaBase) ∧ t.store.deltaBase = c.logPos ∧ t.store.map = s.store.map)) ∧
  (∀ (s : State) (p : Path) (v : Word), s.touch.mayWrite p R.MAP_FMT_CTL = true → F.MAP_FMT_CTL_GO.on v = true →
    (F.MAP_FMT_CTL_KEY.of v ≠ 0x464D → Runs (.mediaFormat p v) s (fun t => t.get F.MAP_FMT_CTL_CODE = 1 ∧ dataKept s t)) ∧
    (F.MAP_FMT_CTL_KEY.of v = 0x464D → s.rgn.descs.any (fun q => dValid q.2) = true →
      Runs (.mediaFormat p v) s (fun t => t.get F.MAP_FMT_CTL_CODE = 2 ∧ dataKept s t)) ∧
    (F.MAP_FMT_CTL_KEY.of v = 0x464D → s.rgn.descs.any (fun q => dValid q.2) = false → s.store.fmtRun = false → s.halted = false →
      Runs (.mediaFormat p v) s (fun t => t.store.fmtRun = true ∧ t.store.fmt = none ∧ t.store.vault = [] ∧
        t.get F.MAP_CFG_VAULT_GIB = s.get F.MAP_CFG_NEXT_VAULT_GIB))) ∧
  (∀ s : State, s.store.fmtRun = true → Runs .mediaFormatDone s (fun t => t.store.fmtRun = false ∧ t.store.fmt.isSome = true ∧
    t.get F.MAP_STAT_FMT = 1 ∧ t.get F.MAP_STAT_ARMED = 1)) ∧
  (∀ s : State, s.flag F.MAP_STAT_ARMED = false → s.lit = true → s.formatted = true → Runs .bandArmed s (fun t =>
    t.get F.MAP_STAT_ARMED = 1 ∧ (s.flag F.MAP_STAT_BAND = true → t.store.bandA = none) ∧
    (s.flag F.MAP_STAT_BAND = false → t.store.bandB = none))) ∧
  (∀ (s : State) (clean : Bool), s.store.imageRun = some clean → s.diesBusy = false → s.seq.zeroDue = false → s.seq.off = 0 → s.seq.cold = none →
    Runs (.imageComplete true) s (fun t => t.store.imageRun = none ∧ t.get F.MAP_ECL_STAT_COMPLETE = 1 ∧ t.get F.MAP_ECL_STAT_RUN = 0 ∧
      t.get F.MAP_ECL_US_duration = s.usSince 99 % 2 ^ F.MAP_ECL_US_duration.len ∧ t.store.imageSeq = (s.makeImage clean).seq ∧ t.store.map = s.store.map)) ∧
  (∀ s : State, exec (.imageComplete false) s = .next s)

/-- The drift clock, temperatures and scrub (R162, R170, R171, R176, R190): DRIFT_CLOCK_TICK advances the clock by 1, and
DRIFT_RECORD_STORE stores its record; a reading of DIE_TEMP_POLL replaces the last, and from the third miss in a row the last
stays and the pass that runs is in class 6; SCRUB_PASS_START begins with nothing read, as the catch-up pass when the start left
one due; SCRUB_DEADLINE shows and posts a deadline that has passed. Epochs, recalibration, scrub reads and evacuations (R163,
R164, R168, R169, R171, R172, R182): EPOCH_SWEEP acts as R163 gives on each entry; RECALIBRATION renews the program time of each
ladder step whose age has come and of no other, and moves the 1-bit entry, while its step is young, a quarter of the way toward
the valleys; a SCRUB_READ of a line that the pass has not read counts it, and after the last line the pass ends; EVACUATION_DONE
retires a unit with nothing live on it. -/
def Obligations.DriftAndWearCare : Prop :=
  ((∀ s : State, exec .driftClockTick s = .next (s.wr R.MED_DRIFT_CLK (s.rd R.MED_DRIFT_CLK + 1))) ∧
  (∀ s : State, exec .driftRecordStore s = .next (s.storeRecord 2 (leBytes 8 s.drift))) ∧
  (∀ (s : State) (ch : Fin 32) (d : Fin 16) (x : Option (BitVec 12)), (s.die ch d).overdue = true → exec (.dieTempPoll ch d x) s = .next s) ∧
  (∀ (s : State) (ch : Fin 32) (d : Fin 16) (t : BitVec 12), (s.die ch d).overdue = false → Runs (.dieTempPoll ch d (some t)) s (fun u =>
    u.dieTemp ch d = t.toNat ∧ u.dieMiss ch d = 0 ∧ ∀ i, i ≠ dieIdx ch d → mapGet? u.wear.temps i = mapGet? s.wear.temps i)) ∧
  (∀ (s : State) (ch : Fin 32) (d : Fin 16), (s.die ch d).overdue = false → 2 ≤ s.dieMiss ch d → Runs (.dieTempPoll ch d none) s (fun u =>
    3 ≤ u.dieMiss ch d ∧ u.dieTemp ch d = s.dieTemp ch d ∧ ∀ q, mapGet? u.wear.scrub ch = some q → u.classNow ch q = 6)) ∧
  (∀ (s : State) (ch : Fin 32), mapGet? s.wear.scrub ch = none → s.scrubRuns ch (s.wear.catchDue.contains ch.val) = true →
    Runs (.scrubPassStart ch) s (fun t => t.get (F.MED_SCRUB_STAT_PROGRESS ch) = 0 ∧ t.wear.catchDue.contains ch.val = false ∧
      mapGet? t.wear.scrub ch = some ⟨s.drift, [], s.chanClass ch, s.wear.catchDue.contains ch.val⟩)) ∧
  (∀ (s : State) (ch : Fin 32), s.deadlinePassed ch = true → Runs (.scrubDeadline ch) s (fun t =>
    t.get (F.MED_SCRUB_STAT_MISSED ch) = 1 ∧ t.wear = s.wear ∧ t.store = s.store))) ∧
  ((∀ s : State, s.lit = true → s.formatted = true → s.store.imageRun = none → exec .epochSweep s = .next (s.store.map.foldl (fun s q =>
    match sweepEnt s.drift q.2 with
    | some e => (s.setTile q.1 e).logDelta (.mapSet q.1 e)
    | none => s) s)) ∧
  (∀ (d : Nat) (e : MapEnt), e.mapped = true → 512 * epochUnit (epochScale e.epoch) ≤ ageOf d e.epoch →
    (epochScale e.epoch = 3 → e.lowMargin = false → sweepEnt d e = some { e with lowMargin := true }) ∧
    (epochScale e.epoch ≠ 3 → sweepEnt d e = some { e with epoch := epochOf (epochScale e.epoch + 1) (d - ageOf d e.epoch) })) ∧
  (∀ (s : State) (ch : Fin 32) (die : Fin 16) (x : List (List (List (List (BitVec 14))))) (y : List (List (List (BitVec 14)))),
    s.lit = true → s.halted = false → s.chanOut ch = false → 0 < s.adm.power → (s.die ch die).overdue = false →
    (∀ p, p < 4 → s.planeFree ch die p false = true) → Runs (.recalibration ch die x y) s (fun t => t.store = s.store ∧
      (∀ j, j ≤ 12 → t.ladderAt (dieIdx ch die) j =
        if stepAge j ≤ s.drift - s.ladderAt (dieIdx ch die) j then s.drift else s.ladderAt (dieIdx ch die) j) ∧
      (s.drift - s.ladderAt (dieIdx ch die) 12 < stepAge 12 → y ≠ [] →
        mapGet? t.wear.levels (levelKey (dieIdx ch die) (256 + tempBin (s.dieTemp ch die))) =
          some ((s.level (levelKey (dieIdx ch die) (256 + tempBin (s.dieTemp ch die)))).update (codes y))))) ∧
  (∀ (s : State) (ch : Fin 32) (pos : Nat) (r : MediaResult) (q : ScrubSt), mapGet? s.wear.scrub ch = some q →
    s.scrubRuns ch q.catchUp = true →
    ((s.scrubSet ch).all q.seen.contains = true → Runs (.scrubRead ch pos r) s (fun t => mapGet? t.wear.scrub ch = none ∧
      mapGet? t.wear.lastPass ch = some q.began ∧ t.get (F.MED_SCRUB_STAT_PROGRESS ch) = 100 ∧ t.store = s.store)) ∧
    (∀ line halo m, (s.scrubSet ch).contains pos = true → (s.scrubSet ch).contains m = true → m ≠ pos → q.seen.contains pos = false →
      q.seen.contains m = false → s.ownerLine pos = some (line, halo) → s.readsWait (tileOfLine line) = false → q.catchUp = false →
      s.dieSilent pos halo false = false →
      Runs (.scrubRead ch pos r) s (fun t => ∃ q', mapGet? t.wear.scrub ch = some q' ∧ q'.began = q.began ∧ q'.seen = q.seen ++ [pos]))) ∧
  (∀ (s : State) (u : EvacUnit), s.wear.evac.contains (evacUnit u) = true → s.liveOn (evacUnit u) = false → 
    Runs (.evacuationDone u) s (fun t => (2048 ≤ evacUnit u → t.wear.diesOut.contains (evacUnit u - 2048) = true) ∧
      (evacUnit u < 2048 → t.wear.planesOut.contains (evacUnit u) = true))))

/-- Clusters (R234, R237 to R239): a reset by CLUSTER_RESET takes its engines' contexts, lines and slices, but for device stores
already admitted, and leaves the slices of other clusters; CLUSTER_STOP holds its engines before their next descriptor;
CLUSTER_WAKE begins to wake it; RELEASE_WALK unmaps the next tile of the oldest released range, whose record goes with its last
tile. -/
def Obligations.ClusterControl : Prop :=
  (∀ (s : State) (p : Path) (k : Fin 4) (v : Word), s.touch.mayWrite p (R.ENG_CL_CTL k) = true → (F.ENG_CL_CTL_RST k).on v = true →
    (∀ e, (s.eng e).phase ≠ .held) → Runs (.clusterReset p k v) s (fun t =>
      (∀ e, e / 8 = k.val → (t.eng e).x = [] ∧ (t.eng e).phase = .off ∧ ∀ o ∈ (t.eng e).ops, o.left = true) ∧
      (∀ e a, e / 8 = k.val → a < 2 ^ 19 → t.padByte e a = 0) ∧
      (∀ e a, e / 8 ≠ k.val → a < 2 ^ 19 → t.padByte e a = s.padByte e a) ∧ t.clu.prog = s.clu.prog)) ∧
  (∀ (s : State) (p : Path) (k : Fin 4) (v : Word), s.touch.mayWrite p (R.ENG_CL_CTL k) = true → (F.ENG_CL_CTL_RST k).on v = false →
    (F.ENG_CL_CTL_STOP k).on v = true → (F.ENG_CL_CTL_WAKE k).on v = false → (∀ e, (s.eng e).phase ≠ .held) →
    Runs (.clusterStop p k v) s (fun t => (∀ e, e / 8 = k.val → e < 32 → t.mayTake e = false) ∧ t.clu = s.clu)) ∧
  (∀ (s : State) (p : Path) (k : Fin 4) (v : Word), s.touch.mayWrite p (R.ENG_CL_CTL k) = true → (F.ENG_CL_CTL_RST k).on v = false →
    (F.ENG_CL_CTL_WAKE k).on v = true → s.isAwake (1 + k) = false → (∀ e, (s.eng e).phase ≠ .held) →
    Runs (.clusterWake p k v) s (fun t => t.dom.waking.contains (1 + k.val) = true ∧ t.clu = s.clu)) ∧
  (∀ (s : State) (r : Nat × Nat × Nat), s.rgn.releases.find? (fun r => !s.isDraining r.1) = some r → s.walker.isSome = true →
    0 < s.adm.power → s.deltaRoom 2 = true → s.halted = false → s.service ≠ svHold → s.lit = true →
    let tile := r.2.1 + s.walkedOf r
    Runs .releaseWalk s (fun t => (t.tileEnt tile).mapped = false ∧ (∀ i, i ≠ tile → (t.tileEnt i).mapped = (s.tileEnt i).mapped) ∧
      (tile + 1 < r.2.2 → t.walkedOf r = s.walkedOf r + 1 ∧ t.rgn.releases = s.rgn.releases) ∧
      (r.2.2 ≤ tile + 1 → t.rgn.releases = s.rgn.releases.filter (· != r))))

/-- The cluster cache (R257, R262, R264 to R266): INV_ALL, INV_RANGE and LOCK_FILL check their operands, drop at once what they
invalidate and end with code 0 at MAINT_DONE, which before that installs the fill of a LOCK_FILL that has returned;
CC_LOCK_WRITE drops the lines of the ways it takes and leaves the other clusters' lines; CC_CFG_WRITE with an engine of the
cluster bound is refused. -/
def Obligations.ClusterCache : Prop :=
  (∀ (s : State) (p : Path) (v : Word) (op : Nat), op = 1 ∨ op = 2 ∨ op = 3 → s.touch.mayWrite p R.ENG_CC_MAINT_CTL = true →
    F.ENG_CC_MAINT_CTL_GO.on v = true → s.clu.maint = none → F.ENG_CC_MAINT_CTL_OP.of v = op →
    let clusters := F.ENG_CC_MAINT_CTL_CLUSTERS.of v
    let first := ((s.rd R.ENG_CC_MAINT_ADDR_LO).toNat + 2 ^ 32 * (s.rd R.ENG_CC_MAINT_ADDR_HI).toNat) / 64
    let len := s.get F.ENG_CC_MAINT_LEN_host
    let key := s.get F.ENG_CC_MAINT_KEY_key
    let c := if op = 1 then Instr.invAll p v else if op = 2 then .invRange p v else .lockFill p v
    ((s.maintCheck op clusters first len key).1 = 0 → Runs c s (fun t => t.get F.ENG_CC_MAINT_STAT_BUSY = 1 ∧
      t.get F.ENG_CC_MAINT_STAT_CODE = 0 ∧ t.clu.maint = some ⟨op, clusters, first, len, BitVec.ofNat 14 key, (s.maintCheck op clusters first len key).2, [], 0, .none⟩ ∧
      (op ≠ 3 → mapWf s.clu.lines = true → ∀ loc l, mapGet? s.clu.lines loc = some l → clusters.testBit (loc / 65536) = true →
        (op = 1 ∨ first ≤ l.hl ∧ l.hl < first + len) → mapGet? t.clu.lines loc = none))) ∧
    ((s.maintCheck op clusters first len key).1 ≠ 0 → Runs c s (fun t => t.clu = s.clu ∧
      t.get F.ENG_CC_MAINT_STAT_CODE = (s.maintCheck op clusters first len key).1))) ∧
  (∀ (s : State) (m : MaintRun) (h err : HostLine) (loc : Nat), s.clu.maint = some m → m.op = 3 → m.next < 4 * m.len →
    m.hand = .back (.data h false) → carryCheck (h ^^^ err) = carryCheck h → s.flag (F.ENG_CC_CFG_BYPASS m.cluster) = false →
    m.changed.contains (m.line / 4) = false → s.lockSlot m.cluster m.line = some loc → Runs (.maintDone err) s (fun t =>
      mapGet? t.clu.lines loc = some ⟨m.line, m.key, h ^^^ err⟩ ∧ dataKept s t ∧ t.clu.maint = some { m with
        next := m.next + 1
        hand := .none })) ∧
  (∀ (s : State) (lost : HostLine) (m : MaintRun), s.clu.maint = some m → s.maintWaits m = false → Runs (.maintDone lost) s (fun t =>
    t.clu.maint = none ∧ t.get F.ENG_CC_MAINT_STAT_BUSY = 0 ∧ t.get F.ENG_CC_MAINT_STAT_CODE = 0 ∧
    (m.op ≠ 3 → mapWf s.clu.lines = true → ∀ loc l, mapGet? t.clu.lines loc = some l → m.clusters.testBit (loc / 65536) = true →
      m.covers l.hl = false))) ∧
  (∀ (s : State) (p : Path) (k : Fin 4) (v : Word), s.touch.mayWrite p (R.ENG_CC_LOCK k) = true → Runs (.ccLockWrite p k v) s (fun t =>
    (t.rd (R.ENG_CC_LOCK k)).toNat = v.toNat % 2 ^ (16 - s.spWays k) ∧
    (∀ loc, loc / 65536 = k.val → v.toNat % 2 ^ (16 - s.spWays k) / 2 ^ (loc % 16) % 2 = 1 →
      (s.rd (R.ENG_CC_LOCK k)).getLsbD (loc % 16) = false → mapGet? t.clu.lines loc = none) ∧
    (∀ loc, loc / 65536 ≠ k.val → mapGet? t.clu.lines loc = mapGet? s.clu.lines loc))) ∧
  (∀ (s : State) (p : Path) (k : Fin 4) (v : Word), s.touch.mayWrite p (R.ENG_CC_CFG k) = true →
    ((engsOf k).any s.engBound = true → Runs (.ccCfgWrite p k v) s (fun t => t.spWays k = s.spWays k ∧
      t.get (F.ENG_CC_STAT_CFG_REFUSED k) = 1 ∧ t.clu = s.clu)) ∧
    ((engsOf k).any s.engBound = false → Runs (.ccCfgWrite p k v) s (fun t =>
      t.spWays k = min 14 ((F.ENG_CC_CFG_SP_WAYS k).of v) ∧ t.get (F.ENG_CC_STAT_WAYS k) = 16 - t.spWays k ∧
      ∀ e a, e / 8 = k.val → a < 2 ^ 19 → t.padByte e a = 0)))

/-- Stream queues (R275, R277 to R279, R281): an ENABLE that fails shows its code and changes nothing else; one that passes empties
the queue, which waits for its grant when it transmits; DISABLE discards its items; FLUSH empties a small queue and is refused
with code 9 on a large one; DROP_REM acts within a packet; CNT_CLR clears the counters. -/
def Obligations.StreamQueueCommands : Prop :=
  (∀ (s : State) (p : Path), s.touch.mayWrite p R.STQ_Q_CMD = true →
    let n := s.stqOf p
    let q := s.queue n
    (s.stqCheck n ≠ 0 → exec (.stqEnable p) s = .next (s.touch.setQueue n { q with code := s.stqCheck n })) ∧
    (s.stqCheck n = 0 → q.kind = kindTx → Runs (.stqEnable p) s (fun t => (t.queue n).st = 2 ∧ (t.queue n).items = [] ∧
      (t.queue n).code = 0 ∧ ∀ m, m ≠ n → t.queue m = s.queue m)) ∧
    (q.on = true → q.waiting = [] → Runs (.stqDisable p) s (fun t => (t.queue n).st = 0 ∧ (t.queue n).items = [] ∧
      (t.queue n).dropped = sat32 q.dropped q.items.length ∧ ∀ m, m ≠ n → t.queue m = s.queue m)) ∧
    (q.on = true → q.large = false → Runs (.flush (.reg p)) s (fun t => (t.queue n).items = [] ∧
      (t.queue n).dropped = sat32 q.dropped q.items.length ∧ (t.queue n).st = q.st ∧ ∀ m, m ≠ n → t.queue m = s.queue m)) ∧
    (q.large = true → exec (.flush (.reg p)) s = .next (s.touch.setQueue n { q with code := 9 })) ∧
    (q.on = true → q.large = true → q.inPkt = true → exec (.dropRem (.reg p)) s = .next (State.runDrop
      (s.touch.setQueue n { q with
        code := 0
        dropping := true }) n)) ∧
    (q.large = true → q.on = false ∨ q.inPkt = false → exec (.dropRem (.reg p)) s = .next (s.touch.setQueue n { q with code := 0 })) ∧
    (q.large = false → exec (.dropRem (.reg p)) s = .next (s.touch.setQueue n { q with code := 9 }))) ∧
  (∀ (s : State) (q : Fin 4096), (s.queue q).dropping = true → (s.queue q).on = true →
    exec (.dropRemResume q) s = .next (s.runDrop q)) ∧
  (∀ (s : State) (p : Path) (v : Word), s.touch.mayWrite p R.STQ_CTL = true → F.STQ_CTL_CNT_CLR.on v = true →
    Runs (.stqCntClr p v) s (fun t => (∀ i, i < 10 → t.rd (R.STQ_NOQ + 4 * i) = 0) ∧ t.stq = s.stq))

/-- Items of stream queues (R270 to R276): STQ_ENQUEUE appends the item of an enqueue store that finds room, discards an item of
kind 0, and lets another store wait, first come first served, until ENQUEUE_UNBLOCK; a younger store of an engine is not
serialised first (R243); STQ_DEQUEUE of the last bytes of the dequeue line takes the head item; ITEM_SEND sends an item under a
credit; CREDIT_RETURN_SEND returns pending credits. -/
def Obligations.StreamItems : Prop :=
  (∀ (s : State) (q : Fin 4096) (e : Fin 32) (tag : Nat) (o : MemOp), s.opOf e tag = some o → o.dev = true → o.isStore = true →
    o.stage = .sent → o.be = BitVec.allOnes 64 → o.ea % 2 ^ 44 % 4096 / 64 = 0 →
    s.queueAt o.region (o.ea % 2 ^ 44) = some q.val → (s.queue q).kind ≠ kindRx → s.olderStore e o = false →
    (s.queue q).waiting.any (fun w => w.1 == e.val && w.2.1 == tag) = false →
    Runs (.stqEnqueue q e tag o.data) s (fun t =>
      if itemKind o.data = 0 then t.queue q = s.queue q ∧ ∃ o', t.opOf e tag = some o' ∧ o'.stage = .done false
      else if (s.queue q).takes && ((s.queue q).n4 || (s.queue q).waiting.isEmpty) then
        t.queue q = (s.queue q).push o.data ∧ ∃ o', t.opOf e tag = some o' ∧ o'.stage = .done true
      else t.queue q = { s.queue q with waiting := (s.queue q).waiting ++ [(e.val, tag, o.data)] })) ∧
  (∀ (s : State) (q : Fin 4096) (e tag : Nat) (i : HostLine) (rest : List (Nat × Nat × HostLine)),
    (s.queue q).waiting = (e, tag, i) :: rest → (s.queue q).on = true → (s.queue q).takes = true →
    Runs (.enqueueUnblock q) s (fun t => t.queue q = QueueSt.push { s.queue q with waiting := rest } i)) ∧
  (∀ (q : QueueSt) (i : HostLine), q.items.length < q.depth → (q.push i).items = q.items ++ [i] ∧ (q.push i).enq = q.enq + 1 ∧
    (q.push i).lost = q.lost) ∧
  (∀ (s : State) (q : Fin 4096) (e : Fin 32) (o : MemOp), s.opOf e o.tag = some o → s.olderStore e o = true →
    exec (.stqEnqueue q e o.tag o.data) s = .next (s.wake lookupDomains)) ∧
  (∀ (s : State) (q : Fin 4096) (e : Fin 32) (o : MemOp), s.queueAt o.region (o.ea % 2 ^ 44) = some q.val →
    (s.eng e).ops = [o] → o.dev = true → o.stage = .sent → o.ea % 4096 / 64 = 1 → o.width = some 8 → o.ea % 64 = 56 →
    (s.queue q).dropping = false → (s.queue q).kind ≠ kindTx → ∀ i rest, (s.queue q).items = i :: rest →
    Runs (.stqDequeue q e 56 8) s (fun t => (t.queue q).items = rest ∧ (t.queue q).deq = (s.queue q).deq + 1 ∧
      ∃ o', (t.eng e).ops = [o'] ∧ o'.stage = .back (.data i false))) ∧
  (∀ (s : State) (q : Fin 4096) (i : HostLine) (rest : List HostLine) (link : Nat), (s.queue q).items = i :: rest →
    s.destPort (s.queue q).dest (s.queue q).moon = some link → (s.queue q).st = 1 → (s.queue q).kind = kindTx → (s.queue q).dropping = false →
    (s.queue q).credit ≠ 0 →
    (s.queue q).credit ≠ unlimited →
    s.linkTakes (s.queue q).moon (.items (s.queue q).far q (s.queue q).epoch [i]) = true → Runs (.itemSend q) s (fun t => (t.queue q).items = rest ∧ (t.queue q).credit = (s.queue q).credit - 1)) ∧
  (∀ (s : State) (q : Fin 4096), (s.queue q).on = true → (s.queue q).kind = kindRx → (s.queue q).n4 = false → (s.queue q).credit ≠ 0 →
    s.returnDue q = true → s.sendsTo (s.queue q).moon = true → exec (.creditReturnSend q) s = .next (State.sendMsg (s.setQueue q { s.queue q with credit := 0 }) (s.queue q).moon
      (.ret (s.queue q).far q (s.queue q).epoch (s.queue q).credit)))

/-- The frames of Orbit's five channels (R282, R285 to R290): one that is not for this N16 is counted and discarded; one that is
taken in order does what its message gives, and its buffer goes back to its sender. An RWRITE or MDATA that finds no room in the
vault waits, its port paused by PFC until there is room: the model's choice (log 84). -/
def Obligations.OrbitFrames : Prop :=
  ∀ h : OrbHdr,
  (∀ role en planet gen, FrameOp (.hello h role en planet gen) h (.hello role.toNat en (planet.map (·.toNat)) gen.toNat) (fun _ => true) (fun s => s.onHello h en)) ∧
  (∀ gen, FrameOp (.candidate h gen) h (.candidate gen.toNat) (fun _ => true) (fun s => s.onCandidate h gen.toNat)) ∧
  (∀ term ok, FrameOp (.vote h term ok) h (.vote term.toNat ok) (fun _ => true) (fun s => s.onVote h term.toNat ok)) ∧
  (∀ gen sb, FrameOp (.planet h gen sb) h (.planet gen.toNat (sb.map (·.toNat))) (fun _ => true)
    (fun s => s.onPlanet h gen.toNat (sb.map (·.toNat)))) ∧
  (∀ gen grns, FrameOp (.dirNote h gen grns) h (.dirNote gen.toNat grns) (fun _ => true) (fun s => s.onDirNote gen.toNat grns)) ∧
  (∀ grns, FrameOp (.dirQuery h grns) h (.dirQuery grns) (fun _ => true) (fun s => s.onDirQuery h.src.toNat grns)) ∧
  (∀ es, FrameOp (.dirEntries h es) h (.dirEntries es) (fun _ => true) (fun s => s.onDirEntries es)) ∧
  (∀ es, FrameOp (.dirChangeRequest h es) h (.dirChange es) (fun _ => true) (fun s => s.onDirChange es)) ∧
  (∀ gen es, FrameOp (.dirCopy h gen es) h (.dirCopy gen.toNat es) (fun _ => true) (fun s => s.onDirCopy h.src.toNat gen.toNat es)) ∧
  (∀ grns, FrameOp (.dirAck h grns) h (.dirAck grns) (fun _ => true) (fun s => s.onDirAck h.src.toNat grns)) ∧
  (∀ items, FrameOp (.unitViews h items) h (.unitViews items) (fun _ => true) (fun s => s)) ∧
  (∀ u g op, FrameOp (.unitCommand h u g op) h (.unitCommand u.toNat g.toNat op.toNat) (fun _ => true) (fun s => s.unitVia (.frame h.src) u.toNat g.toNat op.toNat)) ∧
  (∀ u code, FrameOp (.unitResult h u code) h (.unitResult u.toNat code.toNat) (fun _ => true) (fun s => s)) ∧
  (∀ q r o l, FrameOp (.rwrite h q r o l) h (.rwrite q r.toNat o.toNat l)
    (fun s => s.rwriteRoom h.src.toNat r.toNat o.toNat && !s.flag (F.ORB_S_STAT_PFC_TX h.port))
    (fun s => s.onRwrite h.src.toNat q r.toNat o.toNat l)) ∧
  (∀ q r code ns, FrameOp (.rack h q r code ns) h (.rack q r.toNat code.toNat) (fun _ => true) (fun s =>
    s.onRack h.src.toNat q r.toNat code.toNat ns.toNat)) ∧
  (∀ r t un first ls, FrameOp (.mdata h r t un first ls) h (.mdata r.toNat t.toNat un first.toNat ls)
    (fun s => s.mdataRoom h.src.toNat r.toNat t.toNat first.toNat ls.length && !s.flag (F.ORB_S_STAT_PFC_TX h.port))
    (fun s => s.onMdata h.src.toNat r.toNat t.toNat un first.toNat ls)) ∧
  (∀ r t code, FrameOp (.mack h r t code) h (.mack r.toNat t.toNat code.toNat) (fun _ => true) (fun s => s.onMack r.toNat t.toNat code.toNat)) ∧
  (∀ d q e items, FrameOp (.items h d q e items) h (.items d.toNat q.toNat e.toNat items) (fun _ => true) (fun s =>
    items.foldl (fun s i => s.itemArrive h.port.val d.toNat h.src.toNat q.toNat e.toNat i) s)) ∧
  (∀ t r e v, FrameOp (.grant h t r e v) h (.grant t.toNat r.toNat e.toNat v.toNat) (fun _ => true) (fun s =>
    s.takeGrant t.toNat h.src.toNat r.toNat e.toNat v.toNat)) ∧
  (∀ t r e v, FrameOp (.returnFrame h t r e v) h (.ret t.toNat r.toNat e.toNat v.toNat) (fun _ => true) (fun s =>
    s.takeReturn t.toNat h.src.toNat r.toNat e.toNat v.toNat)) ∧
  (∀ tag r o be dev, FrameOp (.rread h tag r o be dev) h (.rread tag r.toNat o.toNat be dev.toNat) (fun _ => true) (fun s =>
    s.onRread h.src.toNat tag r.toNat o.toNat be dev.toNat)) ∧
  (∀ tag code data, FrameOp (.rdata h tag code data) h (.rdata tag code.toNat data) (fun _ => true) (fun s => s.onRdata h.src.toNat tag code.toNat data)) ∧
  (∀ tag r o be data dev, FrameOp (.rstore h tag r o be data dev) h (.rstore tag r.toNat o.toNat be data dev.toNat) (fun _ => true) (fun s =>
    s.onRstore h.src.toNat tag r.toNat o.toNat be data dev.toNat)) ∧
  (∀ tag code, FrameOp (.rstack h tag code) h (.rstack tag code.toNat) (fun _ => true) (fun s => s.onRstack h.src.toNat tag code.toNat)) ∧
  (∀ (s : State) (c : Instr) (room : Bool), (∃ q r o l, c = .rwrite h q r o l ∧ room = s.rwriteRoom h.src.toNat r.toNat o.toNat) ∨
    (∃ r t un first ls, c = .mdata h r t un first ls ∧ room = s.mdataRoom h.src.toNat r.toNat t.toNat first.toNat ls.length) →
    s.orbitRuns = true → s.linkOk h.port = true →
    (room = false → s.flag (F.ORB_S_STAT_PFC_TX h.port) = false → Runs c s (fun t => t.flag (F.ORB_S_STAT_PFC_TX h.port) = true ∧
      t.out = .pfcSent h.port true :: s.out ∧ dataKept s t ∧ t.orb = s.orb)) ∧
    (room = false → s.flag (F.ORB_S_STAT_PFC_TX h.port) = true → exec c s = .next s) ∧
    (room = true → s.flag (F.ORB_S_STAT_PFC_TX h.port) = true → exec c s = exec c (s.pausePeer h.port false)))

/-- The transport (R282, R283, R288 to R290, R309): an acknowledgement (ACK_ONLY) frees what it names and brings credits, and a NAK
sends again; ACK_ONLY_TIMER sends the next NCTR and the credits owed; a frame begins with the MAC addresses, the 802.1Q tag and
ETYPE, and ends with its FCS; RETRANSMIT_TIMEOUT sends the unacknowledged frames again, on the other port after 8 and not after
16; NCTR_WARN warns once; STREAM_LINK_UP and STREAM_LINK_DOWN move their units; FOREIGN_FRAME and PFC_FRAME are counted. -/
def Obligations.OrbitTransport : Prop :=
  (∀ (s : State) (h : OrbHdr) (c : Fin 5), s.hears h c .ackOnly → (s.peer h.src.toNat).reachable = true →
    ((s.peer h.src.toNat).chan c).waiting = [] → Runs (.ackOnly h c) s (fun t =>
    ((t.peer h.src.toNat).chan c).unacked = ((s.peer h.src.toNat).chan c).unacked.filter (fun q => decide (h.ack.toNat < q.seq)) ∧
    ((t.peer h.src.toNat).chan c).credits = ((s.peer h.src.toNat).chan c).credits + h.credit.toNat ∧
    ((t.peer h.src.toNat).chan c).rxSeq = ((s.peer h.src.toNat).chan c).rxSeq ∧ dataKept s t)) ∧
  (∀ (s : State) (h : OrbHdr) (c : Fin 5) (n : BitVec 48), s.hears h c (.nak n.toNat) → (s.peer h.src.toNat).reachable = true →
    ((s.peer h.src.toNat).chan c).waiting = [] → Runs (.nak h c n) s (fun t => ∃ u, t = State.resend u h.src.toNat c n.toNat ∧
    ((u.peer h.src.toNat).chan c).unacked = ((s.peer h.src.toNat).chan c).unacked.filter (fun q => decide (h.ack.toNat < q.seq)) ∧
    ((u.peer h.src.toNat).chan c).credits = ((s.peer h.src.toNat).chan c).credits + h.credit.toNat ∧ dataKept s u)) ∧
  (∀ (s : State) (m : Moon) (c : Fin 5) (link : Nat), s.orbitRuns = true → (s.peer m.toNat).member = true →
    ∀ k, s.slot (s.peer m.toNat).keySlot = some k → s.peerPort m.toNat = some link → (s.peer m.toNat).nctr + 2 < 2 ^ 48 →
    ((s.peer m.toNat).chan c).owed ≠ 0 → s.flag (F.ORB_S_STAT_PFC_RX link) = false → Runs (.ackOnlyTimer m c) s (fun t => (t.peer m.toNat).nctr = (s.peer m.toNat).nctr + 1 ∧
      ((t.peer m.toNat).chan c).owed = 0 ∧ t.out.head? = some (.orbFrame link m.toNat c ((s.peer m.toNat).chan c).txSeq
        ((s.peer m.toNat).chan c).rxSeq ((s.peer m.toNat).nctr + 1) (min ((s.peer m.toNat).chan c).owed 65535) (s.rd R.ORB_TERM) .ackOnly
        (s.orbWire (toBytes 32 k.k1) ⟨link, m.toNat, c, ((s.peer m.toNat).chan c).txSeq, ((s.peer m.toNat).chan c).rxSeq,
          (s.peer m.toNat).nctr + 1, min ((s.peer m.toNat).chan c).owed 65535⟩ .ackOnly)))) ∧
  (∀ (s : State) (m : Moon) (c : Fin 5), ((s.peer m.toNat).chan c).owed = 0 → exec (.ackOnlyTimer m c) s = .next s) ∧
  (∀ (s : State) (key : List Byte) (n : FrameNums) (msg : OrbMsg),
    let w := s.orbWire key n msg
    let const := s.get F.ORB_ID_CONST
    w.take 12 = [0x02, BitVec.ofNat 8 (const / 256), BitVec.ofNat 8 const, 0x00,
        BitVec.ofNat 8 ((2 * n.dst + n.link) / 256), BitVec.ofNat 8 (2 * n.dst + n.link)] ++
      [0x02, BitVec.ofNat 8 (const / 256), BitVec.ofNat 8 const, 0x00,
        BitVec.ofNat 8 ((2 * s.ownMoon + n.link) / 256), BitVec.ofNat 8 (2 * s.ownMoon + n.link)] ∧
    (w.drop 12).take 6 = [0x81, 0x00, BitVec.ofNat 8 (32 * s.get F.ORB_CFG_PCP), 0x00,
      BitVec.ofNat 8 (s.get F.ORB_CFG_ETYPE / 256), BitVec.ofNat 8 (s.get F.ORB_CFG_ETYPE)] ∧
    w.drop (w.length - 4) = toBytes 4 (crc32 (w.take (w.length - 4)))) ∧
  (∀ (s : State) (m : Moon) (c : Fin 5) (f : SentFrame), s.orbitRuns = true → ((s.peer m.toNat).chan c).unacked.head? = some f →
    f.sent + 200 * max 1 (s.get F.ORB_TIMING_RETX_US) ≤ s.now →
    (((s.peer m.toNat).chan c).resends < 16 → Runs (.retransmitTimeout m c) s (fun t =>
      ((t.peer m.toNat).chan c).resends = ((s.peer m.toNat).chan c).resends + 1 ∧
      ((t.peer m.toNat).chan c).unacked.map (fun q => (q.seq, q.msg)) = ((s.peer m.toNat).chan c).unacked.map (fun q => (q.seq, q.msg)) ∧
      (t.peer m.toNat).port = if ((s.peer m.toNat).chan c).resends = 8 then 1 - (s.peer m.toNat).port else (s.peer m.toNat).port)) ∧
    (16 ≤ ((s.peer m.toNat).chan c).resends → Runs (.retransmitTimeout m c) s (fun t => (t.peer m.toNat).reachable = false))) ∧
  (∀ (s : State) (m : Moon), 2 ^ 47 ≤ (s.peer m.toNat).nctr → (s.peer m.toNat).seqWarn = false → Runs (.nctrWarn m) s (fun t =>
    (t.peer m.toNat).seqWarn = true ∧ ∃ u, t = State.post u 0x08 0x03 m.toNat 0 ∧ u.evr = s.evr)) ∧
  (∀ (s : State) (sp : Fin 2), s.flag (F.ORB_S_STAT_UP sp) = false → s.orb.linkHeld.contains sp.val = false →
    (s.unit (uLink sp)).st ≠ ustRetired → Runs (.streamLinkUp sp) s (fun t => t.flag (F.ORB_S_STAT_UP sp) = true ∧
      (t.unit (uLink sp)).st = ustService)) ∧
  (∀ (s : State) (sp : Fin 2), s.flag (F.ORB_S_STAT_UP sp) = true → Runs (.streamLinkDown sp) s (fun t =>
    t.flag (F.ORB_S_STAT_UP sp) = false ∧ t.get (F.ORB_S_STAT_UP (1 - sp)) = s.get (F.ORB_S_STAT_UP (1 - sp)) ∧
    ((s.unit (uLink sp)).st = ustService → (t.unit (uLink sp)).st = ustBringUp))) ∧
  (∀ (s : State) (sp : Fin 2), s.linkOk sp = true → s.orbitRuns = true → exec (.foreignFrame sp) s = .next (s.satReg R.ORB_RX_FOREIGN 1)) ∧
  (∀ (s : State) (sp : Fin 2) (b : Bool), Runs (.pfcFrame sp b) s (fun t => t.flag (F.ORB_S_STAT_PFC_RX sp) = b ∧
    (b = true ∨ (∀ m c, ((s.peer m).chan c).waiting = []) →
      ∀ off, off ≠ R.ORB_S_STAT sp → off ≠ R.ORB_S_PFC_RX sp → t.rd off = s.rd off))) ∧
  (∀ (s : State) (m : Nat) (msg : OrbMsg), s.paused m msg = true → s.orbitRuns = true → (s.peer m).member = true →
    (s.slot (s.peer m).keySlot).isSome = true → let t := s.sendMsg m msg
    t.out = s.out ∧ ((t.peer m).chan msg.chan).waiting = ((s.peer m).chan msg.chan).waiting ++ [msg] ∧
    ((t.peer m).chan msg.chan).txSeq = ((s.peer m).chan msg.chan).txSeq) ∧
  (∀ (s : State) (b : Bool) (r : ImportRun) (k : KeySlot) (m : Nat), s.key.importRun = some r → s.importCheck r b = (0, some k) →
    r.shadow = false → (s.peer m).keySlot = blobSlot r.blob → mapWf s.orb.peers = true → Runs (.keyImportDone b) s (fun t =>
      (t.peer m).nctr = 0 ∧ (t.peer m).cfg = (s.peer m).cfg ∧ ∀ c, mapWf (s.peer m).chans = true → ((t.peer m).chan c).rxSeq = 0))

/-- The constellation (R292, R293): a HELLO makes its sender reachable and tells whether it may be planet; one vote a term; a
majority makes a candidate the planet; a PLANET frame of no lower term makes a moon, or the standby that it names;
PLANET_SILENCE, once FAIL_MS has passed, makes the standby stand and leaves a moon without a planet; ELECTION_TIMEOUT makes an
eligible moon stand; PLANET_STEP_DOWN ends a planet that has had no majority for FAIL_MS; HELLO_PERIOD greets every member;
PEER_UNREACHABLE takes the peer's credits. -/
def Obligations.OrbitConstellation : Prop :=
  (∀ (s : State) (h : OrbHdr) (role : BitVec 3) (en : Bool) (planet : Option Moon) (gen : BitVec 64), s.hears h 0 (.hello role.toNat en (planet.map (·.toNat)) gen.toNat) →
    s.nextSeq h 0 → Runs (.hello h role en planet gen) s (fun t => (t.peer h.src.toNat).reachable = true ∧ (t.peer h.src.toNat).planetEn = en)) ∧
  (∀ (s : State) (h : OrbHdr) (gen : BitVec 64), s.hears h 0 (.candidate gen.toNat) → s.nextSeq h 0 → s.term ≤ h.term.toNat → s.orb.votedTerm < h.term.toNat →
    s.dirgen ≤ gen.toNat → Runs (.candidate h gen) s (fun t => t.orb.votedTerm = h.term.toNat ∧ t.term = h.term.toNat ∧
      (s.term < h.term.toNat → s.role = rolePlanet ∨ s.role = roleCandidate ∨ s.role = roleStandby → t.role = roleMoon))) ∧
  (∀ (s : State) (h : OrbHdr), s.hears h 0 (.vote s.term true) → s.nextSeq h 0 → mapWf s.orb.peers = true → s.role = roleCandidate → h.term.toNat ≤ s.term →
    s.majority ((addOnce s.orb.votes h.src.toNat).length + 1) = true →
    Runs (.vote h (s.rd R.ORB_TERM) true) s (fun t => t.role = rolePlanet ∧ t.planetMoon = some s.ownMoon ∧ t.term = s.term)) ∧
  (∀ (s : State) (h : OrbHdr) (gen : BitVec 64) (sb : Option Moon), s.hears h 0 (.planet gen.toNat (sb.map (·.toNat))) → s.nextSeq h 0 →
    s.term < h.term.toNat ∨ s.term = h.term.toNat ∧ s.role ≠ rolePlanet → Runs (.planet h gen sb) s (fun t =>
      t.planetMoon = some h.src.toNat ∧ t.standbyMoon = sb.map (·.toNat) ∧ t.dirgen = gen.toNat ∧ t.term = h.term.toNat ∧
      t.role = if sb.map (·.toNat) = some s.ownMoon then roleStandby else roleMoon)) ∧
  (∀ s : State, s.orbitRuns = true → s.passed 71 s.failCycles = true → s.role = roleStandby → Runs .planetSilence s (fun t =>
    t.rd R.ORB_TERM = s.rd R.ORB_TERM + 1 ∧ (t.role = roleCandidate ∨ t.role = rolePlanet))) ∧
  (∀ s : State, s.orbitRuns = true → s.passed 71 s.failCycles = true → s.role = roleMoon → Runs .planetSilence s (fun t =>
    t.planetMoon = none ∧ t.role = roleMoon ∧ t.orb = s.orb)) ∧
  (∀ s : State, s.orbitRuns = true → s.role = roleCandidate ∧ s.passed 72 s.electCycles = true ∨
    ((s.role = roleAlone ∨ s.role = roleMoon) ∧ s.planetMoon = none ∧ s.flag F.ORB_CFG_PLANET_EN = true ∧
      s.passed 71 (s.failCycles + s.electCycles) = true) → Runs .electionTimeout s (fun t =>
      t.rd R.ORB_TERM = s.rd R.ORB_TERM + 1 ∧ (t.role = roleCandidate ∨ t.role = rolePlanet))) ∧
  (∀ s : State, s.role = rolePlanet → s.majority (s.reachableMoons.length + 1) = false → s.passed 76 s.failCycles = true →
    Runs .planetStepDown s (fun t =>
    t.role = roleAlone ∧ t.planetMoon = none ∧ t.standbyMoon = none ∧ t.orb.dirWait = [] ∧ t.orb.dir = s.orb.dir)) ∧
  (∀ s : State, s.orbitRuns = true → s.passed 70 (20000 * max 1 (s.get F.ORB_TIMING_HELLO)) = true → exec .helloPeriod s = .next (
    let t := s.memberMoons.foldl (fun s' m => s'.helloTo m (.hello s.role (s.flag F.ORB_CFG_PLANET_EN) s.planetMoon s.dirgen)) (s.mark 70)
    if t.role = rolePlanet then t.announce else t)) ∧
  (∀ (s : State) (m : Moon), (s.peer m.toNat).reachable = true → (s.peer m.toNat).lastHeard + s.failCycles ≤ s.now → Runs (.peerUnreachable m) s (fun t =>
    (t.peer m.toNat).reachable = false ∧ ∀ c, c < 5 → ((t.peer m.toNat).chan c).credits = 0))

/-- Reflection, migration, resync and the counters (R300 to R302, R304, R311): REFLECTION_TIMEOUT of a write that stays
unacknowledged breaks its region; a MIG_START that its conditions refuse changes nothing but its code, and one they allow begins
at the start of the region; MIG_PAUSE stops an engine between tiles; MIGRATION_TILE holds the next tile, which it copies where
it holds data; RACK_NS_MAX_READ clears what it reads; ORB_CNT_CLR clears the counters. -/
def Obligations.OrbitReflection : Prop :=
  (∀ (s : State) (r : RegionId) (q : Word) (w : ReflWait), w ∈ s.orb.refl → w.region = r.toNat → w.rseq = q →
    w.sent + 200 * max 1 (s.get F.ORB_REFL_CFG_TMO_US) ≤ s.now → dRole (s.desc r.toNat) = 1 → dBroken (s.desc r.toNat) = false →
    Runs (.reflectionTimeout r q) s (fun t => dBroken (t.desc r.toNat) = true ∧ (∀ i, i ≠ r.toNat → t.desc i = s.desc i) ∧
      t.orb.refl.any (fun x => x.region == r.toNat) = false)) ∧
  (∀ (s : State) (p : Path) (m : Fin 2) (v : Word), s.touch.mayWrite p (R.ORB_MIG_CTL m) = true → (F.ORB_MIG_CTL_START m).on v = true →
    s.get (F.ORB_MIG_STAT_STATE m) ≠ 1 → s.get (F.ORB_MIG_STAT_STATE m) ≠ 2 → (F.ORB_MIG_CTL_PAUSE m).on v = false →
    let r := (F.ORB_MIG_CTL_REGION m).of v
    (s.migCheck m r ((F.ORB_MIG_CTL_MODE m).of v) ≠ 0 → Runs (.migStart p m v) s (fun t =>
      t.get (F.ORB_MIG_STAT_STATE m) = 6 ∧ t.get (F.ORB_MIG_STAT_CODE m) = s.migCheck m r ((F.ORB_MIG_CTL_MODE m).of v) ∧
      t.rgn = s.rgn ∧ t.orb = s.orb)) ∧
    (s.migCheck m r ((F.ORB_MIG_CTL_MODE m).of v) = 0 → (F.ORB_MIG_CTL_MODE m).of v = 1 → Runs (.migStart p m v) s (fun t =>
      t.get (F.ORB_MIG_STAT_STATE m) = 1 ∧ t.get (F.ORB_MIG_STAT_CODE m) = 0 ∧ dOrbBound (t.desc r) = 0 ∧ t.orb = s.orb))) ∧
  (∀ (s : State) (p : Path) (m : Fin 2) (v : Word), s.touch.mayWrite p (R.ORB_MIG_CTL m) = true → (F.ORB_MIG_CTL_START m).on v = false →
    s.get (F.ORB_MIG_STAT_STATE m) = 1 → (F.ORB_MIG_CTL_PAUSE m).on v = true → Runs (.migPause p m v) s (fun t =>
      t.get (F.ORB_MIG_STAT_STATE m) = 2 ∧ t.get (F.ORB_MIG_CTL_REGION m) = s.get (F.ORB_MIG_CTL_REGION m) ∧ t.orb = s.orb)) ∧
  (∀ (s : State) (m : Fin 2) (lost : List (Fin 256)), s.get (F.ORB_MIG_STAT_STATE m) = 1 → mapGet? s.orb.hold m = none →
    s.orbitRuns = true → s.passed (74 + m.val) (migPace (s.get (F.ORB_MIG_CTL_RATE m))) = true →
    let r := s.get (F.ORB_MIG_CTL_REGION m)
    let d := s.desc r
    let tile := dBase d * 256 + dOrbBound d
    (s.peer (dPeer d)).reachable = true → s.accesses = [] → s.get (F.ORB_MIG_CTL_MODE m) = 1 → dOrbBound d < dSize d * 256 →
    (s.tileVoid tile = true → Runs (.migrationTile m lost) s (fun t => mapGet? t.orb.hold m = some ⟨tile⟩ ∧ t.store = s.store ∧
      t.key = s.key)) ∧
    (s.tileVoid tile = false → s.tileWaits r tile = false →
      (s.copyTile r tile (fun i => lost.any (fun x => x.val == i))).2.isSome = true →
      Runs (.migrationTile m lost) s (fun t => mapGet? t.orb.hold m = some ⟨tile⟩))) ∧
  (∀ (s : State) (p : Path), s.touch.mayRead p R.ORB_RACK_NS_MAX = true → Runs (.rackNsMaxRead p) s (fun t =>
    t.out = .regData p (s.rd R.ORB_RACK_NS_MAX) :: s.out ∧ t.rd R.ORB_RACK_NS_MAX = 0 ∧
    ∀ off, off ≠ R.ORB_RACK_NS_MAX → t.rd off = s.touch.rd off)) ∧
  (∀ (s : State) (p : Path) (v : Word), s.touch.mayWrite p R.ORB_CTL = true → F.ORB_CTL_CNT_CLR.on v = true →
    Runs (.orbCntClr p v) s (fun t => t.rd R.ORB_ELECT_CNT = 0 ∧ t.rd64 R.ORB_RWRITE_LO = 0 ∧ t.rd64 (R.ORB_S_TX_LO 1) = 0 ∧
      t.rd64 (R.ORB_S_RX_LO 0) = 0 ∧ t.rd R.ORB_TERM = s.rd R.ORB_TERM ∧ t.orb = s.orb))

/-- Unit commands and the audit (R24, R309, R310): a command with a stale generation has no effect and shows code 1; a port is held
and released by its PORT_EN; a retired unit takes no command; an audit leaves every view equal to its entry. -/
def Obligations.UnitCommands : Prop :=
  (∀ (s : State) (p : Path) (u : BitVec 10) (g : BitVec 16), s.mayWrite p R.ORB_UNIT_CMD = true → u.toNat < 566 → g ≠ (s.unit u.toNat).gen →
    ∀ c, c = Instr.unitHold (.reg p) u g ∨ c = .unitRelease (.reg p) u g ∨ c = .unitReset (.reg p) u g ∨ c = .unitRetire (.reg p) u g →
    Runs c s (fun t => t.get F.ORB_UNIT_STAT_CODE = 1 ∧ t.get F.ORB_UNIT_STAT_unit = u.toNat ∧ t.board.ents = s.board.ents ∧
      (mapGet (fun _ => viewInit) t.board.views u.toNat).gen = (s.unit u.toNat).gen)) ∧
  (∀ (s : State) (p : Path) (u : BitVec 10), s.mayWrite p R.ORB_UNIT_CMD = true → u.toNat < 566 → (s.unit u.toNat).st = ustRetired →
    unitKind u.toNat ≠ 1 → ∀ c, c = Instr.unitHold (.reg p) u (s.unit u.toNat).gen ∨ c = .unitRelease (.reg p) u (s.unit u.toNat).gen ∨
      c = .unitReset (.reg p) u (s.unit u.toNat).gen ∨ c = .unitRetire (.reg p) u (s.unit u.toNat).gen →
    exec c s = .next ((s.wakeCores.put F.ORB_UNIT_STAT_CODE 4).put F.ORB_UNIT_STAT_unit u.toNat)) ∧
  (∀ (s : State) (p : Path) (n : Fin 8), s.mayWrite p R.ORB_UNIT_CMD = true → (s.unit n).st = ustService →
    Runs (.unitHold (.reg p) (BitVec.ofNat 10 n) (s.unit n).gen) s (fun t => t.get (F.HP_CTRL_PORT_EN n) = 0 ∧
      (t.unit n).st = ustHeld ∧ (t.unit n).gen = (s.unit n).gen + 1 ∧ t.get F.ORB_UNIT_STAT_CODE = 0)) ∧
  (∀ (s : State) (p : Path) (n : Fin 8), s.mayWrite p R.ORB_UNIT_CMD = true → (s.unit n).st = ustHeld →
    Runs (.unitRelease (.reg p) (BitVec.ofNat 10 n) (s.unit n).gen) s (fun t => t.get (F.HP_CTRL_PORT_EN n) = 1 ∧
      (t.unit n).st = ustService ∧ t.get F.ORB_UNIT_STAT_CODE = 0)) ∧
  (∀ (s : State) (p : Path) (n : Fin 8), s.mayWrite p R.ORB_UNIT_CMD = true → (s.unit n).st = ustService → s.seq.off = 0 →
    Runs (.unitReset (.reg p) (BitVec.ofNat 10 n) (s.unit n).gen) s (fun t => (t.port n).linkUp = false ∧ (t.port n).decs = [] ∧
      (t.unit n).st = ustService ∧ t.get F.ORB_UNIT_STAT_CODE = 0)) ∧
  (∀ (s : State) (p : Path) (c : Fin 32) (d : Fin 16), s.mayWrite p R.ORB_UNIT_CMD = true → (s.unit (uDie c d)).st = ustService →
    Runs (.unitRetire (.reg p) (BitVec.ofNat 10 (uDie c d)) (s.unit (uDie c d)).gen) s (fun t => (t.unit (uDie c d)).st = ustEvac ∨
      (t.unit (uDie c d)).st = ustRetired)) ∧
  (∀ s : State, s.passed 73 2000000 = true → Runs .unitAudit s (fun t => t.board.ents = s.board.ents ∧ ∀ u, u < 566 →
    (mapGet (fun _ => viewInit) t.board.views u).gen = (t.unit u).gen ∧
    (mapGet (fun _ => viewInit) t.board.views u).st = (t.unit u).st))

/-- The event recorder (R339, R343, R345 to R348): EVENT_APPEND makes the front of the append queue the newest record of the ring; a
cursor (CUR_SEQ_WRITE, CUR_NEXT, CUR_OLDEST, CUR_NEWEST) loads the record that it names, shows it after CURSOR_LOAD_DONE, and
shows NONE for one that does not exist yet; an EVR_CLEAR that a check refuses shows its code and does nothing else; one that is
allowed shows CLEARING until EVR_CLEAR_DONE finds its pages written. -/
def Obligations.EventRecorder : Prop :=
  (∀ (s : State) (e : EventRec) (es : List EventRec), s.seq.por = false → s.flag F.EVR_STAT_READY = true → s.evr.clearRun = none →
    s.nvs.queue.length < 16 → s.evr.queue = e :: es → e.ext = [] → e.cls < 256 → e.code < 256 →
    es ≠ [] ∨ s.evr.dropWait = 0 → Runs .eventAppend s (fun t =>
      t.evr.queue = es ∧ t.evr.ring.getLast? = some ⟨s.evr.nextSeq, s.evr.nextPos, 4, true⟩ ∧
      t.evr.nextSeq = (s.evr.nextSeq + 1) % 2 ^ 32 ∧ t.evr.nextPos = (s.evr.nextPos + 4) % ringSize ∧
      t.get F.EVR_LAST_CLASS = e.cls ∧ t.get F.EVR_LAST_CODE = e.code ∧ t.get F.EVR_PENDING_records = es.length % 128)) ∧
  (∀ (s : State) (p : Path) (v : Word) (c : Instr), s.cursorOpen p = true → c = .curSeqWrite p v ∨
    c = .curNext p ∧ v = (s.path p).cur.seq + 1 ∨ c = .curOldest p ∧ v = s.rd R.EVR_OLDEST_SEQ ∨
    c = .curNewest p ∧ v = s.rd R.EVR_NEWEST_SEQ →
    (∀ o r, s.evr.ring.head? = some o → s.evr.ring[(v.toNat + 2 ^ 32 - o.seq) % 2 ^ 32]? = some r → r.located = true →
      Runs c s (fun t => (t.path p).cur.seq = BitVec.ofNat 32 r.seq ∧ (t.path p).cur.stat = 0 ∧
        (t.path p).cur.loading.isSome = true ∧ t.evr = s.evr ∧ t.nvs = s.nvs)) ∧
    (s.evr.ring = [] → Runs c s (fun t => (t.path p).cur.seq = v ∧ (t.path p).cur.stat = 4 ∧ t.evr = s.evr ∧ t.nvs = s.nvs))) ∧
  (∀ (s : State) (p : Path) (st : Nat), (s.path p).cur.loading = some st → Runs (.cursorLoadDone p) s (fun t =>
    (t.path p).cur.stat = BitVec.ofNat 32 st ∧ (t.path p).cur.loading = none ∧ (t.path p).cur.bytes = (s.path p).cur.bytes)) ∧
  (∀ (s : State) (v : Word), s.answers .evr = true → s.authorised = true → F.EVR_CLEAR_GO.on v = true →
    (s.clearCode v ≠ 0 → exec (.evrClear .mgmt v) s = .next ((s.put F.EVR_CLEAR_KEY (F.EVR_CLEAR_KEY.of v)).put F.EVR_STAT_CLEAR_CODE (s.clearCode v))) ∧
    (s.clearCode v = 0 → Runs (.evrClear .mgmt v) s (fun t => t.get F.EVR_STAT_CLEARING = 1 ∧ t.get F.EVR_STAT_CLEAR_CODE = 0 ∧
      t.evr.clearRun = some ((s.rd R.EVR_OLDEST_SEQ).toNat, (s.rd R.EVR_CLEAR_UPTO).toNat)))) ∧
  (∀ (s : State) (first upto : Nat), s.evr.clearRun = some (first, upto) → s.nvs.queue.any (fun w => decide (w.page < 512)) = false →
    Runs .evrClearDone s (fun t => t.evr.clearRun = none ∧ t.get F.EVR_STAT_CLEARING = 0 ∧
      t.rd R.EVR_CLEAR_SEQ = BitVec.ofNat 32 upto ∧ t.evr.ring = s.evr.ring))

/-- The NV store (R325 to R327, R332, R335): NV_PAGE_WRITE writes the page at the front and no other; one that is abandoned leaves
its group torn, what lies before it written, and is counted; NVS_CNT_INC queues the next group of its counter; TORN_REPORT
records the torn reads of one second together. -/
def Obligations.NvStoreWrites : Prop :=
  (∀ (s : State) (w : NvsWrite) (ws : List NvsWrite), s.flag F.NVS_STATUS_READY = true → s.nvs.queue = w :: ws →
    (∀ c v, w.done ≠ .counter c v) → Runs (.nvPageWrite none) s (fun t => t.nvs.queue = ws ∧
      (∀ k, k < 32 → t.nvGroupAt w.page k = nvGroup (match w.groups.find? (fun g => g.1 == k) with
        | some g => g.2
        | none => s.nvRead w.page k)) ∧
      ∀ p k, p ≠ w.page → k < 32 → t.nvGroupAt p k = s.nvGroupAt p k)) ∧
  (∀ (s : State) (w : NvsWrite) (ws : List NvsWrite) (bad : Fin 32), s.flag F.NVS_STATUS_READY = true → s.nvs.queue = w :: ws →
    w.done = .plain → Runs (.nvPageWrite (some bad)) s (fun t => t.nvs.queue = ws ∧ t.nvRead w.page bad = BitVec.allOnes 64 ∧
      (∀ k, bad.val < k → k < 32 → t.nvGroupAt w.page k = s.nvGroupAt w.page k) ∧
      (∀ p k, p ≠ w.page → k < 32 → t.nvGroupAt p k = s.nvGroupAt p k) ∧ t.flag F.NVS_STATUS_FAIL = true)) ∧
  (∀ (s : State) (v : Word), s.authorised = true → F.NVS_CNT_INC_GO.on v = true → 16 ≤ F.NVS_CNT_INC_counter.of v →
    s.spreadDue (F.NVS_CNT_INC_counter.of v) < 2 ^ 32 - 1 →
    let c := F.NVS_CNT_INC_counter.of v
    let n := s.spreadDue c + 1
    Runs (.nvsCntInc .mgmt v) s (fun t => t.nvs.queue = s.nvs.queue ++ [⟨512 + 4 * c + n % 128 / 32,
      [(n % 128 % 32, BitVec.ofNat 64 (n + 2 ^ 32 * c))], .counter c n⟩] ∧ t.nvs.groups = s.nvs.groups)) ∧
  (∀ (s : State) (p : Path) (v : Word), p ≠ .mgmt ∨ s.authorised = false ∨ F.NVS_CNT_INC_counter.of v < 16 →
    exec (.nvsCntInc p v) s = .next s) ∧
  (∀ (s : State) (n place : Nat), s.nvs.tornRun = some (n + 1, place) → Runs .tornReport s (fun t =>
    t.nvs = { s.nvs with tornRun := none } ∧ t = { State.post s 0x0C 0x01 place (n + 1) with nvs.tornRun := none }))

/-- The management space (R6, R7, R425, R426, R429, R430): COUNTER_LO_READ latches the high word of a counter for its path, which
the next COUNTER_HI_READ gives; MISALIGNED_ACCESS sets its path's error bit; UNMAPPED_ACCESS is counted and reads 0;
REGISTER_WRITE writes the register's writable bits; an MGMT_READ or MGMT_WRITE that does not fit its limits, or whose length is
wrong, is answered by its code and performs nothing. -/
def Obligations.ManagementSpace : Prop :=
  (∀ (s : State) (p : Path) (off : BitVec 26), s.seq.por = false → wideLo off.toNat = true →
    let u := (if usesFabric off.toNat then s.touch else s)
    let w := u.readReplays off.toNat
    u.mayRead p off.toNat = true → Runs (.counterLoRead p off) s (fun t =>
      t.out = .regData p (w.regWord p off.toNat) :: s.out ∧
      (t.path p).latch = some (s.wideId p off.toNat, w.regWord p (off.toNat + 4)) ∧ t.regs = w.regs)) ∧
  (∀ (s : State) (p : Path) (off : BitVec 26) (w : Word), s.seq.por = false → wideLo off.toNat = true →
    (if usesFabric off.toNat then s.touch else s).mayRead p (off.toNat + 4) = true →
    (s.path p).latch = some (s.wideId p off.toNat, w) → Runs (.counterHiRead p (off + 4)) s (fun t =>
      t.out = .regData p w :: s.out ∧ t.paths = s.paths)) ∧
  (∀ (s : State) (p : Path) (i : Nat) (wr : Bool) (off : BitVec 26) (size : Nat), s.seq.por = false → accBit p = some i →
    off.toNat % 4 ≠ 0 ∨ size ≠ 4 → Runs (.misalignedAccess p wr off size) s (fun t =>
      t.out = (if wr then s.out else .regData p 0 :: s.out) ∧
      t.rd R.ID_ACC_ERR = s.rd R.ID_ACC_ERR ||| (1#32 <<< i) ∧ ∀ o, o ≠ R.ID_ACC_ERR → t.rd o = s.rd o)) ∧
  (∀ (s : State) (n : Fin 8) (wr : Bool) (off : BitVec 26) (size : Nat), s.seq.por = false → s.oddMerged n = false →
    off.toNat % 4 ≠ 0 ∨ size ≠ 4 → Runs (.misalignedAccess (.host n) wr off size) s (fun t =>
      t.out = (if wr then s.out else .regData (.host n) 0 :: s.out) ∧ t.get (F.HP_STATUS_ACC_ERR n) = 1 ∧
      ∀ o, o ≠ R.HP_STATUS n → t.rd o = s.rd o)) ∧
  (∀ (s : State) (p : Path) (wr : Bool) (off : BitVec 26), s.seq.por = false → off.toNat % 4 = 0 → unassigned off.toNat = true →
    Runs (.unmappedAccess p wr off) s (fun t =>
      t.rd R.ID_UNMAPPED_ADDR = BitVec.ofNat 32 (off.toNat + (if wr then 2 ^ 30 else 0) + 2 ^ 31) ∧
      t.out = (if wr then s.out else .regData p 0 :: s.out) ∧
      t.get F.ID_UNMAPPED_accesses = min (2 ^ F.ID_UNMAPPED_accesses.len - 1) (s.get F.ID_UNMAPPED_accesses + 1))) ∧
  (∀ (s : State) (p : Path) (off : BitVec 26) (v : Word), s.seq.por = false → off.toNat % 4 = 0 →
    let u := if usesFabric off.toNat then s.touch else s
    (u.answersAt off.toNat = false → unassigned off.toNat = false → exec (.registerWrite p off v) s = .next u) ∧
    (∀ r, blockOf off.toNat = some .seq → off.toNat ≠ R.SEQ_CTL → rowOf off.toNat = some r → s.mayWrite p off.toNat = true →
      Runs (.registerWrite p off v) s (fun t =>
        t.rd off.toNat = r.writeWord (p == .mgmt && s.authorised) (s.flag F.BOOT_STAT_SEALED) v (s.rd off.toNat) ∧
        ∀ o, o ≠ off.toNat → t.rd o = s.rd o))) ∧
  (∀ (s : State) (count : Byte) (off : Word) (extra : Nat), s.seq.por = false →
    (mgmtFits count.toNat off.toNat = false → exec (.mgmtRead count off extra) s = .next (s.say (.mgmt 2 []))) ∧
    (mgmtFits count.toNat off.toNat = true → extra ≠ 0 → exec (.mgmtRead count off extra) s = .next (s.say (.mgmt 3 []))) ∧
    (mgmtFits count.toNat off.toNat = true → Runs (.mgmtRead count off 0) s (fun t =>
      ∃ ws, t.out.head? = some (.mgmt (s.mgmtCode count.toNat off.toNat) ws) ∧ ws.length = count.toNat))) ∧
  (∀ (s : State) (count : Byte) (off : Word) (data : List Word), s.seq.por = false →
    (mgmtFits count.toNat off.toNat = false → exec (.mgmtWrite count off data) s = .next (s.say (.mgmt 2 []))) ∧
    (mgmtFits count.toNat off.toNat = true → data.length ≠ count.toNat → exec (.mgmtWrite count off data) s = .next (s.say (.mgmt 3 []))) ∧
    (mgmtFits count.toNat off.toNat = true → data.length = count.toNat → exec (.mgmtWrite count off data) s =
      .next ((s.writeMany off.toNat data).say (.mgmt (s.mgmtCode count.toNat off.toNat) []))))

/-- The region commit port (R16, R19): RC_READ copies the descriptor; an RC_COMMIT with the wrong key shows it and changes no
descriptor; one with the key runs until COMMIT_DONE ends it with its status, which stands in dword 15 of the staging copy, and a
refused one changes no descriptor. -/
def Obligations.RegionCommitPort : Prop :=
  (∀ (s : State) (v : Word), s.answers .map = true → s.rgn.rc.busy = false → v.getLsbD 0 = true → v.getLsbD 1 = false →
    Runs (.rcRead .cc v) s (fun t => t.rgn.rc.staging = s.desc s.rgn.rc.region ∧ t.rgn.descs = s.rgn.descs ∧
      t.rgn.rc.region = s.rgn.rc.region)) ∧
  (∀ (s : State) (v : Word), s.answers .map = true → s.rgn.rc.busy = false → v.getLsbD 0 = false → v.getLsbD 1 = true →
    (fieldGet v 16 16 ≠ 0x5243 → Runs (.rcCommit .cc v) s (fun t => t.rgn = { s.rgn with rc.keyErr := true } ∧ t.store = s.store)) ∧
    (fieldGet v 16 16 = 0x5243 →
      let c := s.touch.commitStatus s.rgn.rc.region (s.desc s.rgn.rc.region)
        (commitDesc (s.desc s.rgn.rc.region) s.rgn.rc.staging)
      Runs (.rcCommit .cc v) s (fun t => t.rgn.rc.busy = true ∧ t.rgn.rc.keyErr = false ∧ t.rgn.rc.run = some (s.rgn.rc.staging, c) ∧
        (c ≠ 0 → t.rgn.descs = s.rgn.descs ∧ t.store = s.store)))) ∧
  (∀ (s : State) (staged : BitVec 512) (code : Nat), s.rgn.rc.run = some (staged, code) → code ≠ 0 → code < 2 ^ 32 →
    Runs .commitDone s (fun t => t.rgn.rc.busy = false ∧ t.rgn.rc.run = none ∧ t.rgn.rc.status = code ∧
      dw t.rgn.rc.staging 15 = code ∧ t.rgn.descs = s.rgn.descs ∧ t.store = s.store)) ∧
  (∀ (s : State) (p : Path) (v : Word), p ≠ .cc → Runs (.rcRead p v) s (fun t => t.rgn = s.rgn) ∧
    Runs (.rcCommit p v) s (fun t => t.rgn = s.rgn))

/-- Tokens and the authorisation (R351 to R354, R360): the challenge of NEW_CHALLENGE serves one PRESENT_TOKEN; TOKEN_CHECK_DONE
opens the authorisation for its window on a right token of purpose 1 and makes the N16 Owner on one of purpose 2; a wrong one is
counted, and at the limit all keys go; AUTHORISATION_EXPIRY, CLOSE_AUTHORISATION and CHALLENGE_EXPIRY end them. Only the
management port uses the token port. -/
def Obligations.VaultTokens : Prop :=
  (∀ s : State, s.seq.por = false → s.kvc.tok = none → s.vaultDead = false → Runs (.newChallenge .mgmt) s (fun t =>
    ∃ c : BitVec 128, t.kvc.chal = some c ∧ t.kvc.result = 0 ∧ ∀ i, i < 4 → t.rd (R.KVC_CHAL i) = c.extractLsb' (32 * i) 32)) ∧
  (∀ (s : State) (p : Path) (u : Byte), p ≠ .mgmt → exec (.newChallenge p) s = .next s ∧ exec (.presentToken p u) s = .next s ∧
    exec (.closeAuthorisation p) s = .next s) ∧
  (∀ (s : State) (k : BitVec 256) (c : BitVec 128) (u : Byte), s.seq.por = false → s.kvc.tok = none → s.vaultDead = false →
    s.vslot 1 = some k → s.kvc.chal = some c → u = 1 ∨ (u = 2 ∧ s.trustAllows 2 = true) → Runs (.presentToken .mgmt u) s (fun t =>
      t.kvc.tok = some ⟨u.toNat, if tokenOk k c u.toNat (s.portBytes 0x08 16) then 1 else 2, none, none⟩ ∧ t.kvc.chal = none ∧
      t.kvc.result = 0 ∧ t.kvc.slots = s.kvc.slots)) ∧
  (∀ s : State, s.kvc.tok = some ⟨1, 1, none, none⟩ → s.passed 91 200000 = true → s.vaultDead = false → Runs .tokenCheckDone s (fun t =>
    t.authorised = true ∧ t.get F.KVC_TOKEN_FAIL_consecutive = 0 ∧ t.kvc.result = 1 ∧ t.kvc.tok = none ∧
    mapGet? t.marks 51 = some (s.now + s.get F.KVC_AUTH_CFG_WINDOW_S * 200000000))) ∧
  (∀ s : State, s.kvc.tok = some ⟨2, 1, none, none⟩ → s.passed 91 200000 = true → s.vaultDead = false → s.trustAllows 2 = true → Runs .tokenCheckDone s (fun t =>
    t.trust = trOwner ∧ t.kvc.result = 1 ∧ t.kvc.slots = s.kvc.slots)) ∧
  (∀ (s : State) (u : Nat), s.kvc.tok = some ⟨u, 2, none, none⟩ → s.passed 91 200000 = true →
    (s.get F.KVC_TOKEN_FAIL_consecutive + 1 < s.get F.KVC_AUTH_CFG_FAIL_LIMIT → Runs .tokenCheckDone s (fun t =>
      t.get F.KVC_TOKEN_FAIL_consecutive = s.get F.KVC_TOKEN_FAIL_consecutive + 1 ∧ t.kvc.result = 2 ∧
      t.kvc.slots = s.kvc.slots ∧ t.authorised = s.authorised)) ∧
    (s.get F.KVC_AUTH_CFG_FAIL_LIMIT ≤ s.get F.KVC_TOKEN_FAIL_consecutive + 1 → Runs .tokenCheckDone s (fun t =>
      t.kvc.result = 2 ∧ s.alarmed t 6))) ∧
  (∀ s : State, s.seq.por = false → s.kvc.tok = none → Runs (.closeAuthorisation .mgmt) s (fun t => t.authorised = false)) ∧
  (∀ s : State, s.authorised = true → s.passed 51 0 = true → Runs .authorisationExpiry s (fun t => t.authorised = false ∧ t.kvc.slots = s.kvc.slots)) ∧
  (∀ s : State, s.kvc.chal.isSome = true → s.passed 90 (10 * oneSecond) = true → Runs .challengeExpiry s (fun t => t.kvc.chal = none ∧
    ∀ i, i < 4 → t.rd (R.KVC_CHAL i) = 0))

/-- The cipher engine (R355 to R359): GCM_SEAL, GCM_OPEN, KW_WRAP, KW_UNWRAP, CMAC_GEN and CMAC_VERIFY, on a key that their slot
holds and lengths in their limits, take the buffer's bytes as the mode gives; V0 to V2 and an empty slot are refused with code
1; KVC_OP_DONE, once the engine has had its cycles, puts the output in the buffer, or zeros it where it does not verify;
SLOT_IMPORT and SLOT_ERASE change their slot when its record is stored; KVC_LOCK_WRITE and KVC_LOCK_BREAK; and SUPPLY_GLITCH and
CLOCK_MONITOR_ALARM of R360. -/
def Obligations.CipherEngine : Prop :=
  (∀ (s : State) (v : Word) (k : BitVec 256), s.vslot (F.KVC_CTL_VSLOT.of v) = some k → 3 ≤ F.KVC_CTL_VSLOT.of v →
    let len := s.get F.KVC_LEN_LEN
    let aad := s.get F.KVC_LEN_AAD
    let bs := s.bufferBytes len
    let key := toBytes 32 k
    let cyc := fun m => kvcCycles m len aad
    (s.kvcReady v 1 → len ≤ 4096 → aad ≤ len → Runs (.gcmSeal .mgmt v) s (fun t =>
      let ct := gcmCrypt key s.kvcIv (bs.drop aad)
      s.began t ⟨1, true, bs.take aad ++ ct, some (ofBytes 128 (gcmTag key s.kvcIv (bs.take aad) ct)), none, none, false, cyc 1⟩)) ∧
    (s.kvcReady v 2 → len ≤ 4096 → aad ≤ len → Runs (.gcmOpen .mgmt v) s (fun t => t.get F.KVC_STAT_VERIFIED = 0 ∧
      s.began t ⟨2, gcmTag key s.kvcIv (bs.take aad) (bs.drop aad) == s.kvcTag, bs.take aad ++ gcmCrypt key s.kvcIv (bs.drop aad),
        none, none, none, false, cyc 2⟩)) ∧
    (s.kvcReady v 3 → 16 ≤ len → len ≤ 4088 → len % 8 = 0 → Runs (.kwWrap .mgmt v) s (fun t =>
      s.began t ⟨3, true, kwWrapBytes key bs, none, none, none, false, cyc 3⟩)) ∧
    (s.kvcReady v 4 → 24 ≤ len → len ≤ 4096 → len % 8 = 0 → Runs (.kwUnwrap .mgmt v) s (fun t => t.get F.KVC_STAT_VERIFIED = 0 ∧
      s.began t ⟨4, (kwUnwrapBytes key bs).isSome, (kwUnwrapBytes key bs).getD [], none, none, none, false, cyc 4⟩)) ∧
    (s.kvcReady v 5 → len ≤ 4096 → Runs (.cmacGen .mgmt v) s (fun t =>
      s.began t ⟨5, true, [], some (ofBytes 128 (cmac key bs)), none, none, false, cyc 5⟩)) ∧
    (s.kvcReady v 6 → len ≤ 4096 → Runs (.cmacVerify .mgmt v) s (fun t => t.get F.KVC_STAT_VERIFIED = 0 ∧
      s.began t ⟨6, cmac key bs == s.kvcTag, [], none, none, none, false, cyc 6⟩))) ∧
  (∀ (s : State) (v : Word) (k1 : BitVec 256), s.kvcReady v 7 → 3 ≤ F.KVC_CTL_VSLOT.of v → s.vslot 1 = some k1 →
    s.get F.KVC_LEN_LEN = 40 → Runs (.slotImport .mgmt v) s (fun t =>
      let cyc := kvcCycles 7 40 (s.get F.KVC_LEN_AAD)
      (kwUnwrapBytes (toBytes 32 k1) (s.bufferBytes 40) = none → s.began t ⟨7, false, [], none, none, none, false, cyc⟩) ∧
      ∀ n : BitVec 256, kwUnwrapBytes (toBytes 32 k1) (s.bufferBytes 40) = some (toBytes 32 n) → s.began t
        ⟨7, true, [], none, some (F.KVC_CTL_VSLOT.of v, some (ofBytes 256 (toBytes 32 n))), some (s.recNext 5), false, cyc⟩)) ∧
  (∀ (s : State) (v : Word), s.kvcReady v 8 → 3 ≤ F.KVC_CTL_VSLOT.of v → Runs (.slotErase .mgmt v) s (fun t =>
    s.began t ⟨8, true, [], none, some (F.KVC_CTL_VSLOT.of v, none), some (s.recNext 5), false, 0⟩)) ∧
  (∀ (s : State) (v : Word) (m : Nat), s.kvcReady v m → F.KVC_CTL_VSLOT.of v < 3 ∨
    m < 7 ∧ s.vslot (F.KVC_CTL_VSLOT.of v) = none ∨ m = 7 ∧ s.vslot 1 = none →
    ∀ c ∈ [Instr.gcmSeal .mgmt v, .gcmOpen .mgmt v, .kwWrap .mgmt v, .kwUnwrap .mgmt v, .cmacGen .mgmt v, .cmacVerify .mgmt v,
      .slotImport .mgmt v, .slotErase .mgmt v],
    exec c s = .next ((((s.useVault .mgmt).put F.KVC_CTL_MODE m).put F.KVC_CTL_VSLOT (F.KVC_CTL_VSLOT.of v)).put F.KVC_STAT_CODE 1)) ∧
  (∀ (s : State) (m cyc slg : Nat) (data : List Byte) (tag : Option (BitVec 128)),
    s.kvc.run = some ⟨m, true, data, tag, none, none, false, cyc⟩ → s.passed 93 cyc = true →
    data.length ≤ 4096 → Runs (.kvcOpDone slg) s (fun t => t.kvc.run = none ∧ t.get F.KVC_STAT_BUSY = 0 ∧
      t.bufferBytes data.length = data ∧ (heldMode m = true → t.get F.KVC_STAT_VERIFIED = 1) ∧ t.kvc.slots = s.kvc.slots ∧
      ∀ g, tag = some g → ∀ i, i < 4 → t.rd (R.KVC_TAG i) = g.extractLsb' (32 * i) 32)) ∧
  (∀ (s : State) (m cyc slg : Nat) (data : List Byte) (tag : Option (BitVec 128)),
    s.kvc.run = some ⟨m, false, data, tag, none, none, false, cyc⟩ → s.passed 93 cyc = true →
    Runs (.kvcOpDone slg) s (fun t => t.kvc.run = none ∧ t.get F.KVC_STAT_CODE = 2 ∧ t.kvc.buf = [] ∧ t.kvc.slots = s.kvc.slots)) ∧
  (∀ (s : State) (m cyc slg i : Nat) (k : Option (BitVec 256)) (w : Bool × Nat),
    s.kvc.run = some ⟨m, true, [], none, some (i, k), some w, false, cyc⟩ → s.passed 93 (cyc + slg) = true →
    s.vaultWaits (some w) = false → s.vaultStored (some w) = true → Runs (.kvcOpDone slg) s (fun t => t.vslot i = k ∧
      t.kvc.run = none ∧ ∀ j, j ≠ i → t.vslot j = s.vslot j)) ∧
  (∀ (s : State) (v : Word), s.seq.por = false → s.authorised = true → s.get F.KVC_LOCK_OWNER = 0 → F.KVC_LOCK_OWNER.of v = 2 →
    exec (.kvcLockWrite false .mgmt v) s = .next ((s.useVault .mgmt).put F.KVC_LOCK_OWNER 2)) ∧
  (∀ s : State, s.kvc.run = none → s.get F.KVC_LOCK_OWNER = 2 → s.passed 92 ms100 = true → Runs .kvcLockBreak s (fun t =>
    t.get F.KVC_LOCK_OWNER = 0 ∧ t.kvc.buf = [] ∧ t.kvc.slots = s.kvc.slots)) ∧
  (∀ s : State, s.seq.por = false → Runs .supplyGlitch s (fun t => s.alarmed t 3) ∧ Runs .clockMonitorAlarm s (fun t => s.alarmed t 4))

/-- The thermal watch, lockstep and Halted (R91, R313 to R320): T of THERMAL_SAMPLE is the mean of the temperatures, and steps rise
with it; a sensor that is broken, or stuck (SENSOR_STUCK), latches step 15; DIM_STEP_FALL follows once T has been below its
threshold less the hysteresis; RISE_HOLD_END ends a rise; a second LOCKSTEP_DISAGREE within a second is an alarm;
HALTED_SEQUENCE erases the key slots. -/
def Obligations.ThermalAndHalted : Prop :=
  (∀ (s : State) (raw : BitVec 16) (q : BitVec 12), s.seq.por = false → s.thm.means = [] → s.thm.temps = [] → s.stepForced = false →
    -160 ≤ q.toInt → q.toInt ≤ 600 → q.toInt < 4 * s.get F.THM_LIMIT_CFG_CRIT → Runs (.thermalSample raw (.temp q)) s (fun t =>
      t.thm.means = [q.toInt * 12] ∧ t.get F.THM_TEMP_last = q.toNat ∧ t.get F.THM_TEMP_T = q.toNat ∧
      t.get F.THM_RAW_last = raw.toNat ∧ t.get F.THM_STAT_STEP = max (s.get F.THM_STAT_STEP) (s.dimStep (q.toInt * 12)))) ∧
  (∀ (s : State) (raw : BitVec 16) (r : ThermalReading) (cause : Nat), (r, cause) ∈ [(.openDiode, 2), (.shortDiode, 3), (ThermalReading.outOfRange, 4)] →
    s.seq.por = false → s.flag F.THM_STAT_BROKEN = false → s.flag F.THM_STAT_LATCH = false → s.lit = false → s.poweringUp = false →
    s.exiting = false → Runs (.thermalSample raw r) s (fun t => t.flag F.THM_STAT_BROKEN = true ∧ t.flag F.THM_STAT_LATCH = true ∧
      t.get F.THM_STAT_STEP = 15 ∧ t.rd R.THM_LATCH_INFO = BitVec.ofNat 32 (cause + 16 * s.get F.THM_TEMP_last + 2 ^ 31))) ∧
  (∀ s : State, s.seq.por = false → s.get F.THM_RAW_run = 256 → s.flag F.THM_STAT_BROKEN = false → s.flag F.THM_STAT_LATCH = false →
    s.lit = false → s.poweringUp = false → s.exiting = false → Runs .sensorStuck s (fun t => t.flag F.THM_STAT_BROKEN = true ∧
      t.flag F.THM_STAT_LATCH = true ∧ t.rd R.THM_LATCH_INFO = BitVec.ofNat 32 (5 + 16 * s.get F.THM_TEMP_last + 2 ^ 31))) ∧
  (∀ s : State, s.get F.THM_STAT_STEP ≠ 0 → s.stepForced = false → s.thm.means ≠ [] →
    s.thm.mean < s.stepLevel (s.get F.THM_STAT_STEP) - quarterC (s.get F.THM_DIM_CFG_HYST) → s.lasted 81 ms100 = true → Runs .dimStepFall s (fun t =>
      t.get F.THM_STAT_STEP = max (s.get F.THM_STAT_STEP - 1) (s.dimStep s.thm.mean) ∧ t.thm = s.thm)) ∧
  (∀ s : State, s.flag F.THM_STAT_RISE = true → s.lasted 82 ms100 = true → Runs .riseHoldEnd s (fun t => t.flag F.THM_STAT_RISE = false ∧
    t.get F.THM_STAT_STEP = s.get F.THM_STAT_STEP)) ∧
  (∀ s : State, s.seq.por = false → s.thm.strikeAt = none → Runs .lockstepDisagree s (fun t => t.thm.strikeAt = some s.now ∧
    t = State.post { s with thm.strikeAt := some s.now } 0x07 0x04 0 1)) ∧
  (∀ (s : State) (c : Nat), s.seq.por = false → s.thm.strikeAt = some c → s.now < c + 200000000 → Runs .lockstepDisagree s (fun t =>
    s.alarmed t 2 ∧ t.get F.THM_STAT_STEP = 15 ∧ t.seq.faultLock = true ∧ t.thm.forced = true)) ∧
  (∀ s : State, s.seq.por = false → s.key.halt = true → s.key.haltedRun = false → s.seq.warm = false → s.store.imageRun = none →
    Runs .haltedSequence s (fun t => t.key.haltedRun = true ∧ t.key.slots = [] ∧ t.key.keks = [] ∧ t.service = svHalted))

/-- The sequencer's steps (R364 to R368, R374, R375, R382): SEQ_ENABLE, SEQ_DISABLE, SEQ_WAIT, SEQ_CHECK, SEQ_JUMP, SEQ_SYNC,
SEQ_MARK and SEQ_END each act as the step's word gives and go on at the next step, or wait; a wait ends with its time
(SEQ_WAIT_EXPIRY) or its level; a check or a discharge that stays unmet in a shutdown (SEQ_CHECK_TIMEOUT, SEQ_DISCHARGE_TIMEOUT)
is a fault and the run goes on; RUN_STEP_LIMIT ends a run of 4,096 steps. -/
def Obligations.SequencerSteps : Prop :=
  (∀ (s : State) (c : Instr) (op : Nat), (c, op) ∈ [(.seqEnable, 1), (.seqDisable, 2), (.seqWait, 3), (.seqCheck, 4), (.seqJump, 5),
    (.seqSync, 6), (.seqMark, 7), (Instr.seqEnd, 8)] → s.seqAt op = false → exec c s = .next s) ∧
  (∀ s : State, s.stepOk (s.get F.SEQ_STAT_STEP + 1) →
    let next := s.get F.SEQ_STAT_STEP + 1
    let w := s.stepWord
    (s.seqAt 1 = true → Runs .seqEnable s (fun t => s.movedTo t next ∧
      (t.rd R.SEQ_EN_STAT).toNat = (s.rd R.SEQ_EN_STAT).toNat ||| 2 ^ seqLow w)) ∧
    (s.seqAt 2 = true → seqLimit w = 0 ∨ s.pgood (seqLow w) = false → Runs .seqDisable s (fun t => s.movedTo t next ∧
      (t.rd R.SEQ_EN_STAT).getLsbD (seqLow w) = false ∧ (t.rd R.SEQ_PG_ARMED).getLsbD (seqLow w) = false)) ∧
    (s.seqAt 4 = true → s.seq.fast = true ∨ s.checkInput (seqLow w) = w.getLsbD 5 → Runs .seqCheck s (fun t => s.movedTo t next)) ∧
    (s.seqAt 6 = true → s.onPhase = false → s.flag F.SEQ_STAT_PEND_OFF = false → Runs .seqSync s (fun t => s.movedTo t next ∧
      t.get F.SEQ_STAT_PHASE_STATE = max (seqLow w) (s.get F.SEQ_STAT_PHASE_STATE))) ∧
    (s.seqAt 7 = true → s.flag F.SEQ_STAT_PEND_OFF = false → Runs .seqMark s (fun t => s.movedTo t next ∧
      t.seq.mirror = some (seqTarget w))) ∧
    (s.seq.run.isSome = true → s.seq.wait = .time → s.waited (max 1 (fieldGet w 0 24)) 200 20000 = true →
      Runs .seqWaitExpiry s (fun t => s.movedTo t next)) ∧
    (∀ i l, s.seq.run = some true → s.seq.wait = .check i l → s.passed 94 (seqLimit w * 20000) = true →
      Runs .seqCheckTimeout s (fun t => s.movedTo t next ∧ t.seq.faultN = true)) ∧
    (∀ k, s.seq.run = some true → s.seq.wait = .discharge k → s.seq.fast = false → k < 32 → s.flag F.SEQ_FAULT_VALID = false →
      s.waited (seqLimit w) 20000 200000 = true →
      Runs .seqDischargeTimeout s (fun t => s.movedTo t next ∧ t.seq.faultN = true ∧ t.get F.SEQ_FAULT_RAIL = k ∧
        t.get F.SEQ_FAULT_KIND = 3 ∧ t.get F.SEQ_FAULT_STEP = s.get F.SEQ_STAT_STEP ∧ t.flag F.SEQ_FAULT_VALID = true))) ∧
  (∀ s : State, s.seqAt 2 = true → seqLimit s.stepWord ≠ 0 → s.pgood (seqLow s.stepWord) = true → Runs .seqDisable s (fun t =>
    t.seq.wait = .discharge (seqLow s.stepWord) ∧ t.get F.SEQ_STAT_STEP = s.get F.SEQ_STAT_STEP ∧
    (t.rd R.SEQ_EN_STAT).getLsbD (seqLow s.stepWord) = false)) ∧
  (∀ s : State, s.seqAt 3 = true → exec .seqWait s = .next (State.mark { s with seq.wait := .time } 94)) ∧
  (∀ s : State, s.seqAt 4 = true → s.seq.fast = false → s.checkInput (seqLow s.stepWord) ≠ s.stepWord.getLsbD 5 →
    seqLimit s.stepWord ≠ 0 → exec .seqCheck s = .next
      (State.mark { s with seq.wait := .check (seqLow s.stepWord) (s.stepWord.getLsbD 5) } 94)) ∧
  (∀ s : State, s.seqAt 5 = true → s.stepOk (seqTarget s.stepWord) → Runs .seqJump s (fun t => s.movedTo t (seqTarget s.stepWord))) ∧
  (∀ s : State, s.seqAt 6 = true → s.onPhase = true → s.passed 98 4000 = true → s.get F.SEQ_STAT_PHASE_STATE < seqLow s.stepWord → Runs .seqSync s (fun t =>
    t.seq.wait = .sync (seqLow s.stepWord) ∧ t.get F.SEQ_STAT_PHASE_DRIVE = 0)) ∧
  (∀ s : State, s.seqAt 8 = true → s.seq.run = some true → s.stepWord.getLsbD 0 = true → Runs .seqEnd s (fun t =>
    t.seq.run = none ∧ t.seq.off = 0 ∧ t.power = pwDark ∧ t.get F.SEQ_STAT_STATE = 6 ∧ t.key.slots = [])) ∧
  (∀ s : State, s.seqAt 8 = true → s.seq.run = some false → s.stepWord.getLsbD 0 = false → s.flag F.SEQ_STAT_PEND_OFF = false →
    exec .seqEnd s = .next s.endUp) ∧
  (∀ s : State, s.seq.run.isSome = true → s.seq.wait = .none → 4096 ≤ s.seq.steps → exec .runStepLimit s = .next (s.runFault 6))

/-- Requests and resets of power (R366, R369 to R371, R373, R374, R381, R396, R438): PHASE_FALL, PWRBTN_RELEASE, REQ_ON,
MRST_N_RELEASE and HOLDOFF_END begin a power-up, noted as what it is; a short press does nothing; REQ_OFF waits for the hosts
until HOST_WAIT_EXPIRY; PWRBTN_HOLD_8S forces off, and PWRBTN_HOLD_12S drops the rails; POR_ASSERT and POR_RELEASE; FAULT_CLR;
MRST_N_ASSERT; PGOOD_CHANGE; PHASE_BARRIER; XTAL32K_FAIL. -/
def Obligations.PowerRequests : Prop :=
  (∀ s : State, s.upReady → s.get F.SEQ_STAT_STATE = 0 → s.seq.run = none → s.lit = false →
    (s.flag F.SEQ_CFG_PHASE_EN = true → s.passed 97 2000000 = true → Runs .phaseFall s (fun t => s.upBegun t 4)) ∧
    (∀ ms, 50 ≤ ms → ms ≤ 4000 → Runs (.pwrbtnRelease ms) s (fun t => s.upBegun t 3)) ∧
    (∀ v, s.mayWrite .mgmt R.SEQ_CTL = true → s.authorised = true → F.SEQ_CTL_REQ_ON.on v = true → F.SEQ_CTL_REQ_OFF.on v = false →
      F.SEQ_CTL_FAULT_CLR.on v = false → Runs (.reqOn .mgmt v) s (fun t => s.upBegun t 6)) ∧
    (s.flag F.SEQ_IN_STAT_MRST_N = true → s.flag F.SEQ_CFG_MRST_ON = true → Runs .mrstNRelease s (fun t => s.upBegun t 5))) ∧
  (∀ s : State, s.upReady → s.get F.SEQ_STAT_STATE = 6 → s.passed 56 0 = true →
    (s.flag F.SEQ_STAT_PEND_ON = true → Runs .holdoffEnd s (fun t => s.upBegun t 7 ∧ t.get F.SEQ_STAT_DETACHED = 1)) ∧
    (s.flag F.SEQ_STAT_PEND_ON = false → s.flag F.SEQ_CFG_AUTO_ON = true → s.seq.noAuto = false → s.flag F.SUP_STAT_VIN_LOW = false →
      Runs .holdoffEnd s (fun t => s.upBegun t 2))) ∧
  (∀ (s : State) (ms : Nat), s.seq.por = false → ms < 50 → exec (.pwrbtnRelease ms) s =
    .next ((s.wr R.SEQ_BTN (BitVec.ofNat 32 ms)).put F.SEQ_IN_STAT_PWRBTN_N 0)) ∧
  (∀ (s : State) (v : Word), s.mayWrite .mgmt R.SEQ_CTL = true → s.authorised = true → F.SEQ_CTL_REQ_OFF.on v = true →
    F.SEQ_CTL_REQ_ON.on v = false → F.SEQ_CTL_FAULT_CLR.on v = false → s.lit = true → s.seq.off = 0 → s.poweringUp = false →
    s.anyLink = true → s.get F.SEQ_CFG_HOST_S ≠ 0 → Runs (.reqOff .mgmt v) s (fun t => t.seq.off = 2 ∧ t.seq.hosts = true ∧
      t.get F.SEQ_LAST_OFF_CAUSE = 2 ∧ t.get F.SEQ_STAT_STATE = 3)) ∧
  (∀ s : State, s.seq.hosts = true → s.passed 55 (s.get F.SEQ_CFG_HOST_S * oneSecond) = true → exec .hostWaitExpiry s = .next s.offDrain) ∧
  (∀ (s : State) (v : Word), s.mayWrite .mgmt R.SEQ_CTL = true → s.authorised = true → F.SEQ_CTL_FAULT_CLR.on v = true →
    F.SEQ_CTL_REQ_OFF.on v = false → F.SEQ_CTL_REQ_ON.on v = false → Runs (.faultClr .mgmt v) s (fun t =>
      t.seq.faultN = false ∧ t.rd R.SEQ_FAULT = 0 ∧ t.rd64 R.SEQ_FAULT_TICK_LO = 0)) ∧
  (∀ s : State, s.seq.por = false → s.get F.SEQ_STAT_STATE ≠ 0 → s.get F.SEQ_STAT_STATE ≠ 6 →
    (s.seq.off < 4 → s.seq.run ≠ some true → exec .pwrbtnHold8s s = .next ((s.put F.SEQ_IN_STAT_PWRBTN_N 1).cutOff 7)) ∧
    Runs .pwrbtnHold12s s (fun t => t.power = pwDark ∧ t.seq.run = none ∧ t.seq.off = 0 ∧ t.get F.SEQ_LAST_OFF_CAUSE = 8 ∧
      ∀ k, k < 24 → (t.rd R.SEQ_EN_STAT).getLsbD k = false)) ∧
  (∀ s : State, s.seq.por = false → s.seq.cold ≠ some 3 →
    (s.steady = false → exec .mrstNAssert s = .next (s.put F.SEQ_IN_STAT_MRST_N 1)) ∧
    (s.steady = true → exec .mrstNAssert s = .next ((s.put F.SEQ_IN_STAT_MRST_N 1).coldBegin 2))) ∧
  (∀ (s : State) (k : Fin 24) (b : Bool), s.seq.por = false → s.seq.run = none → (s.rd R.SEQ_PG_ARMED).getLsbD k = false →
    Runs (.pgoodChange k b) s (fun t => t.pgood k = b ∧ dataKept s t ∧ t.seq = s.seq)) ∧
  (∀ (s : State) (st : Nat), s.seq.por = false → s.flag F.SEQ_STAT_PHASE_DRIVE = false → s.seq.run = some true → s.seq.wait = .sync st →
    s.get F.SEQ_STAT_PHASE_STATE + 1 < st → st < 32 → Runs .phaseBarrier s (fun t =>
      t.get F.SEQ_STAT_PHASE_STATE = s.get F.SEQ_STAT_PHASE_STATE + 1 ∧ t.flag F.SEQ_IN_STAT_PHASE = true ∧ t.seq = s.seq)) ∧
  (∀ s : State, Runs .porAssert s (fun t => t.seq.por = true ∧ t.regs = [] ∧ t.kvc.slots = [] ∧ t.key.slots = [] ∧
    t.store.cells = s.store.cells ∧ t.boot.flash = s.boot.flash ∧ t.store.vault = [] ∧ t.accesses = [])) ∧
  (∀ s : State, s.seq.por = true → Runs (.porRelease true) s (fun t => t.seq.por = false ∧ t.get F.MODE_RST_STAT_LAST = 1 ∧
    t.vslot 0 = some vaultKey ∧ t.vslot 2 = some Config.vendorSecret ∧ t.seq.stage = .scan) ∧
    Runs (.porRelease false) s (fun t => t.seq.por = false ∧ t.kvc.slots = [] ∧ t.key.slots = [])) ∧
  (∀ s : State, s.seq.por = false → Runs .xtal32kFail s (fun t => t.seq.faultN = true ∧ t.store = s.store))

/-- The supply watch and Eclipse (R377 to R381): VIN_WARN_CROSS and VIN_RESET_CROSS show the input and whether it is low; Penumbra
begins in Lit or Dim when the input or, by HOLDUP_OK_CHANGE, the hold-up falls, and ends by PENUMBRA_EXIT once the input has
been back with its hysteresis for 10 ms; at ECLIPSE_DEADLINE, 180 ms after an Eclipse trigger, every rail is off. -/
def Obligations.SupplyWatch : Prop :=
  (∀ (s : State) (mv : BitVec 16) (c : Instr), c = .vinWarnCross mv ∨ c = .vinResetCross mv → s.seq.por = false → s.lit = false →
    s.poweringUp = false → s.exiting = false → s.seq.run = none → s.seq.autoWait = false → Runs c s (fun t =>
      t.get F.SUP_VIN_input = mv.toNat ∧ t.flag F.SUP_STAT_VIN_LOW = decide (mv.toNat < s.get F.SUP_CFG_WARN * 50) ∧
      t.flag F.SUP_STAT_BELOW_RESET = decide (mv.toNat < s.get F.SUP_CFG_RESET * 50) ∧
      t.get F.SUP_STAT_PEN = s.get F.SUP_STAT_PEN)) ∧
  (∀ (s : State) (mv : BitVec 16) (c : Instr), c = .vinWarnCross mv ∨ c = .vinResetCross mv → s.seq.por = false → s.lit = true →
    s.seq.run = none → s.seq.autoWait = false → s.flag F.SUP_STAT_PEN = false → mv.toNat < s.get F.SUP_CFG_WARN * 50 →
    s.get F.SUP_CFG_RESET * 50 ≤ mv.toNat → Runs c s (fun t => t.flag F.SUP_STAT_PEN = true ∧ t.seq.penLow = mv.toNat ∧
      mapGet? t.marks 60 = some s.now ∧ t.power = s.power)) ∧
  (∀ (s : State) (mv : BitVec 16), s.seq.por = false → s.flag F.SUP_STAT_PEN = true → s.holdup = true → s.seq.run = none →
    s.seq.autoWait = false → (s.get F.SUP_CFG_WARN + s.get F.SUP_CFG_HYST) * 50 ≤ mv.toNat →
    s.get F.SUP_CFG_RESET ≤ s.get F.SUP_CFG_WARN → s.lasted 95 2000000 = true → Runs (.penumbraExit mv) s (fun t => t.flag F.SUP_STAT_PEN = false ∧
      t.flag F.SUP_STAT_VIN_LOW = false ∧ t.power = s.power)) ∧
  (∀ (s : State) (b : Bool), s.seq.por = false → s.seq.run = none → Runs (.holdupOkChange b) s (fun t => t.holdup = b ∧
    t.flag F.SUP_STAT_HOLD_LOW = !b ∧ (s.lit = true → b = false → t.flag F.SUP_STAT_PEN = true))) ∧
  (∀ s : State, offFast s.seq.off = true → s.passed 96 36000000 = true → Runs .eclipseDeadline s (fun t => t.power = pwDark ∧ t.seq.run = none ∧
    ∀ k, k < 24 → (t.rd R.SEQ_EN_STAT).getLsbD k = false)) ∧
  (∀ s : State, offFast s.seq.off = false ∨ s.passed 96 36000000 = false → exec .eclipseDeadline s = .next s)

/-- Starts and the configuration image (R328, R388, R408 to R411, R413, R415, R416): NV_STORE_READY makes the store ready, and a
start goes on to its validation; at BOOT_VALIDATION_DONE a slot that a check refuses leaves its code and the N16 in Hold, one
that passes is loaded, which BOOT_LOAD_DONE ends; BAND_ARMED; USE_B and RETRY begin a validation; FLASH_READ, FLASH_PROGRAM,
FLASH_ERASE_4K and FLASH_ERASE_64K begin, and FLASH_OP_DONE ends them; BOOT_SEAL seals. -/
def Obligations.BootAndFlash : Prop :=
  (∀ s : State, s.seq.por = false → s.seq.stage = .scan → s.seq.held = false → s.flag F.NVS_STATUS_READY = false →
    (s.seq.src = 1 → Runs .nvStoreReady s (fun t => t.seq.stage = .none ∧ t.flag F.NVS_STATUS_READY = true)) ∧
    (s.seq.src ≠ 1 → Runs .nvStoreReady s (fun t => t.seq.stage = .validate ∧ t.boot.val = some false ∧
      t.flag F.NVS_STATUS_READY = true ∧ t.flag F.BOOT_STAT_VALIDATING = true))) ∧
  (∀ (s : State) (b ok : Bool), s.boot.val = some b → Runs (.bootValidationDone ok) s (fun t =>
    (s.checkSlot b ok ≠ 0 → t.boot.val = none ∧ t.get F.BOOT_STAT_LAST_CODE = s.checkSlot b ok ∧
      t.flag F.MODE_HOLD_WHY_CONFIG = true) ∧
    (s.checkSlot b ok = 0 → s.seq.warm = false → t.seq.stage = .load ∧ t.flag F.BOOT_STAT_ACCEPTED = true ∧
      t.flag F.BOOT_STAT_SLOT = b ∧ t.flag F.MODE_HOLD_WHY_CONFIG = false ∧ t.flag F.BOOT_STAT_LOADING = true))) ∧
  (∀ (s : State) (img : ImageRead), s.seq.stage = .load →
    let b := s.flag F.BOOT_STAT_SLOT
    let u := (s.put F.BOOT_STAT_LOADING 0).wr R.BOOT_LOAD_US (BitVec.ofNat 32 (min (s.usSince 59) (2 ^ 24 - 1)))
    exec (.bootLoadDone ⟨false, img⟩) s = .next (State.rejectImage u b 9) ∧
    (s.flashUsable = true → exec (.bootLoadDone ⟨true, img⟩) s = .next (if s.slotDigest b (s.rd R.BOOT_IMG_LEN).toNat =
        (List.range 12).flatMap (fun i => toBytes 4 (s.rd (R.BOOT_DIGEST i))) then
        (if s.seq.afterWarm then State.finishWarm { State.loadImage u b with seq.stage := .none } else State.finishStart (State.loadImage u b) img)
      else State.rejectImage u b 0xA))) ∧
  (∀ s : State, s.flag F.MAP_STAT_ARMED = false → s.lit = true → s.formatted = true → Runs .bandArmed s (fun t =>
    t.flag F.MAP_STAT_ARMED = true ∧ (s.flag F.MAP_STAT_BAND = true → t.store.bandA = none) ∧
    (s.flag F.MAP_STAT_BAND = false → t.store.bandB = none))) ∧
  (∀ (s : State) (v : Word) (b : Bool), s.mayWrite .mgmt R.BOOT_CTL = true → s.seq.off = 0 → s.authorised = true →
    F.BOOT_CTL_KEY.of v = 0x4253 → s.flag F.MODE_HOLD_WHY_CONFIG = true → s.boot.val = none → s.seq.stage = .none → s.seq.afterWarm = false →
    F.BOOT_CTL_USE_B.on v = b → F.BOOT_CTL_RETRY.on v = !b → Runs (if b then .useB .mgmt v else .retry .mgmt v) s (fun t =>
      t.seq.stage = .validate ∧ t.boot.val = some b ∧ t.flag F.MODE_STAT_BUSY = true ∧ t.get F.BOOT_STAT_CTL_CODE = 0 ∧
      t.flag F.BOOT_STAT_VALIDATING = true)) ∧
  (∀ (s : State) (p : Path) (v : Word), s.mayWrite p R.BOOT_SEAL = true → p = .mgmt ∨ p = .cc → F.BOOT_SEAL_KEY.of v = 0x5345 →
    exec (.bootSeal p v) s = .next (s.put F.BOOT_STAT_SEALED 1)) ∧
  (∀ (s : State) (v : Word) (c : Instr) (op : Nat), (c, op) ∈ [(.flashRead .mgmt v, 1), (.flashProgram .mgmt v, 2), (.flashErase4k .mgmt v, 3),
    (Instr.flashErase64k .mgmt v, 4)] → F.BOOT_FL_CMD_OP.of v = op → s.mayWrite .mgmt R.BOOT_FL_CMD = true → F.BOOT_FL_CMD_GO.on v = true →
    s.flag F.BOOT_FL_STAT_BUSY = false →
    (s.authorised = false → exec c s = .next (s.put F.BOOT_FL_STAT_CODE 1)) ∧
    (s.authorised = true → s.boot.val = none → s.seq.stage ≠ .load → s.flashUsable = true →
      s.get F.BOOT_FL_ADDR_ADDR % flashAlign op = 0 → s.get F.BOOT_FL_ADDR_ADDR + flashAlign op ≤ s.flashSize →
      exec c s = .next (State.put { s with boot.op := some (op, s.get F.BOOT_FL_ADDR_ADDR) } F.BOOT_FL_STAT_BUSY 1))) ∧
  (∀ (s : State) (a : Nat),
    (s.boot.op = some (1, a) → Runs (.flashOpDone true) s (fun t => t.boot.op = none ∧ t.get F.BOOT_FL_STAT_BUSY = 0 ∧
      t.boot.flash = s.boot.flash ∧ ∀ i, i < 64 → mapGet? t.boot.win i = some (ofBytes 32 (s.flashBytes (a + 4 * i) 4)))) ∧
    (∀ op, op = 3 ∨ op = 4 → s.boot.op = some (op, a) → Runs (.flashOpDone true) s (fun t => ∀ x,
      (a ≤ x ∧ x < a + flashAlign op → t.flashBytes x 1 = [0xFF]) ∧
      (x < a ∨ a + flashAlign op ≤ x → t.flashBytes x 1 = s.flashBytes x 1))) ∧
    (s.boot.op = some (2, a) → Runs (.flashOpDone true) s (fun t => ∀ x, x < a ∨ a + 256 ≤ x → t.flashBytes x 1 = s.flashBytes x 1)) ∧
    (∀ op, s.boot.op = some (op, a) → Runs (.flashOpDone false) s (fun t => t.boot.op = none ∧ t.get F.BOOT_FL_STAT_CODE = 4 ∧
      t.boot.flash = s.boot.flash)))

/-- MODE_CTL and MODE_STORE (R386, R390, R392, R396 to R398, R402, R418 to R420): MODE_DIM moves the power axis in Lit or Dim;
MODE_RELEASE and MODE_SEAL have their effect; MODE_COLD begins a cold reset and MODE_WARM a warm one, each with its checks;
MODE_STORE_LOAD copies the record into the window; a MODE_STORE whose checks pass begins the store and one whose checks fail
shows its code; MODE_STORE_DONE shows its result. -/
def Obligations.ModeControl : Prop :=
  (∀ (s : State) (v : Word), s.mayWrite .mgmt R.MODE_CTL = true → s.authorised = true → F.MODE_CTL_COLD.on v = false →
    F.MODE_CTL_WARM.on v = false →
    (F.MODE_CTL_RELEASE.on v = false → F.MODE_CTL_SEAL.on v = false → s.lit = true → s.seq.warm = false →
      Runs (.modeDim .mgmt v) s (fun t => t.power = (if F.MODE_CTL_DIM.on v then pwDim else pwLit) ∧
        t.get F.MODE_CTL_DIM = F.MODE_CTL_DIM.of v ∧ t.get F.MODE_STAT_CODE = 0 ∧ dataKept s t)) ∧
    (F.MODE_CTL_RELEASE.on v = true → F.MODE_CTL_SEAL.on v = false → Runs (.modeRelease .mgmt v) s (fun t =>
      t.flag F.MODE_HOLD_WHY_RELEASE = false ∧ t.get F.MODE_STAT_CODE = 0)) ∧
    (F.MODE_CTL_RELEASE.on v = false → F.MODE_CTL_SEAL.on v = true → s.trust = trOwner → Runs (.modeSeal .mgmt v) s (fun t =>
      t.trust = trSealed ∧ t.get F.MODE_STAT_CODE = 0)) ∧
    (F.MODE_CTL_RELEASE.on v = false → F.MODE_CTL_SEAL.on v = true → s.trust ≠ trOwner → Runs (.modeSeal .mgmt v) s (fun t =>
      t.trust = s.trust ∧ t.get F.MODE_STAT_CODE = 5))) ∧
  (∀ (s : State) (v : Word), s.mayWrite .mgmt R.MODE_CTL = true → s.authorised = true → F.MODE_CTL_RELEASE.on v = false →
    F.MODE_CTL_SEAL.on v = false →
    (F.MODE_CTL_COLD.on v = true → F.MODE_CTL_KEY.of v ≠ 0x4D43 → Runs (.modeCold .mgmt v) s (fun t => t.get F.MODE_STAT_CODE = 1 ∧
      dataKept s t)) ∧
    (F.MODE_CTL_KEY.of v = 0x4D43 → s.steady = true → s.flag F.THM_STAT_LATCH = false →
      (F.MODE_CTL_COLD.on v = true → s.seq.left = false → s.store.imageRun = none → Runs (.modeCold .mgmt v) s (fun t =>
        t.seq.stage = .scan ∧ t.get F.MODE_RST_STAT_LAST = 3 ∧ t.key.slots = [] ∧ t.accesses = [] ∧ t.stq = [] ∧
        t.store.cells = s.store.cells)) ∧
      (F.MODE_CTL_COLD.on v = false → F.MODE_CTL_WARM.on v = true → s.service ≠ svHalted → Runs (.modeWarm .mgmt v) s (fun t =>
        t.seq.warm = true ∧ t.get F.MODE_RST_STAT_LAST = 5 ∧ t.boot.val.isSome = true ∧ t.flag F.BOOT_STAT_VALIDATING = true)))) ∧
  (∀ (s : State) (p : Path) (v : Word), s.mayWrite p R.BOOT_MS_CTL = true → p = .mgmt ∨ p = .cc → s.msBusy p = false →
    (F.BOOT_MS_CTL_LOAD.on v = true → F.BOOT_MS_CTL_GO.on v = false → F.BOOT_MS_CTL_KEY.of v = 0x4D53 →
      Runs (.modeStoreLoad p v) s (fun t => t.msEntries p = (match s.recUsed 1 with
        | some bs => recEntries bs
        | none => []) ∧ (t.path p).msStat = 0 ∧ t.nvs = s.nvs)) ∧
    (F.BOOT_MS_CTL_LOAD.on v = false → F.BOOT_MS_CTL_GO.on v = true →
      (F.BOOT_MS_CTL_KEY.of v ≠ 0x4D53 → exec (.modeStore p v) s = .next (s.msStat p 0 1 0)) ∧
      (F.BOOT_MS_CTL_KEY.of v = 0x4D53 → (p = .mgmt → s.authorised = true) → (p = .cc → s.flag F.BOOT_STAT_SEALED = false) →
        let c := s.msCheck (s.path p).msLen (s.msEntries p)
        (c.1 ≠ 0 → exec (.modeStore p v) s = .next (s.msStat p 0 c.1 c.2)) ∧
        (c.1 = 0 → Runs (.modeStore p v) s (fun t => t.boot.store = some (Path.num p, s.recNext 1) ∧ (t.path p).msStat = 1 ∧
          s.nvs.queue.length < t.nvs.queue.length))))) ∧
  (∀ (s : State) (k seq : Nat) (b : Bool), s.boot.store = some (k, b, seq) → seq < 2 ^ 32 →
    s.nvs.queue.any (fun w => match w.done with
      | .record 1 _ _ => true
      | .part 1 => true
      | _ => false) = false →
    (mapGet? s.nvs.inUse 1 = some b → (s.rd (R.NVS_REC_SEQ 1)).toNat = seq → Runs .modeStoreDone s (fun t =>
      t.boot.store = none ∧ (t.path (storePath k)).msStat = 0)) ∧
    (mapGet? s.nvs.inUse 1 ≠ some b → Runs .modeStoreDone s (fun t => t.boot.store = none ∧ (t.path (storePath k)).msStat = 16 ∧
      t.settings = s.settings)))

/-- R58: a port whose link is up completes GPF phase 1 and phase 2 as soon as it receives them, with nothing flushed, and counts
each request in its counter 15. -/
def Obligations.GpfCompletesAtOnce : Prop :=
  ∀ (s : State) (n : Fin 8), (s.port n).linkUp = true → ∀ c k, (c, k) ∈ [(Instr.gpfPhase1 n, 1), (.gpfPhase2 n, 2)] →
    Runs c s (fun t => t.out = .gpfDone n k :: s.out ∧ dataKept s t ∧ t.accesses = s.accesses ∧
      t.rd64 (R.HP_CNT_LO n 15) = (s.rd64 (R.HP_CNT_LO n 15) + 1) % 2 ^ 64)

/-- R334: dword c of the counter window holds the value of spread counter c, for the management port and the control cores; hosts
and engines read 0; the window is read-only. -/
def Obligations.CounterWindow : Prop :=
  ∀ (s : State) (c : Fin 64) (p : Path) (v : Word), s.seq.por = false →
    let off := BitVec.ofNat 26 (0x3000000 + 4 * c.val)
    (p = .mgmt ∨ p = .cc → exec (.counterLoRead p off) s = .next (s.say (.regData p (BitVec.ofNat 32 (s.spread c))))) ∧
    (p ≠ .mgmt → p ≠ .cc → exec (.counterLoRead p off) s = .next (s.say (.regData p 0))) ∧
    exec (.registerWrite p off v) s = .next s

/-- R368: a SYNC that times out in a power-up run is a sync fault, which aborts it (R374, R375); in a shutdown run the phase state
becomes the step's and the run goes on. -/
def Obligations.SyncTimeout : Prop :=
  ∀ (s : State) (st : Nat), s.seq.wait = .sync st → st < 32 → s.passed 52 (seqLimit s.stepWord * 200000) = true →
    (s.seq.run = some false → exec .seqSyncTimeout s = .next (State.abortUp { s.noteSync.seqFault faultSync noRail (s.get F.SEQ_STAT_STEP) with
      seq.noAuto := true })) ∧
    (s.seq.run = some true → s.stepOk (s.get F.SEQ_STAT_STEP + 1) → Runs .seqSyncTimeout s (fun t =>
      t.get F.SEQ_STAT_PHASE_STATE = st ∧ s.movedTo t (s.get F.SEQ_STAT_STEP + 1)))
end

