-- ==== Sys2Proof/Laws/Cipher.lean ====
section
/-! SUPPORT. AES-256, XTS, the stored line and key wrap: decryption undoes encryption, a stored line reads back as what was stored
(R78 to R82), and an unwrap gives what was wrapped (R75). -/

namespace Sys2Proof.Machine

/-- Decryption's substitution undoes encryption's. -/
theorem aesInvSub_aesSub (a : Byte) : aesInvSub (aesSub a) = a := by
  revert a; decide +kernel

/-- The tables are what FIPS 197 defines by the field. -/
theorem aesSub_eq_field (a : Byte) : aesSub a = aesSubField a := by
  revert a; decide +kernel

@[simp] theorem gfTimes_one (b : Byte) : gfTimes 1 b = b := by simp [gfTimes]
@[simp] theorem gfTimes_two (b : Byte) : gfTimes 2 b = xtime b := by simp [gfTimes]
@[simp] theorem gfTimes_three (b : Byte) : gfTimes 3 b = b ^^^ xtime b := by simp [gfTimes]
@[simp] theorem gfTimes_nine (b : Byte) : gfTimes 9 b = b ^^^ xtime (xtime (xtime b)) := by simp [gfTimes]
@[simp] theorem gfTimes_eleven (b : Byte) : gfTimes 11 b = b ^^^ xtime b ^^^ xtime (xtime (xtime b)) := by simp [gfTimes]
@[simp] theorem gfTimes_thirteen (b : Byte) : gfTimes 13 b = b ^^^ xtime (xtime b) ^^^ xtime (xtime (xtime b)) := by simp [gfTimes]
@[simp] theorem gfTimes_fourteen (b : Byte) : gfTimes 14 b = xtime b ^^^ xtime (xtime b) ^^^ xtime (xtime (xtime b)) := by simp [gfTimes]

theorem xor_left_comm (x y z : Byte) : x ^^^ (y ^^^ z) = y ^^^ (x ^^^ z) := by
  rw [← BitVec.xor_assoc, BitVec.xor_comm x, BitVec.xor_assoc]

theorem xor_self_left (x y : Byte) : x ^^^ (x ^^^ y) = y := by rw [← BitVec.xor_assoc, BitVec.xor_self, BitVec.zero_xor]

theorem xtime_xor (x y : Byte) : xtime (x ^^^ y) = xtime x ^^^ xtime y := by
  simp only [xtime, BitVec.msb_xor, BitVec.shiftLeft_xor_distrib]
  cases x.msb <;> cases y.msb <;> simp [BitVec.xor_assoc, BitVec.xor_comm, xor_left_comm]

theorem list16 {α : Type} (s : List α) (h : s.length = 16) : ∃ a b c d e f g i j k l m n o p q, s = [a, b, c, d, e, f, g, i, j, k, l, m, n, o, p, q] := by
  match s, h with
  | [a, b, c, d, e, f, g, i, j, k, l, m, n, o, p, q], _ => exact ⟨a, b, c, d, e, f, g, i, j, k, l, m, n, o, p, q, rfl⟩

/-- The products of a byte by the entries of the two matrices: the diagonal gives the byte, the rest nothing. -/
theorem mix_entries (a : Byte) :
    gfTimes 14 (gfTimes 2 a) ^^^ gfTimes 11 (gfTimes 1 a) ^^^ gfTimes 13 (gfTimes 1 a) ^^^ gfTimes 9 (gfTimes 3 a) = a ∧
    gfTimes 14 (gfTimes 3 a) ^^^ gfTimes 11 (gfTimes 2 a) ^^^ gfTimes 13 (gfTimes 1 a) ^^^ gfTimes 9 (gfTimes 1 a) = 0#8 ∧
    gfTimes 14 (gfTimes 1 a) ^^^ gfTimes 11 (gfTimes 3 a) ^^^ gfTimes 13 (gfTimes 2 a) ^^^ gfTimes 9 (gfTimes 1 a) = 0#8 ∧
    gfTimes 14 (gfTimes 1 a) ^^^ gfTimes 11 (gfTimes 1 a) ^^^ gfTimes 13 (gfTimes 3 a) ^^^ gfTimes 9 (gfTimes 2 a) = 0#8 := by
  simp only [gfTimes_one, gfTimes_two, gfTimes_three, gfTimes_nine, gfTimes_eleven, gfTimes_thirteen, gfTimes_fourteen, xtime_xor]
  generalize xtime (xtime (xtime (xtime a))) = a4, xtime (xtime (xtime a)) = a3, xtime (xtime a) = a2, xtime a = a1
  refine ⟨?_, ?_, ?_, ?_⟩ <;> simp only [BitVec.xor_assoc, BitVec.xor_comm, xor_left_comm, xor_self_left, BitVec.xor_self, BitVec.xor_zero]

theorem gfTimes_xor (k : Nat) (x y : Byte) (h : k ∈ [14, 11, 13, 9]) : gfTimes k (x ^^^ y) = gfTimes k x ^^^ gfTimes k y := by
  simp only [List.mem_cons, List.not_mem_nil, or_false] at h
  rcases h with rfl | rfl | rfl | rfl <;>
    simp only [gfTimes_nine, gfTimes_eleven, gfTimes_thirteen, gfTimes_fourteen, xtime_xor] <;> ac_rfl

/-- A row of the inverse matrix gives back a byte of the column. -/
theorem mix_row (a b c d x y z w : Byte) (hx : x = gfTimes 2 a ^^^ gfTimes 3 b ^^^ gfTimes 1 c ^^^ gfTimes 1 d)
    (hy : y = gfTimes 1 a ^^^ gfTimes 2 b ^^^ gfTimes 3 c ^^^ gfTimes 1 d) (hz : z = gfTimes 1 a ^^^ gfTimes 1 b ^^^ gfTimes 2 c ^^^ gfTimes 3 d)
    (hw : w = gfTimes 3 a ^^^ gfTimes 1 b ^^^ gfTimes 1 c ^^^ gfTimes 2 d) :
    gfTimes 14 x ^^^ gfTimes 11 y ^^^ gfTimes 13 z ^^^ gfTimes 9 w = a := by
  subst hx hy hz hw
  obtain ⟨ha, -, -, -⟩ := mix_entries a
  obtain ⟨-, hb, -, -⟩ := mix_entries b
  obtain ⟨-, -, hc, -⟩ := mix_entries c
  obtain ⟨-, -, -, hd⟩ := mix_entries d
  calc _ = (gfTimes 14 (gfTimes 2 a) ^^^ gfTimes 11 (gfTimes 1 a) ^^^ gfTimes 13 (gfTimes 1 a) ^^^ gfTimes 9 (gfTimes 3 a)) ^^^
      (gfTimes 14 (gfTimes 3 b) ^^^ gfTimes 11 (gfTimes 2 b) ^^^ gfTimes 13 (gfTimes 1 b) ^^^ gfTimes 9 (gfTimes 1 b)) ^^^
      (gfTimes 14 (gfTimes 1 c) ^^^ gfTimes 11 (gfTimes 3 c) ^^^ gfTimes 13 (gfTimes 2 c) ^^^ gfTimes 9 (gfTimes 1 c)) ^^^
      (gfTimes 14 (gfTimes 1 d) ^^^ gfTimes 11 (gfTimes 1 d) ^^^ gfTimes 13 (gfTimes 3 d) ^^^ gfTimes 9 (gfTimes 2 d)) := by
        simp only [gfTimes_xor _ _ _ (show (14 : Nat) ∈ [14, 11, 13, 9] by decide), gfTimes_xor _ _ _ (show (11 : Nat) ∈ [14, 11, 13, 9] by decide),
          gfTimes_xor _ _ _ (show (13 : Nat) ∈ [14, 11, 13, 9] by decide), gfTimes_xor _ _ _ (show (9 : Nat) ∈ [14, 11, 13, 9] by decide)]
        ac_rfl
    _ = a := by rw [ha, hb, hc, hd]; simp

/-- The inverse matrix on one column. -/
theorem mix_column (a b c d x y z w : Byte) (hx : x = gfTimes 2 a ^^^ gfTimes 3 b ^^^ gfTimes 1 c ^^^ gfTimes 1 d)
    (hy : y = gfTimes 1 a ^^^ gfTimes 2 b ^^^ gfTimes 3 c ^^^ gfTimes 1 d) (hz : z = gfTimes 1 a ^^^ gfTimes 1 b ^^^ gfTimes 2 c ^^^ gfTimes 3 d)
    (hw : w = gfTimes 3 a ^^^ gfTimes 1 b ^^^ gfTimes 1 c ^^^ gfTimes 2 d) :
    gfTimes 14 x ^^^ gfTimes 11 y ^^^ gfTimes 13 z ^^^ gfTimes 9 w = a ∧ gfTimes 9 x ^^^ gfTimes 14 y ^^^ gfTimes 11 z ^^^ gfTimes 13 w = b ∧
    gfTimes 13 x ^^^ gfTimes 9 y ^^^ gfTimes 14 z ^^^ gfTimes 11 w = c ∧ gfTimes 11 x ^^^ gfTimes 13 y ^^^ gfTimes 9 z ^^^ gfTimes 14 w = d := by
  refine ⟨mix_row a b c d x y z w hx hy hz hw, ?_, ?_, ?_⟩
  · refine Eq.trans ?_ (mix_row b c d a y z w x (by rw [hy]; ac_rfl) (by rw [hz]; ac_rfl) (by rw [hw]; ac_rfl) (by rw [hx]; ac_rfl))
    ac_rfl
  · refine Eq.trans ?_ (mix_row c d a b z w x y (by rw [hz]; ac_rfl) (by rw [hw]; ac_rfl) (by rw [hx]; ac_rfl) (by rw [hy]; ac_rfl))
    ac_rfl
  · refine Eq.trans ?_ (mix_row d a b c w x y z (by rw [hw]; ac_rfl) (by rw [hx]; ac_rfl) (by rw [hy]; ac_rfl) (by rw [hz]; ac_rfl))
    ac_rfl

theorem aesMix_undo (s : List Byte) (h : s.length = 16) : aesMixWith [14, 11, 13, 9] (aesMixWith [2, 3, 1, 1] s) = s := by
  obtain ⟨a, b, c, d, e, f, g, i, j, k, l, m, n, o, p, q, rfl⟩ := list16 s h
  have h1 := mix_column a b c d _ _ _ _ rfl rfl rfl rfl
  have h2 := mix_column e f g i _ _ _ _ rfl rfl rfl rfl
  have h3 := mix_column j k l m _ _ _ _ rfl rfl rfl rfl
  have h4 := mix_column n o p q _ _ _ _ rfl rfl rfl rfl
  simp only [aesMixWith, List.range, List.range.loop, List.map, List.foldl, List.getD_cons_zero, List.getD_cons_succ, Nat.reduceMul, Nat.reduceMod,
    Nat.reduceDiv, Nat.reduceAdd, Nat.reduceSub]
  simp only [show ∀ x : Byte, (0 : Byte) ^^^ x = x from fun x => BitVec.zero_xor, h1, h2, h3, h4]

theorem aesUnshift_aesShift (s : List Byte) (h : s.length = 16) : aesUnshift (aesShift s) = s := by
  obtain ⟨a, b, c, d, e, f, g, i, j, k, l, m, n, o, p, q, rfl⟩ := list16 s h
  rfl

/-! ### One block -/

theorem length_xorBytes (a b : List Byte) : (xorBytes a b).length = min a.length b.length := List.length_zipWith

/-- XOR with the same bytes twice. -/
theorem xorBytes_undo (a b : List Byte) (h : a.length ≤ b.length) : xorBytes (xorBytes a b) b = a := by
  induction a generalizing b with
  | nil => cases b <;> rfl
  | cons x xs ih =>
    cases b with
    | nil => simp at h
    | cons y ys =>
      have : (x ^^^ y) ^^^ y = x := by rw [BitVec.xor_assoc, BitVec.xor_self, BitVec.xor_zero]
      simp only [xorBytes, List.zipWith_cons_cons, this] at ih ⊢
      exact congrArg _ (ih ys (by simpa using h))

@[simp] theorem length_aesMixWith (m : List Nat) (s : List Byte) : (aesMixWith m s).length = 16 := by simp [aesMixWith]
@[simp] theorem length_aesShift (s : List Byte) : (aesShift s).length = 16 := by simp [aesShift]

theorem map_aesSub_undo (s : List Byte) : (s.map aesSub).map aesInvSub = s := by
  rw [List.map_map]
  exact (List.map_congr_left (fun a _ => aesInvSub_aesSub a)).trans (List.map_id' s)

theorem aesUnshift_map (f : Byte → Byte) (s : List Byte) (h : s.length = 16) : aesUnshift (s.map f) = (aesUnshift s).map f := by
  obtain ⟨a, b, c, d, e, f', g, i, j, k, l, m, n, o, p, q, rfl⟩ := list16 s h
  rfl

/-- What each round of encryption does to the state before its key, and each of decryption undoes. -/
theorem subShift_undo (s : List Byte) (h : s.length = 16) : (aesUnshift (aesShift (s.map aesSub))).map aesInvSub = s := by
  rw [aesUnshift_aesShift _ (by simpa using h), map_aesSub_undo]

theorem round_undo (s k : List Byte) (hk : k.length = 16) :
    aesMixWith [14, 11, 13, 9] (xorBytes (xorBytes (aesMixWith [2, 3, 1, 1] (aesShift (s.map aesSub))) k) k) = aesShift (s.map aesSub) := by
  rw [xorBytes_undo _ _ (by simp [hk]), aesMix_undo _ (by simp)]

/-- A key schedule: 60 words of 4 bytes. -/
theorem aesExpand_words (key : List Byte) (h : key.length = 32) :
    (aesExpand key).length = 60 ∧ ∀ w ∈ aesExpand key, w.length = 4 := by
  have base : (chunks 4 8 key).length = 8 ∧ ∀ w ∈ chunks 4 8 key, w.length = 4 := by
    match key, h with
    | [a0, a1, a2, a3, b0, b1, b2, b3, c0, c1, c2, c3, d0, d1, d2, d3, e0, e1, e2, e3, f0, f1, f2, f3, g0, g1, g2, g3, h0, h1, h2, h3], _ =>
      simp [chunks]
  have next : ∀ (i : Nat) (r : Byte) (p o : List Byte), p.length = 4 → o.length = 4 → (aesNextWord i r p o).length = 4 := by
    intro i r p o hp ho
    simp only [aesNextWord, length_xorBytes, ho]
    split
    · split
      · rename_i e
        have := congrArg List.length e
        simp [hp] at this
        simp [← this]
      · rename_i e
        have := congrArg List.length e
        simp [hp] at this
    · split <;> simp [hp]
  have fold : ∀ n, let ws := (List.range n).foldl (fun (ws : List (List Byte)) j =>
      let i := j + 8
      let rcon := (List.range (i / 8 - 1)).foldl (fun r _ => xtime r) 1#8
      ws ++ [aesNextWord i rcon (ws.getD (i - 1) []) (ws.getD (i - 8) [])]) (chunks 4 8 key)
      ws.length = 8 + n ∧ ∀ w ∈ ws, w.length = 4 := by
    intro n
    induction n with
    | zero => exact base
    | succ n ih =>
      simp only [List.range_succ, List.foldl_append, List.foldl_cons, List.foldl_nil]
      generalize (List.range n).foldl _ _ = ws at ih ⊢
      obtain ⟨hl, hw⟩ := ih
      have at_ : ∀ i, i < 8 + n → (ws.getD i []).length = 4 := by
        intro i hi
        rw [List.getD_eq_getElem _ _ (by omega)]
        exact hw _ (List.getElem_mem _)
      refine ⟨by simp [hl]; omega, fun w hm => ?_⟩
      rcases List.mem_append.mp hm with hm | hm
      · exact hw w hm
      · rw [List.mem_singleton.mp hm]
        exact next _ _ _ _ (at_ _ (by omega)) (at_ _ (by omega))
  exact fold 52

theorem length_flatten_words (ws : List (List Byte)) (h : ∀ w ∈ ws, w.length = 4) : ws.flatten.length = 4 * ws.length := by
  induction ws with
  | nil => rfl
  | cons w ws ih =>
    simp only [List.flatten_cons, List.length_append, List.length_cons, h w (by simp), ih (fun v hv => h v (by simp [hv]))]
    omega

theorem length_aesRoundKey (key : List Byte) (h : key.length = 32) (r : Nat) (hr : r ≤ 14) :
    (aesRoundKey (aesExpand key) r).length = 16 := by
  obtain ⟨hl, hw⟩ := aesExpand_words key h
  rw [aesRoundKey, length_flatten_words _ (fun w hm => hw w (List.mem_of_mem_drop (List.mem_of_mem_take hm)))]
  simp only [List.length_take, List.length_drop, hl]
  omega

/-- Decryption under a key undoes encryption under it. -/
theorem aesDec_aesEnc (key blk : List Byte) (hk : key.length = 32) (hb : blk.length = 16) : aesDec key (aesEnc key blk) = blk := by
  have hr := length_aesRoundKey key hk
  simp only [aesDec, aesEnc]
  generalize aesRoundKey (aesExpand key) = rk at hr ⊢
  let e : Nat → List Byte := fun n => (List.range n).foldl (fun s r =>
    xorBytes (aesMixWith [2, 3, 1, 1] (aesShift (s.map aesSub))) (rk (r + 1))) (xorBytes blk (rk 0))
  have es : ∀ n, e (n + 1) = xorBytes (aesMixWith [2, 3, 1, 1] (aesShift ((e n).map aesSub))) (rk (n + 1)) := by
    intro n
    simp only [e, List.range_succ, List.foldl_append, List.foldl_cons, List.foldl_nil]
  have el : ∀ n, n ≤ 13 → (e n).length = 16 := by
    intro n hn
    cases n with
    | zero => simp [e, length_xorBytes, hb, hr 0]
    | succ n => rw [es, length_xorBytes, length_aesMixWith, hr (n + 1) (by omega)]; rfl
  have d : ∀ n, n ≤ 13 → (List.range n).foldl (fun s r =>
      aesMixWith [14, 11, 13, 9] (xorBytes ((aesUnshift s).map aesInvSub) (rk (13 - r))))
      (xorBytes (xorBytes (aesShift ((e 13).map aesSub)) (rk 14)) (rk 14)) = aesShift ((e (13 - n)).map aesSub) := by
    intro n
    induction n with
    | zero => intro _; exact xorBytes_undo _ _ (by simp [hr 14])
    | succ n ih =>
      intro hn
      rw [List.range_succ, List.foldl_append, ih (by omega), List.foldl_cons, List.foldl_nil, subShift_undo _ (el _ (by omega))]
      obtain ⟨m, hm⟩ : ∃ m, 13 - n = m + 1 := ⟨12 - n, by omega⟩
      rw [hm, es, show 13 - (n + 1) = m by omega, round_undo _ _ (hr _ (by omega))]
  have := d 13 (by omega)
  simp only [e] at this
  rw [this, Nat.sub_self, subShift_undo _ (by simp [length_xorBytes, hb, hr 0])]
  exact xorBytes_undo _ _ (by simp [hb, hr 0])

theorem length_aesEnc (key blk : List Byte) (hk : key.length = 32) : (aesEnc key blk).length = 16 := by
  simp only [aesEnc, length_xorBytes, length_aesShift, length_aesRoundKey key hk 14 (Nat.le_refl _), Nat.min_self]

/-! ### XTS -/

@[simp] theorem length_xtsDouble (t : List Byte) : (xtsDouble t).length = 16 := by simp [xtsDouble, leBytes]

theorem length_xtsBlk (key t b : List Byte) (hk : key.length = 32) (ht : t.length = 16) : (xtsBlk (aesEnc key) t b).length = 16 := by
  rw [xtsBlk, length_xorBytes, length_aesEnc _ _ hk, ht]
  rfl

theorem xtsBlk_undo (key t b : List Byte) (hk : key.length = 32) (ht : t.length = 16) (hb : b.length = 16) :
    xtsBlk (aesDec key) t (xtsBlk (aesEnc key) t b) = b := by
  simp only [xtsBlk]
  rw [xorBytes_undo _ _ (by simp [length_aesEnc _ _ hk, ht]), aesDec_aesEnc _ _ hk (by simp [length_xorBytes, ht, hb]),
    xorBytes_undo _ _ (by simp [ht, hb])]

theorem xtsRun_undo (key : List Byte) (hk : key.length = 32) (t : List Byte) (ht : t.length = 16) (bs : List (List Byte))
    (hb : ∀ b ∈ bs, b.length = 16) : xtsRun (aesDec key) t (xtsRun (aesEnc key) t bs).1 = (bs, (xtsRun (aesEnc key) t bs).2) := by
  induction bs generalizing t with
  | nil => rfl
  | cons b bs ih =>
    have := ih (xtsDouble t) (by simp) (fun c hc => hb c (by simp [hc]))
    simp only [xtsRun, this, xtsBlk_undo key t b hk ht (hb b (by simp))]

theorem xtsRun_blocks (key : List Byte) (hk : key.length = 32) (t : List Byte) (ht : t.length = 16) (bs : List (List Byte)) :
    (xtsRun (aesEnc key) t bs).1.length = bs.length ∧ (∀ b ∈ (xtsRun (aesEnc key) t bs).1, b.length = 16) ∧
    (xtsRun (aesEnc key) t bs).2.length = 16 := by
  induction bs generalizing t with
  | nil => exact ⟨rfl, by simp [xtsRun], ht⟩
  | cons b bs ih =>
    obtain ⟨h1, h2, h3⟩ := ih (xtsDouble t) (by simp)
    refine ⟨by simp [xtsRun, h1], ?_, h3⟩
    intro c hc
    rcases List.mem_cons.mp hc with hc | hc
    · rw [hc]
      exact length_xtsBlk key t b hk ht
    · exact h2 c hc

theorem chunks_flatten {k : Nat} (hk : 0 < k) (n : Nat) (bs : List (List Byte)) (hn : bs.length = n) (h : ∀ b ∈ bs, b.length = k) :
    chunks k n bs.flatten = bs := by
  induction bs generalizing n with
  | nil => subst hn; rfl
  | cons b bs ih =>
    subst hn
    have hb := h b (by simp)
    have : (b ++ bs.flatten).isEmpty = false := by
      cases b with
      | nil => simp at hb; omega
      | cons => rfl
    simp only [List.length_cons, chunks, List.flatten_cons, this, Bool.false_eq_true, if_false]
    rw [List.take_append_of_le_length (by omega), List.drop_append_of_le_length (by omega), List.take_of_length_le (by omega),
      List.drop_of_length_le (by omega), List.nil_append, ih _ rfl (fun c hc => h c (by simp [hc]))]

theorem xtsRun_snoc (f : List Byte → List Byte) (t : List Byte) (bs : List (List Byte)) (b : List Byte) :
    xtsRun f t (bs ++ [b]) = ((xtsRun f t bs).1 ++ [xtsBlk f (xtsRun f t bs).2 b], xtsDouble (xtsRun f t bs).2) := by
  induction bs generalizing t with
  | nil => rfl
  | cons c bs ih => simp only [List.cons_append, xtsRun, ih]

theorem flatten_chunks {k : Nat} (hk : 0 < k) (n : Nat) (m : List Byte) (h : m.length = k * n) :
    (chunks k n m).flatten = m ∧ (chunks k n m).length = n ∧ ∀ b ∈ chunks k n m, b.length = k := by
  induction n generalizing m with
  | zero => exact ⟨by simpa [chunks] using (List.eq_nil_of_length_eq_zero (by simpa using h)).symm, rfl, by simp [chunks]⟩
  | succ n ih =>
    obtain ⟨h1, h2, h3⟩ := ih (m.drop k) (by rw [List.length_drop, h, Nat.mul_succ, Nat.add_sub_cancel])
    have : m.isEmpty = false := by
      cases m with
      | nil => simp at h; omega
      | cons => rfl
    simp only [chunks, this, Bool.false_eq_true, if_false]
    refine ⟨by rw [List.flatten_cons, h1, List.take_append_drop], by simp [h2], ?_⟩
    intro b hb
    rcases List.mem_cons.mp hb with hb | hb
    · rw [hb, List.length_take, h, Nat.mul_succ]; omega
    · exact h3 b hb

theorem length_flatten_blocks (bs : List (List Byte)) (h : ∀ b ∈ bs, b.length = 16) : bs.flatten.length = 16 * bs.length := by
  induction bs with
  | nil => rfl
  | cons b bs ih =>
    simp only [List.flatten_cons, List.length_append, List.length_cons, h b (by simp), ih (fun v hv => h v (by simp [hv]))]
    omega

theorem length_xtsEnc (k1 k2 t m : List Byte) (h1 : k1.length = 32) (h2 : k2.length = 32) (hm : 16 ≤ m.length) :
    (xtsEnc k1 k2 t m).length = m.length := by
  have ht := length_aesEnc k2 t h2
  simp only [xtsEnc]
  split
  · rename_i e
    obtain ⟨-, f2, f3⟩ := flatten_chunks (show 0 < 16 by decide) (m.length / 16) m (by omega)
    obtain ⟨r1, r2, -⟩ := xtsRun_blocks k1 h1 _ ht (chunks 16 (m.length / 16) m)
    rw [length_flatten_blocks _ r2, r1, f2]
    omega
  · rename_i e
    obtain ⟨-, f2, f3⟩ := flatten_chunks (show 0 < 16 by decide) (m.length / 16) (m.take (m.length / 16 * 16)) (by simp; omega)
    obtain ⟨r1, r2, r3⟩ := xtsRun_blocks k1 h1 _ ht (chunks 16 (m.length / 16) (m.take (m.length / 16 * 16)))
    generalize xtsRun (aesEnc k1) (aesEnc k2 t) (chunks 16 (m.length / 16) (m.take (m.length / 16 * 16))) = r at r1 r2 r3 ⊢
    have hne : r.1 ≠ [] := by
      intro h0
      rw [h0, f2] at r1
      simp at r1
      omega
    have hl : (r.1.getLastD []).length = 16 := by
      rw [List.getLastD_eq_getLast?, List.getLast?_eq_some_getLast hne]
      exact r2 _ (List.getLast_mem hne)
    simp only [List.length_append, length_xtsBlk _ _ _ h1 r3, List.length_take, hl, List.length_drop,
      length_flatten_blocks _ (fun b hb => r2 b (List.mem_of_mem_dropLast hb)), List.length_dropLast, r1, f2]
    omega

/-- XTS decryption undoes encryption, for whole blocks and with stealing (R78). -/
theorem xtsDec_xtsEnc (k1 k2 t m : List Byte) (h1 : k1.length = 32) (h2 : k2.length = 32) (hm : 16 ≤ m.length) :
    xtsDec k1 k2 t (xtsEnc k1 k2 t m) = m := by
  have ht := length_aesEnc k2 t h2
  have hl := length_xtsEnc k1 k2 t m h1 h2 hm
  simp only [xtsDec, hl]
  by_cases e : m.length % 16 = 0
  · obtain ⟨f1, f2, f3⟩ := flatten_chunks (show 0 < 16 by decide) (m.length / 16) m (by omega)
    obtain ⟨r1, r2, -⟩ := xtsRun_blocks k1 h1 _ ht (chunks 16 (m.length / 16) m)
    simp only [e, if_true, xtsEnc]
    rw [chunks_flatten (by decide) _ _ (r1.trans f2) r2, xtsRun_undo k1 h1 _ ht _ f3, f1]
  · obtain ⟨f1, f2, f3⟩ := flatten_chunks (show 0 < 16 by decide) (m.length / 16) (m.take (m.length / 16 * 16)) (by rw [List.length_take]; omega)
    simp only [e, if_false, xtsEnc]
    generalize hbs : chunks 16 (m.length / 16) (m.take (m.length / 16 * 16)) = bs at f1 f2 f3 ⊢
    have hne : bs ≠ [] := by
      intro h0
      rw [h0] at f2
      simp at f2
      omega
    obtain ⟨init, b, rfl⟩ : ∃ init b, bs = init ++ [b] := ⟨bs.dropLast, bs.getLast hne, (List.dropLast_append_getLast hne).symm⟩
    have hb : b.length = 16 := f3 b (by simp)
    have hi : ∀ c ∈ init, c.length = 16 := fun c hc => f3 c (by simp [hc])
    obtain ⟨r1, r2, r3⟩ := xtsRun_blocks k1 h1 _ ht init
    have hu := xtsRun_undo k1 h1 _ ht init hi
    rw [xtsRun_snoc]
    generalize xtsRun (aesEnc k1) (aesEnc k2 t) init = r at r1 r2 r3 hu ⊢
    have hc := length_xtsBlk k1 r.2 b h1 r3
    have hcu := xtsBlk_undo k1 r.2 b h1 r3 hb
    simp only [List.getLastD_concat, List.dropLast_concat]
    generalize xtsBlk (aesEnc k1) r.2 b = c at hc hcu ⊢
    have hk : (m.drop (m.length / 16 * 16)).length = m.length % 16 := by rw [List.length_drop]; omega
    have hm' : m = init.flatten ++ b ++ m.drop (m.length / 16 * 16) := by
      conv_lhs => rw [← List.take_append_drop (m.length / 16 * 16) m, ← f1]
      simp
    generalize m.drop (m.length / 16 * 16) = tail at hk hm' ⊢
    have htc : (tail ++ c.drop tail.length).length = 16 := by rw [List.length_append, List.length_drop, hk, hc]; omega
    have hB := length_xtsBlk k1 (xtsDouble r.2) (tail ++ c.drop tail.length) h1 (by simp)
    have hBu := xtsBlk_undo k1 (xtsDouble r.2) (tail ++ c.drop tail.length) h1 (by simp) htc
    generalize xtsBlk (aesEnc k1) (xtsDouble r.2) (tail ++ c.drop tail.length) = B at hB hBu ⊢
    have hn : m.length / 16 - 1 = r.1.length := by
      rw [List.length_append] at f2
      simp at f2
      omega
    have hlen : r.1.flatten.length = r.1.length * 16 := by rw [length_flatten_blocks _ r2, Nat.mul_comm]
    simp only [hn]
    simp only [List.append_assoc, ← hlen, List.take_left, List.drop_left]
    rw [show (r.1.length + 1) * 16 = r.1.flatten.length + 16 by omega, ← List.drop_drop, List.drop_left, chunks_flatten (by decide) _ _ rfl r2, hu]
    dsimp only
    have ht16 : List.take 16 (B ++ List.take tail.length c) = B := by rw [← hB, List.take_left]
    have hd16 : List.drop 16 (B ++ List.take tail.length c) = List.take tail.length c := by rw [← hB, List.drop_left]
    have hck : (List.take tail.length c).length = tail.length := by rw [List.length_take]; omega
    rw [ht16, hd16, hBu, hck, List.take_left, List.drop_left, List.take_append_drop, hcu, ← List.append_assoc]
    exact hm'.symm

/-! ### A stored line -/

@[simp] theorem length_toBytes {w : Nat} (n : Nat) (x : BitVec w) : (toBytes n x).length = n := by simp [toBytes]

theorem leNat_lt (bs : List Byte) : leNat bs < 256 ^ bs.length := by
  induction bs with
  | nil => simp [leNat]
  | cons b bs ih =>
    have := b.isLt
    simp only [leNat, List.length_cons, Nat.pow_succ]
    omega

theorem leNat_div (bs : List Byte) (i : Nat) : leNat bs / 256 ^ i % 256 = (bs.getD i 0).toNat := by
  induction bs generalizing i with
  | nil => simp [leNat]
  | cons b bs ih =>
    have := b.isLt
    cases i with
    | zero => simp [leNat]; omega
    | succ i =>
      rw [List.getD_cons_succ, ← ih i, Nat.pow_succ', ← Nat.div_div_eq_div_mul, leNat]
      congr 2
      omega

/-- Byte i of the vector of a list of bytes. -/
theorem byteAt_ofBytes (w : Nat) (bs : List Byte) (i : Nat) (h : 8 * (i + 1) ≤ w) : byteAt (ofBytes w bs) i = bs.getD i 0 := by
  refine BitVec.eq_of_toNat_eq ?_
  rw [byteAt, BitVec.extractLsb'_toNat, ofBytes, BitVec.toNat_ofNat, ← leNat_div, Nat.shiftRight_eq_div_pow, show 256 = 2 ^ 8 from rfl, ← Nat.pow_mul]
  obtain ⟨k, rfl⟩ : ∃ k, w = 8 * i + (8 + k) := ⟨w - 8 * (i + 1), by omega⟩
  rw [Nat.pow_add, Nat.mod_mul_right_div_self, Nat.pow_add, Nat.mod_mul_right_mod]

theorem toBytes_ofBytes (w n : Nat) (bs : List Byte) (h : 8 * n ≤ w) (hn : n ≤ bs.length) : toBytes n (ofBytes w bs) = bs.take n := by
  refine List.ext_getElem (by simp [hn]) (fun i h1 h2 => ?_)
  have hi : i < n := by simpa using h1
  simp only [toBytes, List.getElem_map, List.getElem_range, List.getElem_take]
  rw [byteAt_ofBytes _ _ _ (by omega), List.getD_eq_getElem _ _ (by omega)]

theorem leNat_snoc (bs : List Byte) (b : Byte) : leNat (bs ++ [b]) = leNat bs + 256 ^ bs.length * b.toNat := by
  induction bs with
  | nil => simp [leNat]
  | cons c bs ih => simp only [List.cons_append, leNat, ih, List.length_cons, Nat.pow_succ', Nat.mul_add, Nat.mul_assoc, Nat.add_assoc]

theorem leNat_toBytes {w : Nat} (n : Nat) (x : BitVec w) : leNat (toBytes n x) = x.toNat % 256 ^ n := by
  induction n with
  | zero => simp [toBytes, leNat, Nat.mod_one]
  | succ n ih =>
    have : toBytes (n + 1) x = toBytes n x ++ [byteAt x n] := by simp [toBytes, List.range_succ]
    rw [this, leNat_snoc, ih, length_toBytes, byteAt, BitVec.extractLsb'_toNat, Nat.shiftRight_eq_div_pow, Nat.pow_mul, show 2 ^ 8 = 256 from rfl,
      Nat.pow_succ 256 n, Nat.mod_mul]

/-- A vector is made again from its bytes. -/
theorem ofBytes_toBytes (n : Nat) (x : BitVec (8 * n)) : ofBytes (8 * n) (toBytes n x) = x := by
  refine BitVec.eq_of_toNat_eq ?_
  rw [ofBytes, BitVec.toNat_ofNat, leNat_toBytes, show (256 : Nat) = 2 ^ 8 from rfl, ← Nat.pow_mul, Nat.mod_mod, Nat.mod_eq_of_lt x.isLt]

theorem byteAt_extract {w : Nat} (x : BitVec w) (o n i : Nat) (h : 8 * (i + 1) ≤ n) : byteAt (x.extractLsb' (8 * o) n) i = byteAt x (o + i) := by
  refine BitVec.eq_of_getLsbD_eq (fun j hj => ?_)
  simp only [byteAt, BitVec.getLsbD_extractLsb']
  have : 8 * i + j < n := by omega
  simp only [hj, this, decide_true, Bool.true_and, Nat.mul_add, Nat.add_assoc]

theorem storedMeta_ofBytes (bs : List Byte) (h : 260 ≤ bs.length) : storedMeta (ofBytes 2432 bs) = ofBytes 32 ((bs.drop 256).take 4) := by
  refine (ofBytes_toBytes 4 (storedMeta (ofBytes 2432 bs))).symm.trans (congrArg (ofBytes 32) ?_)
  refine List.ext_getElem (by simp; omega) (fun i h1 h2 => ?_)
  have hi : i < 4 := by simpa using h1
  simp only [toBytes, List.getElem_map, List.getElem_range, List.getElem_take, List.getElem_drop]
  rw [show storedMeta (ofBytes 2432 bs) = (ofBytes 2432 bs).extractLsb' (8 * 256) 32 from rfl, byteAt_extract _ _ _ _ (by omega),
    byteAt_ofBytes _ _ _ (by omega), List.getD_eq_getElem _ _ (by omega)]

/-- META in its stored place, and the fields it was formed from (R80). -/
theorem metaWord_fields (l : LineImg) : metaTag (metaWord l) = l.keyTag.toNat ∧ metaPoison (metaWord l) = l.poison.toNat ∧
    metaInteg (metaWord l) = l.integ ∧ metaKgen (metaWord l) = l.kgen.toNat := by
  have h1 := l.keyTag.isLt
  have h2 := l.poison.isLt
  have h3 := l.kgen.isLt
  simp only [metaTag, metaPoison, metaInteg, metaKgen, fieldGet, metaWord, BitVec.getLsbD, BitVec.toNat_ofNat, Nat.testBit_eq_decide_div_mod_eq]
  cases l.integ <;> simp <;> omega

/-- What a stored line holds in its places. -/
theorem encodeStored_parts (k : KeySlot) (line : Nat) (l : LineImg) :
    let body := toBytes 256 l.data ++ toBytes 8 l.cc ++ (if l.integ then toBytes 8 l.mac else [])
    let ct := xtsEnc (toBytes 32 k.k1) (toBytes 32 k.k2) (xtsTweak line l.keyTag.toNat 1) body
    let n := if l.integ then 16 else 8
    storedMeta (encodeStored k 1 line l) = metaWord l ∧ (toBytes 256 (encodeStored k 1 line l) ++
      (toBytes 304 (encodeStored k 1 line l)).drop 260).take (256 + n) = ct := by
  intro body ct n
  have hb : body.length = 256 + n := by
    simp only [body, n]
    split <;> simp
  have hc : ct.length = 256 + n := by rw [length_xtsEnc _ _ _ _ (by simp) (by simp) (by omega), hb]
  have hn : n = 8 ∨ n = 16 := by simp only [n]; split <;> simp
  let p := toBytes (if l.integ then 27 else 36) (Config.bchParity l.integ (ofBytes 2216 (ct.take 256 ++ toBytes 4 (metaWord l) ++ ct.drop 256 ++ (if l.integ then [0] else []))))
  have he : encodeStored k 1 line l = ofBytes 2432 (ct.take 256 ++ (toBytes 4 (metaWord l) ++ (ct.drop 256 ++ ((if l.integ then [0] else []) ++ p)))) := by
    simp only [encodeStored, List.append_assoc, p, ct, body]
    rfl
  have hp : (ct.drop 256 ++ ((if l.integ then [0] else []) ++ p)).length = 44 := by
    simp only [List.length_append, List.length_drop, hc, p, length_toBytes, n]
    split <;> simp
  have hh : (ct.take 256).length = 256 := by rw [List.length_take]; omega
  have h4 : (toBytes 4 (metaWord l)).length = 4 := by simp
  rw [he]
  generalize (if l.integ then [0] else []) ++ p = q at hp ⊢
  refine ⟨?_, ?_⟩
  · rw [storedMeta_ofBytes _ (by simp only [List.length_append] at hp ⊢; omega), show List.drop 256 _ = List.drop (ct.take 256).length _ by rw [hh], List.drop_left,
      show List.take 4 _ = List.take (toBytes 4 (metaWord l)).length _ by rw [h4], List.take_left]
    exact ofBytes_toBytes 4 (metaWord l)
  · rw [toBytes_ofBytes _ _ _ (by omega) (by simp only [List.length_append] at hp ⊢; omega), toBytes_ofBytes _ _ _ (by omega) (by simp only [List.length_append] at hp ⊢; omega)]
    have t1 : ∀ x : List Byte, List.take 256 (ct.take 256 ++ x) = ct.take 256 := fun x => by
      rw [show List.take 256 (ct.take 256 ++ x) = List.take (ct.take 256).length (ct.take 256 ++ x) by rw [hh], List.take_left]
    have t2 : ∀ x : List Byte, List.drop 260 (ct.take 256 ++ (toBytes 4 (metaWord l) ++ x)) = x := fun x => by
      rw [← List.append_assoc, show 260 = (ct.take 256 ++ toBytes 4 (metaWord l)).length by rw [List.length_append, hh, h4], List.drop_left]
    have t3 : ∀ x : List Byte, List.take (256 + n) (ct.take 256 ++ (ct.drop 256 ++ x)) = ct := fun x => by
      rw [← List.append_assoc, List.take_append_drop, ← hc, List.take_left]
    have t0 : List.take 304 (ct.take 256 ++ (toBytes 4 (metaWord l) ++ (ct.drop 256 ++ q))) = ct.take 256 ++ (toBytes 4 (metaWord l) ++ (ct.drop 256 ++ q)) :=
      List.take_of_length_le (by simp only [List.length_append] at hp ⊢; omega)
    rw [t0, t1, t2, t3]

/-- A line encoded under a key and decrypted under it in the same integrity mode is the line (R78 to R80). -/
theorem decryptStored_encodeStored (k : KeySlot) (line : Nat) (l : LineImg) (h : l.integ = false → l.mac = 0) :
    decryptStored l.integ k line (encodeStored k 1 line l) = l := by
  obtain ⟨p1, p2⟩ := encodeStored_parts k line l
  obtain ⟨m1, m2, m3, m4⟩ := metaWord_fields l
  have hx : ∀ m, 16 ≤ m.length → xtsDec (toBytes 32 k.k1) (toBytes 32 k.k2) (xtsTweak line l.keyTag.toNat 1)
      (xtsEnc (toBytes 32 k.k1) (toBytes 32 k.k2) (xtsTweak line l.keyTag.toNat 1) m) = m :=
    fun m hm => xtsDec_xtsEnc _ _ _ m (by simp) (by simp) hm
  simp only [decryptStored, p1, p2, m1, m2, m3, m4]
  rw [hx _ (by simp; omega)]
  have hd : ∀ x : List Byte, List.take 256 (toBytes 256 l.data ++ x) = toBytes 256 l.data := fun x => by
    rw [show List.take 256 (toBytes 256 l.data ++ x) = List.take (toBytes 256 l.data).length _ by rw [length_toBytes], List.take_left]
  have hc : ∀ x : List Byte, List.take 8 (List.drop 256 (toBytes 256 l.data ++ (toBytes 8 l.cc ++ x))) = toBytes 8 l.cc := fun x => by
    rw [show List.drop 256 (toBytes 256 l.data ++ (toBytes 8 l.cc ++ x)) = List.drop (toBytes 256 l.data).length _ by rw [length_toBytes], List.drop_left,
      show List.take 8 (toBytes 8 l.cc ++ x) = List.take (toBytes 8 l.cc).length _ by rw [length_toBytes], List.take_left]
  have hm : ∀ x : List Byte, List.drop 264 (toBytes 256 l.data ++ (toBytes 8 l.cc ++ x)) = x := fun x => by
    rw [← List.append_assoc, show 264 = (toBytes 256 l.data ++ toBytes 8 l.cc).length by simp, List.drop_left]
  simp only [List.append_assoc, hd, hc, hm]
  have d1 : ofBytes 2048 (toBytes 256 l.data) = l.data := ofBytes_toBytes 256 l.data
  have d2 : ofBytes 64 (toBytes 8 l.cc) = l.cc := ofBytes_toBytes 8 l.cc
  have d3 : ofBytes 64 (toBytes 8 l.mac) = l.mac := ofBytes_toBytes 8 l.mac
  rw [d1, d2, BitVec.ofNat_toNat, BitVec.ofNat_toNat, BitVec.ofNat_toNat]
  cases hi : l.integ
  · cases l
    simp_all
  · cases l
    simp_all

/-- A line that was encoded is no unwritten one (R80, R144). -/
theorem not_unwritten (k : KeySlot) (line : Nat) (l : LineImg) : isUnwritten (encodeStored k 1 line l) = false := by
  obtain ⟨p1, -⟩ := encodeStored_parts k line l
  have : (metaWord l == BitVec.allOnes 32) = false := by
    refine beq_false_of_ne (fun e => ?_)
    have h1 := l.keyTag.isLt
    have h2 := l.poison.isLt
    have h3 := l.kgen.isLt
    have := congrArg BitVec.toNat e
    simp only [metaWord, BitVec.toNat_ofNat, BitVec.toNat_allOnes] at this
    split at this <;> omega
  simp only [isUnwritten, p1, this, Bool.false_and]

/-- A stored line reads back: what a line of the key read under it was stored as (R51, R78, R82, R90). -/
theorem readStored_encodeStored (s : State) (d : BitVec 512) (key line : Nat) (bulk : Bool) (k : KeySlot) (l : LineImg)
    (hk : s.readKeys d key l.keyTag.toNat l.kgen.toNat = .slot (some k)) (hi : l.integ = s.integ)
    (hm : l.mac = if l.integ then macOf k line l else 0) (hc : l.cc = carryChecks l.data) :
    s.readStored d key line bulk (encodeStored k 1 line l) = .ok l := by
  obtain ⟨p1, -⟩ := encodeStored_parts k line l
  obtain ⟨m1, -, -, m4⟩ := metaWord_fields l
  have hu := not_unwritten k line l
  have hd := decryptStored_encodeStored k line l (fun h0 => by rw [hm, h0]; rfl)
  rw [hi] at hd
  have hmac : macOk s.integ k line l = true := by
    simp only [macOk]
    cases h0 : s.integ
    · rfl
    · rw [hm, hi, h0]
      simp
  have hcc : ccOk l = true := by simp [ccOk, hc]
  simp only [State.readStored, hu, Bool.and_false, Bool.false_eq_true, if_false, p1, m1, m4, hk, hd, hmac, hcc, Bool.not_true]
  rw [← hi]

/-- A line stored under another MAC fails it (R82). -/
theorem readStored_macFail (s : State) (d : BitVec 512) (key line : Nat) (bulk : Bool) (k : KeySlot) (l : LineImg)
    (hk : s.readKeys d key l.keyTag.toNat l.kgen.toNat = .slot (some k)) (hi : l.integ = true) (hs : s.integ = true)
    (hm : l.mac ≠ macOf k line l) : s.readStored d key line bulk (encodeStored k 1 line l) = .macFail := by
  obtain ⟨p1, -⟩ := encodeStored_parts k line l
  obtain ⟨m1, -, -, m4⟩ := metaWord_fields l
  have hu := not_unwritten k line l
  have hd := decryptStored_encodeStored k line l (fun h0 => by rw [hi] at h0; exact absurd h0 (by decide))
  rw [hi] at hd
  have hmac : macOk true k line l = false := by simpa [macOk] using fun e => hm e.symm
  simp only [State.readStored, hu, Bool.and_false, Bool.false_eq_true, if_false, p1, m1, m4, hk, hs, hd, hmac, Bool.not_false, if_true]

/-! ### Key wrap -/

theorem length_beBytes (n x : Nat) : (beBytes n x).length = n := by simp [beBytes, leBytes]

/-- One step of a wrap of n blocks. -/
def kwStep (kek : List Byte) (n : Nat) (st : List Byte × List (List Byte)) (j : Nat) : List Byte × List (List Byte) :=
  let b := aesEnc kek (st.1 ++ st.2.getD (j % n) [])
  (xorBytes (b.take 8) (beBytes 8 (j + 1)), st.2.set (j % n) (b.drop 8))

/-- One step of an unwrap, which undoes step j. -/
def kwBack (kek : List Byte) (n : Nat) (st : List Byte × List (List Byte)) (j : Nat) : List Byte × List (List Byte) :=
  let b := aesDec kek (xorBytes st.1 (beBytes 8 (j + 1)) ++ st.2.getD (j % n) [])
  (b.take 8, st.2.set (j % n) (b.drop 8))

/-- What the steps keep: a register of 8 bytes and n blocks of 8. -/
def kwOk (n : Nat) (st : List Byte × List (List Byte)) : Prop := st.1.length = 8 ∧ st.2.length = n ∧ ∀ b ∈ st.2, b.length = 8

theorem kwStep_ok (kek : List Byte) (hk : kek.length = 32) (n j : Nat) (st) (h : kwOk n st) : kwOk n (kwStep kek n st j) := by
  obtain ⟨h1, h2, h3⟩ := h
  have hb := length_aesEnc kek (st.1 ++ st.2.getD (j % n) []) hk
  simp only [kwOk, kwStep]
  generalize aesEnc kek (st.1 ++ st.2.getD (j % n) []) = c at hb ⊢
  refine ⟨?_, (List.length_set).trans h2, fun b hm => ?_⟩
  · rw [length_xorBytes, List.length_take, hb, length_beBytes]
    rfl
  · rcases List.mem_or_eq_of_mem_set hm with hm | hm
    · exact h3 b hm
    · rw [hm, List.length_drop, hb]

theorem kwBack_kwStep (kek : List Byte) (hk : kek.length = 32) (n j : Nat) (hn : 0 < n) (st) (h : kwOk n st) :
    kwBack kek n (kwStep kek n st j) j = st := by
  obtain ⟨h1, h2, h3⟩ := h
  have hj : j % n < st.2.length := by rw [h2]; exact Nat.mod_lt _ hn
  have hr : (st.2.getD (j % n) []).length = 8 := by
    rw [List.getD_eq_getElem _ _ hj]
    exact h3 _ (List.getElem_mem _)
  have hb := length_aesEnc kek (st.1 ++ st.2.getD (j % n) []) hk
  have hd := aesDec_aesEnc kek (st.1 ++ st.2.getD (j % n) []) hk (by rw [List.length_append, h1, hr])
  simp only [kwBack, kwStep]
  generalize aesEnc kek (st.1 ++ st.2.getD (j % n) []) = b at hb hd ⊢
  have hs : (st.2.set (j % n) (b.drop 8)).getD (j % n) [] = b.drop 8 := by
    rw [List.getD_eq_getElem _ _ (by simpa using hj), List.getElem_set_self]
  rw [hs, xorBytes_undo _ _ (by rw [List.length_take, length_beBytes]; omega), List.take_append_drop, hd, ← h1, List.take_left, List.drop_left, List.set_set,
    List.getD_eq_getElem _ _ hj, List.set_getElem_self]

/-- m steps and the same steps back. -/
theorem kw_undo (kek : List Byte) (hk : kek.length = 32) (n : Nat) (hn : 0 < n) (st) (h : kwOk n st) (m : Nat) :
    kwOk n ((List.range m).foldl (kwStep kek n) st) ∧
    (List.range m).foldl (fun t i => kwBack kek n t (m - 1 - i)) ((List.range m).foldl (kwStep kek n) st) = st := by
  induction m with
  | zero => exact ⟨h, rfl⟩
  | succ m ih =>
    obtain ⟨ok, back⟩ := ih
    rw [List.range_succ, List.foldl_append]
    refine ⟨kwStep_ok kek hk n m _ ok, ?_⟩
    rw [show List.range m ++ [m] = List.range (m + 1) from List.range_succ.symm, List.range_succ_eq_map, List.foldl_cons, List.foldl_map]
    simp only [List.foldl_cons, List.foldl_nil, Nat.add_sub_cancel, Nat.sub_zero]
    rw [kwBack_kwStep kek hk n m hn _ ok]
    have hf : (fun (t : List Byte × List (List Byte)) i => kwBack kek n t (m - Nat.succ i)) = fun t i => kwBack kek n t (m - 1 - i) := by
      funext t i
      rw [Nat.sub_sub, Nat.succ_eq_add_one, Nat.add_comm i 1]
    rw [hf]
    exact back

theorem kwUnwrap_kwWrap (kek p : List Byte) (hk : kek.length = 32) (n : Nat) (hn : 0 < n) (hp : p.length = 8 * n) :
    kwUnwrapBytes kek (kwWrapBytes kek p) = some p ∧ (kwWrapBytes kek p).length = 8 * (n + 1) := by
  obtain ⟨f1, f2, f3⟩ := flatten_chunks (show 0 < 8 by decide) n p hp
  have h0 : kwOk n (kwIv, chunks 8 n p) := ⟨rfl, f2, f3⟩
  obtain ⟨⟨o1, o2, o3⟩, back⟩ := kw_undo kek hk n hn _ h0 (6 * n)
  have hw : kwWrapBytes kek p = ((List.range (6 * n)).foldl (kwStep kek n) (kwIv, chunks 8 n p)).1 ++ ((List.range (6 * n)).foldl (kwStep kek n) (kwIv, chunks 8 n p)).2.flatten := by
    simp only [kwWrapBytes, hp, Nat.mul_div_cancel_left n (show 0 < 8 by decide)]
    rfl
  generalize (List.range (6 * n)).foldl (kwStep kek n) (kwIv, chunks 8 n p) = st at o1 o2 o3 back hw
  have hfl : st.2.flatten.length = 8 * n := by
    rw [List.length_flatten, show st.2.map List.length = List.replicate st.2.length 8 from List.eq_replicate_iff.mpr ⟨by simp, by simpa using o3⟩,
      List.sum_replicate, o2, smul_eq_mul, Nat.mul_comm]
  have hl : (kwWrapBytes kek p).length = 8 * (n + 1) := by rw [hw, List.length_append, o1, hfl]; omega
  refine ⟨?_, hl⟩
  have hc : (kwWrapBytes kek p).length / 8 - 1 = n := by rw [hl]; omega
  have ht : (kwWrapBytes kek p).take 8 = st.1 := by rw [hw, ← o1, List.take_left]
  have hd : (kwWrapBytes kek p).drop 8 = st.2.flatten := by rw [hw, ← o1, List.drop_left]
  have hu : (List.range (6 * n)).foldl (fun t i => kwBack kek n t (6 * n - 1 - i)) st = (kwIv, chunks 8 n p) := back
  simp only [kwUnwrapBytes, hc, ht, hd, chunks_flatten (show 0 < 8 by decide) n st.2 o2 o3]
  have := congrArg (fun r : List Byte × List (List Byte) => if r.1 = kwIv then some r.2.flatten else none) hu
  simpa [kwBack, f1] using this
end Sys2Proof.Machine
end

