-- ==== Sys2Proof/Laws/SMap.lean ====
section
/-! SUPPORT. Sparse stores: a read after a write, and the canonical form that every operation keeps. -/

namespace Sys2Proof.Machine

theorem mapGet?_mapPut_same {V : Type} (m : SMap V) (i : Nat) (v : V) : mapGet? (mapPut m i v) i = some v := by
  induction m with
  | nil => simp [mapPut, mapGet?]
  | cons p m ih =>
    obtain ⟨k, w⟩ := p
    by_cases h : i < k
    · simp [mapPut, mapGet?, h]
    · by_cases h' : i = k
      · simp [mapPut, mapGet?, h']
      · simp [mapPut, mapGet?, h, h', ih]

theorem mapGet?_mapPut_ne {V : Type} (m : SMap V) (i j : Nat) (v : V) (hj : j ≠ i) :
    mapGet? (mapPut m i v) j = mapGet? m j := by
  induction m with
  | nil => simp [mapPut, mapGet?, hj]
  | cons p m ih =>
    obtain ⟨k, w⟩ := p
    by_cases h : i < k
    · simp [mapPut, mapGet?, h, hj]
    · by_cases h' : i = k
      · subst h'; simp [mapPut, mapGet?, hj]
      · simp [mapPut, mapGet?, h, h', ih]

theorem mapGet?_mapDel_same {V : Type} (m : SMap V) (i : Nat) : mapGet? (mapDel m i) i = none := by
  induction m with
  | nil => rfl
  | cons p m ih =>
    obtain ⟨k, w⟩ := p
    by_cases h : i = k
    · simp [mapDel, h, h ▸ ih]
    · simp [mapDel, mapGet?, h, ih]

theorem mapGet?_mapDel_ne {V : Type} (m : SMap V) (i j : Nat) (hj : j ≠ i) : mapGet? (mapDel m i) j = mapGet? m j := by
  induction m with
  | nil => rfl
  | cons p m ih =>
    obtain ⟨k, w⟩ := p
    by_cases h : i = k
    · subst h; simp [mapDel, mapGet?, hj, ih]
    · simp [mapDel, mapGet?, h, ih]

/-- A read after a write of the same key gives the value written. -/
@[simp] theorem mapGet_mapSet_same {V : Type} [DecidableEq V] (d : Nat → V) (m : SMap V) (i : Nat) (v : V) :
    mapGet d (mapSet d m i v) i = v := by
  by_cases h : v = d i
  · simp [mapSet, mapGet, h, mapGet?_mapDel_same]
  · simp [mapSet, mapGet, h, mapGet?_mapPut_same]

/-- A write leaves every other key alone. -/
theorem mapGet_mapSet_ne {V : Type} [DecidableEq V] (d : Nat → V) (m : SMap V) (i j : Nat) (v : V) (hj : j ≠ i) :
    mapGet d (mapSet d m i v) j = mapGet d m j := by
  by_cases h : v = d i
  · simp [mapSet, mapGet, h, mapGet?_mapDel_ne _ _ _ hj]
  · simp [mapSet, mapGet, h, mapGet?_mapPut_ne _ _ _ _ hj]

/-! ### The canonical form -/

/-- A bound below every key of a sorted store. -/
def below (lo : Option Nat) (k : Nat) : Prop := ∀ b, lo = some b → b < k

theorem mapSorted_cons {V : Type} (lo : Option Nat) (k : Nat) (v : V) (m : SMap V) :
    mapSorted lo ((k, v) :: m) = true ↔ below lo k ∧ mapSorted (some k) m = true := by
  cases lo <;> simp [mapSorted, below]

theorem mapSorted_weaken {V : Type} (m : SMap V) (b : Nat) (lo : Option Nat) (h : below lo b)
    (hs : mapSorted (some b) m = true) : mapSorted lo m = true := by
  cases m with
  | nil => rfl
  | cons p m =>
    obtain ⟨k, v⟩ := p
    rw [mapSorted_cons] at hs ⊢
    refine ⟨fun c hc => ?_, hs.2⟩
    exact lt_trans (h c hc) (hs.1 b rfl)

theorem mapPut_sorted {V : Type} (m : SMap V) (i : Nat) (v : V) (lo : Option Nat) (hb : below lo i)
    (hs : mapSorted lo m = true) : mapSorted lo (mapPut m i v) = true := by
  induction m generalizing lo with
  | nil => rw [mapPut, mapSorted_cons]; exact ⟨hb, rfl⟩
  | cons p m ih =>
    obtain ⟨k, w⟩ := p
    rw [mapSorted_cons] at hs
    by_cases h : i < k
    · simp only [mapPut, h, if_true, mapSorted_cons]
      exact ⟨hb, fun c hc => by cases hc; exact h, hs.2⟩
    · by_cases h' : i = k
      · subst h'
        simp only [mapPut, lt_irrefl, if_false, if_true, mapSorted_cons]
        exact ⟨hb, hs.2⟩
      · simp only [mapPut, h, h', if_false, mapSorted_cons]
        exact ⟨hs.1, ih (some k) (fun c hc => by cases hc; omega) hs.2⟩

theorem mapDel_sorted {V : Type} (m : SMap V) (i : Nat) (lo : Option Nat) (hs : mapSorted lo m = true) :
    mapSorted lo (mapDel m i) = true := by
  induction m generalizing lo with
  | nil => rfl
  | cons p m ih =>
    obtain ⟨k, w⟩ := p
    rw [mapSorted_cons] at hs
    by_cases h : i = k
    · simp only [mapDel, h, if_true]
      exact h ▸ ih lo (mapSorted_weaken m k lo hs.1 hs.2)
    · simp only [mapDel, h, if_false, mapSorted_cons]
      exact ⟨hs.1, ih (some k) hs.2⟩

theorem mem_mapPut {V : Type} (m : SMap V) (i : Nat) (v : V) (q : Nat × V) (h : q ∈ mapPut m i v) :
    q = (i, v) ∨ q ∈ m := by
  induction m with
  | nil => simpa [mapPut] using h
  | cons p m ih =>
    obtain ⟨k, w⟩ := p
    by_cases h1 : i < k
    · simp only [mapPut, h1, if_true, List.mem_cons] at h ⊢; tauto
    · by_cases h2 : i = k
      · simp only [mapPut, h2, lt_irrefl, if_false, if_true, List.mem_cons] at h ⊢; tauto
      · simp only [mapPut, h1, h2, if_false, List.mem_cons] at h ⊢
        rcases h with h | h
        · exact .inr (.inl h)
        · rcases ih h with h | h <;> tauto

theorem mem_mapDel {V : Type} (m : SMap V) (i : Nat) (q : Nat × V) (h : q ∈ mapDel m i) : q ∈ m := by
  induction m with
  | nil => simp [mapDel] at h
  | cons p m ih =>
    obtain ⟨k, w⟩ := p
    by_cases h2 : i = k
    · simp only [mapDel, h2, if_true] at h
      exact List.mem_cons_of_mem _ (ih (h2 ▸ h))
    · simp only [mapDel, h2, if_false, List.mem_cons] at h
      rcases h with h | h
      · exact h ▸ List.mem_cons_self
      · exact List.mem_cons_of_mem _ (ih h)

/-- A write keeps the canonical form of a total store. -/
theorem mapSet_wf {V : Type} [DecidableEq V] (d : Nat → V) (m : SMap V) (i : Nat) (v : V) (h : mapWfD d m = true) :
    mapWfD d (mapSet d m i v) = true := by
  simp only [mapWfD, Bool.and_eq_true, List.all_eq_true, decide_eq_true_eq] at h ⊢
  by_cases hv : v = d i
  · simp only [mapSet, hv, if_true]
    exact ⟨mapDel_sorted m i none h.1, fun q hq => h.2 q (mem_mapDel m i q hq)⟩
  · simp only [mapSet, hv, if_false]
    refine ⟨mapPut_sorted m i v none (fun c hc => by cases hc) h.1, fun q hq => ?_⟩
    rcases mem_mapPut m i v q hq with h' | h'
    · subst h'; exact hv
    · exact h.2 q h'

/-- A write keeps the canonical form of a partial store. -/
theorem mapPut_wf {V : Type} (m : SMap V) (i : Nat) (v : V) (h : mapWf m = true) : mapWf (mapPut m i v) = true :=
  mapPut_sorted m i v none (fun c hc => by cases hc) h

theorem mapDel_wf {V : Type} (m : SMap V) (i : Nat) (h : mapWf m = true) : mapWf (mapDel m i) = true :=
  mapDel_sorted m i none h

/-- Keeping some of the pairs keeps them in order. -/
theorem mapFilter_sorted {V : Type} (p : Nat → V → Bool) (m : SMap V) (lo : Option Nat) (h : mapSorted lo m = true) :
    mapSorted lo (mapFilter p m) = true := by
  induction m generalizing lo with
  | nil => rfl
  | cons q m ih =>
    obtain ⟨k, w⟩ := q
    rw [mapSorted_cons] at h
    by_cases hp : p k w = true
    · have : mapFilter p ((k, w) :: m) = (k, w) :: mapFilter p m := by simp [mapFilter, hp]
      rw [this, mapSorted_cons]
      exact ⟨h.1, ih (some k) h.2⟩
    · have : mapFilter p ((k, w) :: m) = mapFilter p m := by simp [mapFilter, hp]
      rw [this]
      exact ih lo (mapSorted_weaken m k lo h.1 h.2)

end Sys2Proof.Machine
end

