-- ==== Sys2Proof/Laws/Fields.lean ====
section
/-! SUPPORT. Registers and their fields: what a read gives after a write, and what a write leaves alone. -/

namespace Sys2Proof.Machine

theorem fieldMask_toNat (lo len : Nat) (h : lo + len ≤ 32) : (fieldMask lo len).toNat = (2 ^ len - 1) * 2 ^ lo := by
  have h1 : (2 ^ len - 1) * 2 ^ lo < 2 ^ 32 := by
    have h2 : 0 < 2 ^ len := by positivity
    have h3 : (2 ^ len - 1) * 2 ^ lo < 2 ^ len * 2 ^ lo := by
      apply Nat.mul_lt_mul_of_pos_right (by omega) (by positivity)
    have h4 : 2 ^ len * 2 ^ lo ≤ 2 ^ 32 := by rw [← pow_add]; exact Nat.pow_le_pow_right (by norm_num) (by omega)
    omega
  rw [fieldMask, BitVec.toNat_ofNat, Nat.mod_eq_of_lt h1]

theorem fieldMask_bit (lo len i : Nat) (h : lo + len ≤ 32) :
    (fieldMask lo len).getLsbD i = (decide (lo ≤ i) && decide (i < lo + len)) := by
  rw [BitVec.getLsbD, fieldMask_toNat lo len h]
  rw [Nat.testBit_mul_two_pow, Nat.testBit_two_pow_sub_one]
  by_cases h1 : lo ≤ i
  · simp only [h1, decide_true, Bool.true_and]
    congr 1; simp only [eq_iff_iff]; omega
  · simp [h1]

/-- A bit of a word whose field has been set. -/
theorem fieldPut_bit (w : Word) (lo len v i : Nat) (h : lo + len ≤ 32) (hi : i < 32) :
    (fieldPut w lo len v).getLsbD i =
      if lo ≤ i ∧ i < lo + len then v.testBit (i - lo) else w.getLsbD i := by
  have hv : (BitVec.ofNat 32 (v % 2 ^ len) <<< lo).getLsbD i =
      (decide (lo ≤ i) && decide (i < lo + len) && v.testBit (i - lo)) := by
    by_cases h1 : lo ≤ i
    · simp only [BitVec.getLsbD_shiftLeft, hi, decide_true, Bool.true_and, BitVec.getLsbD_ofNat]
      have : i - lo < 32 := by omega
      by_cases h2 : i < lo + len
      · have h3 : i - lo < len := by omega
        simp [h1, h2, h3, this, Nat.testBit_mod_two_pow]
      · have h3 : ¬ (i - lo < len) := by omega
        simp [h2, h3, Nat.testBit_mod_two_pow]
    · have : i < lo := by omega
      simp [this, h1]
  simp only [fieldPut, BitVec.getLsbD_or, BitVec.getLsbD_and, BitVec.getLsbD_not, fieldMask_bit lo len i h, hv, hi,
    decide_true, Bool.true_and]
  by_cases h1 : lo ≤ i <;> by_cases h2 : i < lo + len <;> simp [h1, h2]

theorem fieldGet_testBit (w : Word) (lo len i : Nat) :
    (fieldGet w lo len).testBit i = (decide (i < len) && w.getLsbD (lo + i)) := by
  simp [fieldGet, Nat.testBit_mod_two_pow, Nat.testBit_div_two_pow, BitVec.getLsbD, Nat.add_comm]

/-- A field read after it is set. -/
theorem fieldGet_fieldPut_same (w : Word) (lo len v : Nat) (h : lo + len ≤ 32) :
    fieldGet (fieldPut w lo len v) lo len = v % 2 ^ len := by
  apply Nat.eq_of_testBit_eq
  intro i
  rw [fieldGet_testBit, Nat.testBit_mod_two_pow]
  by_cases hi : i < len
  · rw [fieldPut_bit w lo len v (lo + i) h (by omega)]
    have : lo ≤ lo + i ∧ lo + i < lo + len := by omega
    simp [hi]
  · simp [hi]

/-- A field beside the one that is set. -/
theorem fieldGet_fieldPut_other (w : Word) (lo len v lo' len' : Nat) (h : lo + len ≤ 32) (h' : lo' + len' ≤ 32)
    (hd : lo' + len' ≤ lo ∨ lo + len ≤ lo') : fieldGet (fieldPut w lo len v) lo' len' = fieldGet w lo' len' := by
  apply Nat.eq_of_testBit_eq
  intro i
  rw [fieldGet_testBit, fieldGet_testBit]
  by_cases hi : i < len'
  · rw [fieldPut_bit w lo len v (lo' + i) h (by omega)]
    have : ¬ (lo ≤ lo' + i ∧ lo' + i < lo + len) := by omega
    simp [hi, this]
  · simp [hi]

/-! ### Registers -/

@[simp] theorem State.rd_wr_same (s : State) (off : Nat) (v : Word) : (s.wr off v).rd off = v := by
  simp [State.rd, State.wr]

theorem State.rd_wr_ne (s : State) (a b : Nat) (v : Word) (h : b ≠ a) : (s.wr a v).rd b = s.rd b := by
  simp [State.rd, State.wr, mapGet_mapSet_ne _ _ _ _ _ h]

/-- A field read after it is set. -/
theorem State.get_put_same (s : State) (f : Fld) (v : Nat) (h : f.lo + f.len ≤ 32) : (s.put f v).get f = v % 2 ^ f.len := by
  simp [State.get, State.put, fieldGet_fieldPut_same _ _ _ _ h]

/-- A field of another register. -/
theorem State.get_put_ne (s : State) (f g : Fld) (v : Nat) (h : g.off ≠ f.off) : (s.put f v).get g = s.get g := by
  simp [State.get, State.put, State.rd_wr_ne _ _ _ _ h]

/-- Another field of the same register. -/
theorem State.get_put_other (s : State) (f g : Fld) (v : Nat) (ho : g.off = f.off) (h : f.lo + f.len ≤ 32)
    (h' : g.lo + g.len ≤ 32) (hd : g.lo + g.len ≤ f.lo ∨ f.lo + f.len ≤ g.lo) : (s.put f v).get g = s.get g := by
  simp [State.get, State.put, ho, fieldGet_fieldPut_other _ _ _ _ _ _ h h' hd]

theorem State.get_wr_ne (s : State) (a : Nat) (g : Fld) (v : Word) (h : g.off ≠ a) : (s.wr a v).get g = s.get g := by
  simp [State.get, State.rd_wr_ne _ _ _ _ h]

theorem State.rd_put_ne (s : State) (f : Fld) (b v : Nat) (h : b ≠ f.off) : (s.put f v).rd b = s.rd b := by
  simp [State.put, State.rd_wr_ne _ _ _ _ h]

end Sys2Proof.Machine
end

