-- ==== Sys2Proof/Laws/State.lean ====
section
/-! SUPPORT. What each shared update leaves alone: one lemma for each field of the state, true by the definition. -/

namespace Sys2Proof.Machine

/-! ### State.wr -/

@[simp] theorem State.wr_settings (s : State) (off : Nat) (v : Word) : (s.wr off v).settings = s.settings := rfl
@[simp] theorem State.wr_aonTick (s : State) (off : Nat) (v : Word) : (s.wr off v).aonTick = s.aonTick := rfl
@[simp] theorem State.wr_aonPhase (s : State) (off : Nat) (v : Word) : (s.wr off v).aonPhase = s.aonPhase := rfl
@[simp] theorem State.wr_now (s : State) (off : Nat) (v : Word) : (s.wr off v).now = s.now := rfl
@[simp] theorem State.wr_freeCtr (s : State) (off : Nat) (v : Word) : (s.wr off v).freeCtr = s.freeCtr := rfl
@[simp] theorem State.wr_rgn (s : State) (off : Nat) (v : Word) : (s.wr off v).rgn = s.rgn := rfl
@[simp] theorem State.wr_ports (s : State) (off : Nat) (v : Word) : (s.wr off v).ports = s.ports := rfl
@[simp] theorem State.wr_accesses (s : State) (off : Nat) (v : Word) : (s.wr off v).accesses = s.accesses := rfl
@[simp] theorem State.wr_key (s : State) (off : Nat) (v : Word) : (s.wr off v).key = s.key := rfl
@[simp] theorem State.wr_adm (s : State) (off : Nat) (v : Word) : (s.wr off v).adm = s.adm := rfl
@[simp] theorem State.wr_store (s : State) (off : Nat) (v : Word) : (s.wr off v).store = s.store := rfl
@[simp] theorem State.wr_evr (s : State) (off : Nat) (v : Word) : (s.wr off v).evr = s.evr := rfl
@[simp] theorem State.wr_nvs (s : State) (off : Nat) (v : Word) : (s.wr off v).nvs = s.nvs := rfl
@[simp] theorem State.wr_board (s : State) (off : Nat) (v : Word) : (s.wr off v).board = s.board := rfl
@[simp] theorem State.wr_clu (s : State) (off : Nat) (v : Word) : (s.wr off v).clu = s.clu := rfl
@[simp] theorem State.wr_stq (s : State) (off : Nat) (v : Word) : (s.wr off v).stq = s.stq := rfl
@[simp] theorem State.wr_dom (s : State) (off : Nat) (v : Word) : (s.wr off v).dom = s.dom := rfl
@[simp] theorem State.wr_orb (s : State) (off : Nat) (v : Word) : (s.wr off v).orb = s.orb := rfl
@[simp] theorem State.wr_paths (s : State) (off : Nat) (v : Word) : (s.wr off v).paths = s.paths := rfl
@[simp] theorem State.wr_wear (s : State) (off : Nat) (v : Word) : (s.wr off v).wear = s.wear := rfl
@[simp] theorem State.wr_dies (s : State) (off : Nat) (v : Word) : (s.wr off v).dies = s.dies := rfl
@[simp] theorem State.wr_thm (s : State) (off : Nat) (v : Word) : (s.wr off v).thm = s.thm := rfl
@[simp] theorem State.wr_seq (s : State) (off : Nat) (v : Word) : (s.wr off v).seq = s.seq := rfl
@[simp] theorem State.wr_kvc (s : State) (off : Nat) (v : Word) : (s.wr off v).kvc = s.kvc := rfl
@[simp] theorem State.wr_boot (s : State) (off : Nat) (v : Word) : (s.wr off v).boot = s.boot := rfl
@[simp] theorem State.wr_modeTicks (s : State) (off : Nat) (v : Word) : (s.wr off v).modeTicks = s.modeTicks := rfl
@[simp] theorem State.wr_marks (s : State) (off : Nat) (v : Word) : (s.wr off v).marks = s.marks := rfl
@[simp] theorem State.wr_out (s : State) (off : Nat) (v : Word) : (s.wr off v).out = s.out := rfl
@[simp] theorem State.wr_pending (s : State) (off : Nat) (v : Word) : (s.wr off v).pending = s.pending := rfl

/-! ### State.put -/

@[simp] theorem State.put_settings (s : State) (f : Fld) (v : Nat) : (s.put f v).settings = s.settings := rfl
@[simp] theorem State.put_aonTick (s : State) (f : Fld) (v : Nat) : (s.put f v).aonTick = s.aonTick := rfl
@[simp] theorem State.put_aonPhase (s : State) (f : Fld) (v : Nat) : (s.put f v).aonPhase = s.aonPhase := rfl
@[simp] theorem State.put_now (s : State) (f : Fld) (v : Nat) : (s.put f v).now = s.now := rfl
@[simp] theorem State.put_freeCtr (s : State) (f : Fld) (v : Nat) : (s.put f v).freeCtr = s.freeCtr := rfl
@[simp] theorem State.put_rgn (s : State) (f : Fld) (v : Nat) : (s.put f v).rgn = s.rgn := rfl
@[simp] theorem State.put_ports (s : State) (f : Fld) (v : Nat) : (s.put f v).ports = s.ports := rfl
@[simp] theorem State.put_accesses (s : State) (f : Fld) (v : Nat) : (s.put f v).accesses = s.accesses := rfl
@[simp] theorem State.put_key (s : State) (f : Fld) (v : Nat) : (s.put f v).key = s.key := rfl
@[simp] theorem State.put_adm (s : State) (f : Fld) (v : Nat) : (s.put f v).adm = s.adm := rfl
@[simp] theorem State.put_store (s : State) (f : Fld) (v : Nat) : (s.put f v).store = s.store := rfl
@[simp] theorem State.put_evr (s : State) (f : Fld) (v : Nat) : (s.put f v).evr = s.evr := rfl
@[simp] theorem State.put_nvs (s : State) (f : Fld) (v : Nat) : (s.put f v).nvs = s.nvs := rfl
@[simp] theorem State.put_board (s : State) (f : Fld) (v : Nat) : (s.put f v).board = s.board := rfl
@[simp] theorem State.put_clu (s : State) (f : Fld) (v : Nat) : (s.put f v).clu = s.clu := rfl
@[simp] theorem State.put_stq (s : State) (f : Fld) (v : Nat) : (s.put f v).stq = s.stq := rfl
@[simp] theorem State.put_dom (s : State) (f : Fld) (v : Nat) : (s.put f v).dom = s.dom := rfl
@[simp] theorem State.put_orb (s : State) (f : Fld) (v : Nat) : (s.put f v).orb = s.orb := rfl
@[simp] theorem State.put_paths (s : State) (f : Fld) (v : Nat) : (s.put f v).paths = s.paths := rfl
@[simp] theorem State.put_wear (s : State) (f : Fld) (v : Nat) : (s.put f v).wear = s.wear := rfl
@[simp] theorem State.put_dies (s : State) (f : Fld) (v : Nat) : (s.put f v).dies = s.dies := rfl
@[simp] theorem State.put_thm (s : State) (f : Fld) (v : Nat) : (s.put f v).thm = s.thm := rfl
@[simp] theorem State.put_seq (s : State) (f : Fld) (v : Nat) : (s.put f v).seq = s.seq := rfl
@[simp] theorem State.put_kvc (s : State) (f : Fld) (v : Nat) : (s.put f v).kvc = s.kvc := rfl
@[simp] theorem State.put_boot (s : State) (f : Fld) (v : Nat) : (s.put f v).boot = s.boot := rfl
@[simp] theorem State.put_modeTicks (s : State) (f : Fld) (v : Nat) : (s.put f v).modeTicks = s.modeTicks := rfl
@[simp] theorem State.put_marks (s : State) (f : Fld) (v : Nat) : (s.put f v).marks = s.marks := rfl
@[simp] theorem State.put_out (s : State) (f : Fld) (v : Nat) : (s.put f v).out = s.out := rfl
@[simp] theorem State.put_pending (s : State) (f : Fld) (v : Nat) : (s.put f v).pending = s.pending := rfl

/-! ### State.sat -/

@[simp] theorem State.sat_settings (s : State) (f : Fld) (k : Nat) : (s.sat f k).settings = s.settings := rfl
@[simp] theorem State.sat_aonTick (s : State) (f : Fld) (k : Nat) : (s.sat f k).aonTick = s.aonTick := rfl
@[simp] theorem State.sat_aonPhase (s : State) (f : Fld) (k : Nat) : (s.sat f k).aonPhase = s.aonPhase := rfl
@[simp] theorem State.sat_now (s : State) (f : Fld) (k : Nat) : (s.sat f k).now = s.now := rfl
@[simp] theorem State.sat_freeCtr (s : State) (f : Fld) (k : Nat) : (s.sat f k).freeCtr = s.freeCtr := rfl
@[simp] theorem State.sat_rgn (s : State) (f : Fld) (k : Nat) : (s.sat f k).rgn = s.rgn := rfl
@[simp] theorem State.sat_ports (s : State) (f : Fld) (k : Nat) : (s.sat f k).ports = s.ports := rfl
@[simp] theorem State.sat_accesses (s : State) (f : Fld) (k : Nat) : (s.sat f k).accesses = s.accesses := rfl
@[simp] theorem State.sat_key (s : State) (f : Fld) (k : Nat) : (s.sat f k).key = s.key := rfl
@[simp] theorem State.sat_adm (s : State) (f : Fld) (k : Nat) : (s.sat f k).adm = s.adm := rfl
@[simp] theorem State.sat_store (s : State) (f : Fld) (k : Nat) : (s.sat f k).store = s.store := rfl
@[simp] theorem State.sat_evr (s : State) (f : Fld) (k : Nat) : (s.sat f k).evr = s.evr := rfl
@[simp] theorem State.sat_nvs (s : State) (f : Fld) (k : Nat) : (s.sat f k).nvs = s.nvs := rfl
@[simp] theorem State.sat_board (s : State) (f : Fld) (k : Nat) : (s.sat f k).board = s.board := rfl
@[simp] theorem State.sat_clu (s : State) (f : Fld) (k : Nat) : (s.sat f k).clu = s.clu := rfl
@[simp] theorem State.sat_stq (s : State) (f : Fld) (k : Nat) : (s.sat f k).stq = s.stq := rfl
@[simp] theorem State.sat_dom (s : State) (f : Fld) (k : Nat) : (s.sat f k).dom = s.dom := rfl
@[simp] theorem State.sat_orb (s : State) (f : Fld) (k : Nat) : (s.sat f k).orb = s.orb := rfl
@[simp] theorem State.sat_paths (s : State) (f : Fld) (k : Nat) : (s.sat f k).paths = s.paths := rfl
@[simp] theorem State.sat_wear (s : State) (f : Fld) (k : Nat) : (s.sat f k).wear = s.wear := rfl
@[simp] theorem State.sat_dies (s : State) (f : Fld) (k : Nat) : (s.sat f k).dies = s.dies := rfl
@[simp] theorem State.sat_thm (s : State) (f : Fld) (k : Nat) : (s.sat f k).thm = s.thm := rfl
@[simp] theorem State.sat_seq (s : State) (f : Fld) (k : Nat) : (s.sat f k).seq = s.seq := rfl
@[simp] theorem State.sat_kvc (s : State) (f : Fld) (k : Nat) : (s.sat f k).kvc = s.kvc := rfl
@[simp] theorem State.sat_boot (s : State) (f : Fld) (k : Nat) : (s.sat f k).boot = s.boot := rfl
@[simp] theorem State.sat_modeTicks (s : State) (f : Fld) (k : Nat) : (s.sat f k).modeTicks = s.modeTicks := rfl
@[simp] theorem State.sat_marks (s : State) (f : Fld) (k : Nat) : (s.sat f k).marks = s.marks := rfl
@[simp] theorem State.sat_out (s : State) (f : Fld) (k : Nat) : (s.sat f k).out = s.out := rfl
@[simp] theorem State.sat_pending (s : State) (f : Fld) (k : Nat) : (s.sat f k).pending = s.pending := rfl

/-! ### State.satReg -/

@[simp] theorem State.satReg_settings (s : State) (off k : Nat) : (s.satReg off k).settings = s.settings := rfl
@[simp] theorem State.satReg_aonTick (s : State) (off k : Nat) : (s.satReg off k).aonTick = s.aonTick := rfl
@[simp] theorem State.satReg_aonPhase (s : State) (off k : Nat) : (s.satReg off k).aonPhase = s.aonPhase := rfl
@[simp] theorem State.satReg_now (s : State) (off k : Nat) : (s.satReg off k).now = s.now := rfl
@[simp] theorem State.satReg_freeCtr (s : State) (off k : Nat) : (s.satReg off k).freeCtr = s.freeCtr := rfl
@[simp] theorem State.satReg_rgn (s : State) (off k : Nat) : (s.satReg off k).rgn = s.rgn := rfl
@[simp] theorem State.satReg_ports (s : State) (off k : Nat) : (s.satReg off k).ports = s.ports := rfl
@[simp] theorem State.satReg_accesses (s : State) (off k : Nat) : (s.satReg off k).accesses = s.accesses := rfl
@[simp] theorem State.satReg_key (s : State) (off k : Nat) : (s.satReg off k).key = s.key := rfl
@[simp] theorem State.satReg_adm (s : State) (off k : Nat) : (s.satReg off k).adm = s.adm := rfl
@[simp] theorem State.satReg_store (s : State) (off k : Nat) : (s.satReg off k).store = s.store := rfl
@[simp] theorem State.satReg_evr (s : State) (off k : Nat) : (s.satReg off k).evr = s.evr := rfl
@[simp] theorem State.satReg_nvs (s : State) (off k : Nat) : (s.satReg off k).nvs = s.nvs := rfl
@[simp] theorem State.satReg_board (s : State) (off k : Nat) : (s.satReg off k).board = s.board := rfl
@[simp] theorem State.satReg_clu (s : State) (off k : Nat) : (s.satReg off k).clu = s.clu := rfl
@[simp] theorem State.satReg_stq (s : State) (off k : Nat) : (s.satReg off k).stq = s.stq := rfl
@[simp] theorem State.satReg_dom (s : State) (off k : Nat) : (s.satReg off k).dom = s.dom := rfl
@[simp] theorem State.satReg_orb (s : State) (off k : Nat) : (s.satReg off k).orb = s.orb := rfl
@[simp] theorem State.satReg_paths (s : State) (off k : Nat) : (s.satReg off k).paths = s.paths := rfl
@[simp] theorem State.satReg_wear (s : State) (off k : Nat) : (s.satReg off k).wear = s.wear := rfl
@[simp] theorem State.satReg_dies (s : State) (off k : Nat) : (s.satReg off k).dies = s.dies := rfl
@[simp] theorem State.satReg_thm (s : State) (off k : Nat) : (s.satReg off k).thm = s.thm := rfl
@[simp] theorem State.satReg_seq (s : State) (off k : Nat) : (s.satReg off k).seq = s.seq := rfl
@[simp] theorem State.satReg_kvc (s : State) (off k : Nat) : (s.satReg off k).kvc = s.kvc := rfl
@[simp] theorem State.satReg_boot (s : State) (off k : Nat) : (s.satReg off k).boot = s.boot := rfl
@[simp] theorem State.satReg_modeTicks (s : State) (off k : Nat) : (s.satReg off k).modeTicks = s.modeTicks := rfl
@[simp] theorem State.satReg_marks (s : State) (off k : Nat) : (s.satReg off k).marks = s.marks := rfl
@[simp] theorem State.satReg_out (s : State) (off k : Nat) : (s.satReg off k).out = s.out := rfl
@[simp] theorem State.satReg_pending (s : State) (off k : Nat) : (s.satReg off k).pending = s.pending := rfl

/-! ### State.wr64 -/

@[simp] theorem State.wr64_settings (s : State) (lo v : Nat) : (s.wr64 lo v).settings = s.settings := rfl
@[simp] theorem State.wr64_aonTick (s : State) (lo v : Nat) : (s.wr64 lo v).aonTick = s.aonTick := rfl
@[simp] theorem State.wr64_aonPhase (s : State) (lo v : Nat) : (s.wr64 lo v).aonPhase = s.aonPhase := rfl
@[simp] theorem State.wr64_now (s : State) (lo v : Nat) : (s.wr64 lo v).now = s.now := rfl
@[simp] theorem State.wr64_freeCtr (s : State) (lo v : Nat) : (s.wr64 lo v).freeCtr = s.freeCtr := rfl
@[simp] theorem State.wr64_rgn (s : State) (lo v : Nat) : (s.wr64 lo v).rgn = s.rgn := rfl
@[simp] theorem State.wr64_ports (s : State) (lo v : Nat) : (s.wr64 lo v).ports = s.ports := rfl
@[simp] theorem State.wr64_accesses (s : State) (lo v : Nat) : (s.wr64 lo v).accesses = s.accesses := rfl
@[simp] theorem State.wr64_key (s : State) (lo v : Nat) : (s.wr64 lo v).key = s.key := rfl
@[simp] theorem State.wr64_adm (s : State) (lo v : Nat) : (s.wr64 lo v).adm = s.adm := rfl
@[simp] theorem State.wr64_store (s : State) (lo v : Nat) : (s.wr64 lo v).store = s.store := rfl
@[simp] theorem State.wr64_evr (s : State) (lo v : Nat) : (s.wr64 lo v).evr = s.evr := rfl
@[simp] theorem State.wr64_nvs (s : State) (lo v : Nat) : (s.wr64 lo v).nvs = s.nvs := rfl
@[simp] theorem State.wr64_board (s : State) (lo v : Nat) : (s.wr64 lo v).board = s.board := rfl
@[simp] theorem State.wr64_clu (s : State) (lo v : Nat) : (s.wr64 lo v).clu = s.clu := rfl
@[simp] theorem State.wr64_stq (s : State) (lo v : Nat) : (s.wr64 lo v).stq = s.stq := rfl
@[simp] theorem State.wr64_dom (s : State) (lo v : Nat) : (s.wr64 lo v).dom = s.dom := rfl
@[simp] theorem State.wr64_orb (s : State) (lo v : Nat) : (s.wr64 lo v).orb = s.orb := rfl
@[simp] theorem State.wr64_paths (s : State) (lo v : Nat) : (s.wr64 lo v).paths = s.paths := rfl
@[simp] theorem State.wr64_wear (s : State) (lo v : Nat) : (s.wr64 lo v).wear = s.wear := rfl
@[simp] theorem State.wr64_dies (s : State) (lo v : Nat) : (s.wr64 lo v).dies = s.dies := rfl
@[simp] theorem State.wr64_thm (s : State) (lo v : Nat) : (s.wr64 lo v).thm = s.thm := rfl
@[simp] theorem State.wr64_seq (s : State) (lo v : Nat) : (s.wr64 lo v).seq = s.seq := rfl
@[simp] theorem State.wr64_kvc (s : State) (lo v : Nat) : (s.wr64 lo v).kvc = s.kvc := rfl
@[simp] theorem State.wr64_boot (s : State) (lo v : Nat) : (s.wr64 lo v).boot = s.boot := rfl
@[simp] theorem State.wr64_modeTicks (s : State) (lo v : Nat) : (s.wr64 lo v).modeTicks = s.modeTicks := rfl
@[simp] theorem State.wr64_marks (s : State) (lo v : Nat) : (s.wr64 lo v).marks = s.marks := rfl
@[simp] theorem State.wr64_out (s : State) (lo v : Nat) : (s.wr64 lo v).out = s.out := rfl
@[simp] theorem State.wr64_pending (s : State) (lo v : Nat) : (s.wr64 lo v).pending = s.pending := rfl

/-! ### State.add64 -/

@[simp] theorem State.add64_settings (s : State) (lo k : Nat) : (s.add64 lo k).settings = s.settings := rfl
@[simp] theorem State.add64_aonTick (s : State) (lo k : Nat) : (s.add64 lo k).aonTick = s.aonTick := rfl
@[simp] theorem State.add64_aonPhase (s : State) (lo k : Nat) : (s.add64 lo k).aonPhase = s.aonPhase := rfl
@[simp] theorem State.add64_now (s : State) (lo k : Nat) : (s.add64 lo k).now = s.now := rfl
@[simp] theorem State.add64_freeCtr (s : State) (lo k : Nat) : (s.add64 lo k).freeCtr = s.freeCtr := rfl
@[simp] theorem State.add64_rgn (s : State) (lo k : Nat) : (s.add64 lo k).rgn = s.rgn := rfl
@[simp] theorem State.add64_ports (s : State) (lo k : Nat) : (s.add64 lo k).ports = s.ports := rfl
@[simp] theorem State.add64_accesses (s : State) (lo k : Nat) : (s.add64 lo k).accesses = s.accesses := rfl
@[simp] theorem State.add64_key (s : State) (lo k : Nat) : (s.add64 lo k).key = s.key := rfl
@[simp] theorem State.add64_adm (s : State) (lo k : Nat) : (s.add64 lo k).adm = s.adm := rfl
@[simp] theorem State.add64_store (s : State) (lo k : Nat) : (s.add64 lo k).store = s.store := rfl
@[simp] theorem State.add64_evr (s : State) (lo k : Nat) : (s.add64 lo k).evr = s.evr := rfl
@[simp] theorem State.add64_nvs (s : State) (lo k : Nat) : (s.add64 lo k).nvs = s.nvs := rfl
@[simp] theorem State.add64_board (s : State) (lo k : Nat) : (s.add64 lo k).board = s.board := rfl
@[simp] theorem State.add64_clu (s : State) (lo k : Nat) : (s.add64 lo k).clu = s.clu := rfl
@[simp] theorem State.add64_stq (s : State) (lo k : Nat) : (s.add64 lo k).stq = s.stq := rfl
@[simp] theorem State.add64_dom (s : State) (lo k : Nat) : (s.add64 lo k).dom = s.dom := rfl
@[simp] theorem State.add64_orb (s : State) (lo k : Nat) : (s.add64 lo k).orb = s.orb := rfl
@[simp] theorem State.add64_paths (s : State) (lo k : Nat) : (s.add64 lo k).paths = s.paths := rfl
@[simp] theorem State.add64_wear (s : State) (lo k : Nat) : (s.add64 lo k).wear = s.wear := rfl
@[simp] theorem State.add64_dies (s : State) (lo k : Nat) : (s.add64 lo k).dies = s.dies := rfl
@[simp] theorem State.add64_thm (s : State) (lo k : Nat) : (s.add64 lo k).thm = s.thm := rfl
@[simp] theorem State.add64_seq (s : State) (lo k : Nat) : (s.add64 lo k).seq = s.seq := rfl
@[simp] theorem State.add64_kvc (s : State) (lo k : Nat) : (s.add64 lo k).kvc = s.kvc := rfl
@[simp] theorem State.add64_boot (s : State) (lo k : Nat) : (s.add64 lo k).boot = s.boot := rfl
@[simp] theorem State.add64_modeTicks (s : State) (lo k : Nat) : (s.add64 lo k).modeTicks = s.modeTicks := rfl
@[simp] theorem State.add64_marks (s : State) (lo k : Nat) : (s.add64 lo k).marks = s.marks := rfl
@[simp] theorem State.add64_out (s : State) (lo k : Nat) : (s.add64 lo k).out = s.out := rfl
@[simp] theorem State.add64_pending (s : State) (lo k : Nat) : (s.add64 lo k).pending = s.pending := rfl

/-! ### State.say -/

@[simp] theorem State.say_regs (s : State) (r : Response) : (s.say r).regs = s.regs := rfl
@[simp] theorem State.say_settings (s : State) (r : Response) : (s.say r).settings = s.settings := rfl
@[simp] theorem State.say_aonTick (s : State) (r : Response) : (s.say r).aonTick = s.aonTick := rfl
@[simp] theorem State.say_aonPhase (s : State) (r : Response) : (s.say r).aonPhase = s.aonPhase := rfl
@[simp] theorem State.say_now (s : State) (r : Response) : (s.say r).now = s.now := rfl
@[simp] theorem State.say_freeCtr (s : State) (r : Response) : (s.say r).freeCtr = s.freeCtr := rfl
@[simp] theorem State.say_rgn (s : State) (r : Response) : (s.say r).rgn = s.rgn := rfl
@[simp] theorem State.say_ports (s : State) (r : Response) : (s.say r).ports = s.ports := rfl
@[simp] theorem State.say_accesses (s : State) (r : Response) : (s.say r).accesses = s.accesses := rfl
@[simp] theorem State.say_key (s : State) (r : Response) : (s.say r).key = s.key := rfl
@[simp] theorem State.say_adm (s : State) (r : Response) : (s.say r).adm = s.adm := rfl
@[simp] theorem State.say_store (s : State) (r : Response) : (s.say r).store = s.store := rfl
@[simp] theorem State.say_evr (s : State) (r : Response) : (s.say r).evr = s.evr := rfl
@[simp] theorem State.say_nvs (s : State) (r : Response) : (s.say r).nvs = s.nvs := rfl
@[simp] theorem State.say_board (s : State) (r : Response) : (s.say r).board = s.board := rfl
@[simp] theorem State.say_clu (s : State) (r : Response) : (s.say r).clu = s.clu := rfl
@[simp] theorem State.say_stq (s : State) (r : Response) : (s.say r).stq = s.stq := rfl
@[simp] theorem State.say_dom (s : State) (r : Response) : (s.say r).dom = s.dom := rfl
@[simp] theorem State.say_orb (s : State) (r : Response) : (s.say r).orb = s.orb := rfl
@[simp] theorem State.say_paths (s : State) (r : Response) : (s.say r).paths = s.paths := rfl
@[simp] theorem State.say_wear (s : State) (r : Response) : (s.say r).wear = s.wear := rfl
@[simp] theorem State.say_dies (s : State) (r : Response) : (s.say r).dies = s.dies := rfl
@[simp] theorem State.say_thm (s : State) (r : Response) : (s.say r).thm = s.thm := rfl
@[simp] theorem State.say_seq (s : State) (r : Response) : (s.say r).seq = s.seq := rfl
@[simp] theorem State.say_kvc (s : State) (r : Response) : (s.say r).kvc = s.kvc := rfl
@[simp] theorem State.say_boot (s : State) (r : Response) : (s.say r).boot = s.boot := rfl
@[simp] theorem State.say_modeTicks (s : State) (r : Response) : (s.say r).modeTicks = s.modeTicks := rfl
@[simp] theorem State.say_marks (s : State) (r : Response) : (s.say r).marks = s.marks := rfl
@[simp] theorem State.say_pending (s : State) (r : Response) : (s.say r).pending = s.pending := rfl

/-! ### State.setPort -/

@[simp] theorem State.setPort_regs (s : State) (n : Nat) (p : PortSt) : (s.setPort n p).regs = s.regs := rfl
@[simp] theorem State.setPort_settings (s : State) (n : Nat) (p : PortSt) : (s.setPort n p).settings = s.settings := rfl
@[simp] theorem State.setPort_aonTick (s : State) (n : Nat) (p : PortSt) : (s.setPort n p).aonTick = s.aonTick := rfl
@[simp] theorem State.setPort_aonPhase (s : State) (n : Nat) (p : PortSt) : (s.setPort n p).aonPhase = s.aonPhase := rfl
@[simp] theorem State.setPort_now (s : State) (n : Nat) (p : PortSt) : (s.setPort n p).now = s.now := rfl
@[simp] theorem State.setPort_freeCtr (s : State) (n : Nat) (p : PortSt) : (s.setPort n p).freeCtr = s.freeCtr := rfl
@[simp] theorem State.setPort_rgn (s : State) (n : Nat) (p : PortSt) : (s.setPort n p).rgn = s.rgn := rfl
@[simp] theorem State.setPort_accesses (s : State) (n : Nat) (p : PortSt) : (s.setPort n p).accesses = s.accesses := rfl
@[simp] theorem State.setPort_key (s : State) (n : Nat) (p : PortSt) : (s.setPort n p).key = s.key := rfl
@[simp] theorem State.setPort_adm (s : State) (n : Nat) (p : PortSt) : (s.setPort n p).adm = s.adm := rfl
@[simp] theorem State.setPort_store (s : State) (n : Nat) (p : PortSt) : (s.setPort n p).store = s.store := rfl
@[simp] theorem State.setPort_evr (s : State) (n : Nat) (p : PortSt) : (s.setPort n p).evr = s.evr := rfl
@[simp] theorem State.setPort_nvs (s : State) (n : Nat) (p : PortSt) : (s.setPort n p).nvs = s.nvs := rfl
@[simp] theorem State.setPort_board (s : State) (n : Nat) (p : PortSt) : (s.setPort n p).board = s.board := rfl
@[simp] theorem State.setPort_clu (s : State) (n : Nat) (p : PortSt) : (s.setPort n p).clu = s.clu := rfl
@[simp] theorem State.setPort_stq (s : State) (n : Nat) (p : PortSt) : (s.setPort n p).stq = s.stq := rfl
@[simp] theorem State.setPort_dom (s : State) (n : Nat) (p : PortSt) : (s.setPort n p).dom = s.dom := rfl
@[simp] theorem State.setPort_orb (s : State) (n : Nat) (p : PortSt) : (s.setPort n p).orb = s.orb := rfl
@[simp] theorem State.setPort_paths (s : State) (n : Nat) (p : PortSt) : (s.setPort n p).paths = s.paths := rfl
@[simp] theorem State.setPort_wear (s : State) (n : Nat) (p : PortSt) : (s.setPort n p).wear = s.wear := rfl
@[simp] theorem State.setPort_dies (s : State) (n : Nat) (p : PortSt) : (s.setPort n p).dies = s.dies := rfl
@[simp] theorem State.setPort_thm (s : State) (n : Nat) (p : PortSt) : (s.setPort n p).thm = s.thm := rfl
@[simp] theorem State.setPort_seq (s : State) (n : Nat) (p : PortSt) : (s.setPort n p).seq = s.seq := rfl
@[simp] theorem State.setPort_kvc (s : State) (n : Nat) (p : PortSt) : (s.setPort n p).kvc = s.kvc := rfl
@[simp] theorem State.setPort_boot (s : State) (n : Nat) (p : PortSt) : (s.setPort n p).boot = s.boot := rfl
@[simp] theorem State.setPort_modeTicks (s : State) (n : Nat) (p : PortSt) : (s.setPort n p).modeTicks = s.modeTicks := rfl
@[simp] theorem State.setPort_marks (s : State) (n : Nat) (p : PortSt) : (s.setPort n p).marks = s.marks := rfl
@[simp] theorem State.setPort_out (s : State) (n : Nat) (p : PortSt) : (s.setPort n p).out = s.out := rfl
@[simp] theorem State.setPort_pending (s : State) (n : Nat) (p : PortSt) : (s.setPort n p).pending = s.pending := rfl

/-! ### State.setDesc -/

@[simp] theorem State.setDesc_regs (s : State) (r : Nat) (d : BitVec 512) : (s.setDesc r d).regs = s.regs := rfl
@[simp] theorem State.setDesc_settings (s : State) (r : Nat) (d : BitVec 512) : (s.setDesc r d).settings = s.settings := rfl
@[simp] theorem State.setDesc_aonTick (s : State) (r : Nat) (d : BitVec 512) : (s.setDesc r d).aonTick = s.aonTick := rfl
@[simp] theorem State.setDesc_aonPhase (s : State) (r : Nat) (d : BitVec 512) : (s.setDesc r d).aonPhase = s.aonPhase := rfl
@[simp] theorem State.setDesc_now (s : State) (r : Nat) (d : BitVec 512) : (s.setDesc r d).now = s.now := rfl
@[simp] theorem State.setDesc_freeCtr (s : State) (r : Nat) (d : BitVec 512) : (s.setDesc r d).freeCtr = s.freeCtr := rfl
@[simp] theorem State.setDesc_ports (s : State) (r : Nat) (d : BitVec 512) : (s.setDesc r d).ports = s.ports := rfl
@[simp] theorem State.setDesc_accesses (s : State) (r : Nat) (d : BitVec 512) : (s.setDesc r d).accesses = s.accesses := rfl
@[simp] theorem State.setDesc_key (s : State) (r : Nat) (d : BitVec 512) : (s.setDesc r d).key = s.key := rfl
@[simp] theorem State.setDesc_adm (s : State) (r : Nat) (d : BitVec 512) : (s.setDesc r d).adm = s.adm := rfl
@[simp] theorem State.setDesc_store (s : State) (r : Nat) (d : BitVec 512) : (s.setDesc r d).store = s.store := rfl
@[simp] theorem State.setDesc_evr (s : State) (r : Nat) (d : BitVec 512) : (s.setDesc r d).evr = s.evr := rfl
@[simp] theorem State.setDesc_nvs (s : State) (r : Nat) (d : BitVec 512) : (s.setDesc r d).nvs = s.nvs := rfl
@[simp] theorem State.setDesc_board (s : State) (r : Nat) (d : BitVec 512) : (s.setDesc r d).board = s.board := rfl
@[simp] theorem State.setDesc_clu (s : State) (r : Nat) (d : BitVec 512) : (s.setDesc r d).clu = s.clu := rfl
@[simp] theorem State.setDesc_stq (s : State) (r : Nat) (d : BitVec 512) : (s.setDesc r d).stq = s.stq := rfl
@[simp] theorem State.setDesc_dom (s : State) (r : Nat) (d : BitVec 512) : (s.setDesc r d).dom = s.dom := rfl
@[simp] theorem State.setDesc_orb (s : State) (r : Nat) (d : BitVec 512) : (s.setDesc r d).orb = s.orb := rfl
@[simp] theorem State.setDesc_paths (s : State) (r : Nat) (d : BitVec 512) : (s.setDesc r d).paths = s.paths := rfl
@[simp] theorem State.setDesc_wear (s : State) (r : Nat) (d : BitVec 512) : (s.setDesc r d).wear = s.wear := rfl
@[simp] theorem State.setDesc_dies (s : State) (r : Nat) (d : BitVec 512) : (s.setDesc r d).dies = s.dies := rfl
@[simp] theorem State.setDesc_thm (s : State) (r : Nat) (d : BitVec 512) : (s.setDesc r d).thm = s.thm := rfl
@[simp] theorem State.setDesc_seq (s : State) (r : Nat) (d : BitVec 512) : (s.setDesc r d).seq = s.seq := rfl
@[simp] theorem State.setDesc_kvc (s : State) (r : Nat) (d : BitVec 512) : (s.setDesc r d).kvc = s.kvc := rfl
@[simp] theorem State.setDesc_boot (s : State) (r : Nat) (d : BitVec 512) : (s.setDesc r d).boot = s.boot := rfl
@[simp] theorem State.setDesc_modeTicks (s : State) (r : Nat) (d : BitVec 512) : (s.setDesc r d).modeTicks = s.modeTicks := rfl
@[simp] theorem State.setDesc_marks (s : State) (r : Nat) (d : BitVec 512) : (s.setDesc r d).marks = s.marks := rfl
@[simp] theorem State.setDesc_out (s : State) (r : Nat) (d : BitVec 512) : (s.setDesc r d).out = s.out := rfl
@[simp] theorem State.setDesc_pending (s : State) (r : Nat) (d : BitVec 512) : (s.setDesc r d).pending = s.pending := rfl

/-! ### State.setMet -/

@[simp] theorem State.setMet_regs (s : State) (r : Nat) (m : MetSt) : (s.setMet r m).regs = s.regs := rfl
@[simp] theorem State.setMet_settings (s : State) (r : Nat) (m : MetSt) : (s.setMet r m).settings = s.settings := rfl
@[simp] theorem State.setMet_aonTick (s : State) (r : Nat) (m : MetSt) : (s.setMet r m).aonTick = s.aonTick := rfl
@[simp] theorem State.setMet_aonPhase (s : State) (r : Nat) (m : MetSt) : (s.setMet r m).aonPhase = s.aonPhase := rfl
@[simp] theorem State.setMet_now (s : State) (r : Nat) (m : MetSt) : (s.setMet r m).now = s.now := rfl
@[simp] theorem State.setMet_freeCtr (s : State) (r : Nat) (m : MetSt) : (s.setMet r m).freeCtr = s.freeCtr := rfl
@[simp] theorem State.setMet_ports (s : State) (r : Nat) (m : MetSt) : (s.setMet r m).ports = s.ports := rfl
@[simp] theorem State.setMet_accesses (s : State) (r : Nat) (m : MetSt) : (s.setMet r m).accesses = s.accesses := rfl
@[simp] theorem State.setMet_key (s : State) (r : Nat) (m : MetSt) : (s.setMet r m).key = s.key := rfl
@[simp] theorem State.setMet_adm (s : State) (r : Nat) (m : MetSt) : (s.setMet r m).adm = s.adm := rfl
@[simp] theorem State.setMet_store (s : State) (r : Nat) (m : MetSt) : (s.setMet r m).store = s.store := rfl
@[simp] theorem State.setMet_evr (s : State) (r : Nat) (m : MetSt) : (s.setMet r m).evr = s.evr := rfl
@[simp] theorem State.setMet_nvs (s : State) (r : Nat) (m : MetSt) : (s.setMet r m).nvs = s.nvs := rfl
@[simp] theorem State.setMet_board (s : State) (r : Nat) (m : MetSt) : (s.setMet r m).board = s.board := rfl
@[simp] theorem State.setMet_clu (s : State) (r : Nat) (m : MetSt) : (s.setMet r m).clu = s.clu := rfl
@[simp] theorem State.setMet_stq (s : State) (r : Nat) (m : MetSt) : (s.setMet r m).stq = s.stq := rfl
@[simp] theorem State.setMet_dom (s : State) (r : Nat) (m : MetSt) : (s.setMet r m).dom = s.dom := rfl
@[simp] theorem State.setMet_orb (s : State) (r : Nat) (m : MetSt) : (s.setMet r m).orb = s.orb := rfl
@[simp] theorem State.setMet_paths (s : State) (r : Nat) (m : MetSt) : (s.setMet r m).paths = s.paths := rfl
@[simp] theorem State.setMet_wear (s : State) (r : Nat) (m : MetSt) : (s.setMet r m).wear = s.wear := rfl
@[simp] theorem State.setMet_dies (s : State) (r : Nat) (m : MetSt) : (s.setMet r m).dies = s.dies := rfl
@[simp] theorem State.setMet_thm (s : State) (r : Nat) (m : MetSt) : (s.setMet r m).thm = s.thm := rfl
@[simp] theorem State.setMet_seq (s : State) (r : Nat) (m : MetSt) : (s.setMet r m).seq = s.seq := rfl
@[simp] theorem State.setMet_kvc (s : State) (r : Nat) (m : MetSt) : (s.setMet r m).kvc = s.kvc := rfl
@[simp] theorem State.setMet_boot (s : State) (r : Nat) (m : MetSt) : (s.setMet r m).boot = s.boot := rfl
@[simp] theorem State.setMet_modeTicks (s : State) (r : Nat) (m : MetSt) : (s.setMet r m).modeTicks = s.modeTicks := rfl
@[simp] theorem State.setMet_marks (s : State) (r : Nat) (m : MetSt) : (s.setMet r m).marks = s.marks := rfl
@[simp] theorem State.setMet_out (s : State) (r : Nat) (m : MetSt) : (s.setMet r m).out = s.out := rfl
@[simp] theorem State.setMet_pending (s : State) (r : Nat) (m : MetSt) : (s.setMet r m).pending = s.pending := rfl

/-! ### State.setPath -/

@[simp] theorem State.setPath_regs (s : State) (p : Path) (x : PathSt) : (s.setPath p x).regs = s.regs := rfl
@[simp] theorem State.setPath_settings (s : State) (p : Path) (x : PathSt) : (s.setPath p x).settings = s.settings := rfl
@[simp] theorem State.setPath_aonTick (s : State) (p : Path) (x : PathSt) : (s.setPath p x).aonTick = s.aonTick := rfl
@[simp] theorem State.setPath_aonPhase (s : State) (p : Path) (x : PathSt) : (s.setPath p x).aonPhase = s.aonPhase := rfl
@[simp] theorem State.setPath_now (s : State) (p : Path) (x : PathSt) : (s.setPath p x).now = s.now := rfl
@[simp] theorem State.setPath_freeCtr (s : State) (p : Path) (x : PathSt) : (s.setPath p x).freeCtr = s.freeCtr := rfl
@[simp] theorem State.setPath_rgn (s : State) (p : Path) (x : PathSt) : (s.setPath p x).rgn = s.rgn := rfl
@[simp] theorem State.setPath_ports (s : State) (p : Path) (x : PathSt) : (s.setPath p x).ports = s.ports := rfl
@[simp] theorem State.setPath_accesses (s : State) (p : Path) (x : PathSt) : (s.setPath p x).accesses = s.accesses := rfl
@[simp] theorem State.setPath_key (s : State) (p : Path) (x : PathSt) : (s.setPath p x).key = s.key := rfl
@[simp] theorem State.setPath_adm (s : State) (p : Path) (x : PathSt) : (s.setPath p x).adm = s.adm := rfl
@[simp] theorem State.setPath_store (s : State) (p : Path) (x : PathSt) : (s.setPath p x).store = s.store := rfl
@[simp] theorem State.setPath_evr (s : State) (p : Path) (x : PathSt) : (s.setPath p x).evr = s.evr := rfl
@[simp] theorem State.setPath_nvs (s : State) (p : Path) (x : PathSt) : (s.setPath p x).nvs = s.nvs := rfl
@[simp] theorem State.setPath_board (s : State) (p : Path) (x : PathSt) : (s.setPath p x).board = s.board := rfl
@[simp] theorem State.setPath_clu (s : State) (p : Path) (x : PathSt) : (s.setPath p x).clu = s.clu := rfl
@[simp] theorem State.setPath_stq (s : State) (p : Path) (x : PathSt) : (s.setPath p x).stq = s.stq := rfl
@[simp] theorem State.setPath_dom (s : State) (p : Path) (x : PathSt) : (s.setPath p x).dom = s.dom := rfl
@[simp] theorem State.setPath_orb (s : State) (p : Path) (x : PathSt) : (s.setPath p x).orb = s.orb := rfl
@[simp] theorem State.setPath_wear (s : State) (p : Path) (x : PathSt) : (s.setPath p x).wear = s.wear := rfl
@[simp] theorem State.setPath_dies (s : State) (p : Path) (x : PathSt) : (s.setPath p x).dies = s.dies := rfl
@[simp] theorem State.setPath_thm (s : State) (p : Path) (x : PathSt) : (s.setPath p x).thm = s.thm := rfl
@[simp] theorem State.setPath_seq (s : State) (p : Path) (x : PathSt) : (s.setPath p x).seq = s.seq := rfl
@[simp] theorem State.setPath_kvc (s : State) (p : Path) (x : PathSt) : (s.setPath p x).kvc = s.kvc := rfl
@[simp] theorem State.setPath_boot (s : State) (p : Path) (x : PathSt) : (s.setPath p x).boot = s.boot := rfl
@[simp] theorem State.setPath_modeTicks (s : State) (p : Path) (x : PathSt) : (s.setPath p x).modeTicks = s.modeTicks := rfl
@[simp] theorem State.setPath_marks (s : State) (p : Path) (x : PathSt) : (s.setPath p x).marks = s.marks := rfl
@[simp] theorem State.setPath_out (s : State) (p : Path) (x : PathSt) : (s.setPath p x).out = s.out := rfl
@[simp] theorem State.setPath_pending (s : State) (p : Path) (x : PathSt) : (s.setPath p x).pending = s.pending := rfl

/-! ### State.setEng -/

@[simp] theorem State.setEng_regs (s : State) (e : Nat) (g : EngSt) : (s.setEng e g).regs = s.regs := rfl
@[simp] theorem State.setEng_settings (s : State) (e : Nat) (g : EngSt) : (s.setEng e g).settings = s.settings := rfl
@[simp] theorem State.setEng_aonTick (s : State) (e : Nat) (g : EngSt) : (s.setEng e g).aonTick = s.aonTick := rfl
@[simp] theorem State.setEng_aonPhase (s : State) (e : Nat) (g : EngSt) : (s.setEng e g).aonPhase = s.aonPhase := rfl
@[simp] theorem State.setEng_now (s : State) (e : Nat) (g : EngSt) : (s.setEng e g).now = s.now := rfl
@[simp] theorem State.setEng_freeCtr (s : State) (e : Nat) (g : EngSt) : (s.setEng e g).freeCtr = s.freeCtr := rfl
@[simp] theorem State.setEng_rgn (s : State) (e : Nat) (g : EngSt) : (s.setEng e g).rgn = s.rgn := rfl
@[simp] theorem State.setEng_ports (s : State) (e : Nat) (g : EngSt) : (s.setEng e g).ports = s.ports := rfl
@[simp] theorem State.setEng_accesses (s : State) (e : Nat) (g : EngSt) : (s.setEng e g).accesses = s.accesses := rfl
@[simp] theorem State.setEng_key (s : State) (e : Nat) (g : EngSt) : (s.setEng e g).key = s.key := rfl
@[simp] theorem State.setEng_adm (s : State) (e : Nat) (g : EngSt) : (s.setEng e g).adm = s.adm := rfl
@[simp] theorem State.setEng_store (s : State) (e : Nat) (g : EngSt) : (s.setEng e g).store = s.store := rfl
@[simp] theorem State.setEng_evr (s : State) (e : Nat) (g : EngSt) : (s.setEng e g).evr = s.evr := rfl
@[simp] theorem State.setEng_nvs (s : State) (e : Nat) (g : EngSt) : (s.setEng e g).nvs = s.nvs := rfl
@[simp] theorem State.setEng_board (s : State) (e : Nat) (g : EngSt) : (s.setEng e g).board = s.board := rfl
@[simp] theorem State.setEng_stq (s : State) (e : Nat) (g : EngSt) : (s.setEng e g).stq = s.stq := rfl
@[simp] theorem State.setEng_dom (s : State) (e : Nat) (g : EngSt) : (s.setEng e g).dom = s.dom := rfl
@[simp] theorem State.setEng_orb (s : State) (e : Nat) (g : EngSt) : (s.setEng e g).orb = s.orb := rfl
@[simp] theorem State.setEng_paths (s : State) (e : Nat) (g : EngSt) : (s.setEng e g).paths = s.paths := rfl
@[simp] theorem State.setEng_wear (s : State) (e : Nat) (g : EngSt) : (s.setEng e g).wear = s.wear := rfl
@[simp] theorem State.setEng_dies (s : State) (e : Nat) (g : EngSt) : (s.setEng e g).dies = s.dies := rfl
@[simp] theorem State.setEng_thm (s : State) (e : Nat) (g : EngSt) : (s.setEng e g).thm = s.thm := rfl
@[simp] theorem State.setEng_seq (s : State) (e : Nat) (g : EngSt) : (s.setEng e g).seq = s.seq := rfl
@[simp] theorem State.setEng_kvc (s : State) (e : Nat) (g : EngSt) : (s.setEng e g).kvc = s.kvc := rfl
@[simp] theorem State.setEng_boot (s : State) (e : Nat) (g : EngSt) : (s.setEng e g).boot = s.boot := rfl
@[simp] theorem State.setEng_modeTicks (s : State) (e : Nat) (g : EngSt) : (s.setEng e g).modeTicks = s.modeTicks := rfl
@[simp] theorem State.setEng_marks (s : State) (e : Nat) (g : EngSt) : (s.setEng e g).marks = s.marks := rfl
@[simp] theorem State.setEng_out (s : State) (e : Nat) (g : EngSt) : (s.setEng e g).out = s.out := rfl
@[simp] theorem State.setEng_pending (s : State) (e : Nat) (g : EngSt) : (s.setEng e g).pending = s.pending := rfl

/-! ### State.setQueue -/

@[simp] theorem State.setQueue_regs (s : State) (q : Nat) (v : QueueSt) : (s.setQueue q v).regs = s.regs := rfl
@[simp] theorem State.setQueue_settings (s : State) (q : Nat) (v : QueueSt) : (s.setQueue q v).settings = s.settings := rfl
@[simp] theorem State.setQueue_aonTick (s : State) (q : Nat) (v : QueueSt) : (s.setQueue q v).aonTick = s.aonTick := rfl
@[simp] theorem State.setQueue_aonPhase (s : State) (q : Nat) (v : QueueSt) : (s.setQueue q v).aonPhase = s.aonPhase := rfl
@[simp] theorem State.setQueue_now (s : State) (q : Nat) (v : QueueSt) : (s.setQueue q v).now = s.now := rfl
@[simp] theorem State.setQueue_freeCtr (s : State) (q : Nat) (v : QueueSt) : (s.setQueue q v).freeCtr = s.freeCtr := rfl
@[simp] theorem State.setQueue_rgn (s : State) (q : Nat) (v : QueueSt) : (s.setQueue q v).rgn = s.rgn := rfl
@[simp] theorem State.setQueue_ports (s : State) (q : Nat) (v : QueueSt) : (s.setQueue q v).ports = s.ports := rfl
@[simp] theorem State.setQueue_accesses (s : State) (q : Nat) (v : QueueSt) : (s.setQueue q v).accesses = s.accesses := rfl
@[simp] theorem State.setQueue_key (s : State) (q : Nat) (v : QueueSt) : (s.setQueue q v).key = s.key := rfl
@[simp] theorem State.setQueue_adm (s : State) (q : Nat) (v : QueueSt) : (s.setQueue q v).adm = s.adm := rfl
@[simp] theorem State.setQueue_store (s : State) (q : Nat) (v : QueueSt) : (s.setQueue q v).store = s.store := rfl
@[simp] theorem State.setQueue_evr (s : State) (q : Nat) (v : QueueSt) : (s.setQueue q v).evr = s.evr := rfl
@[simp] theorem State.setQueue_nvs (s : State) (q : Nat) (v : QueueSt) : (s.setQueue q v).nvs = s.nvs := rfl
@[simp] theorem State.setQueue_board (s : State) (q : Nat) (v : QueueSt) : (s.setQueue q v).board = s.board := rfl
@[simp] theorem State.setQueue_clu (s : State) (q : Nat) (v : QueueSt) : (s.setQueue q v).clu = s.clu := rfl
@[simp] theorem State.setQueue_dom (s : State) (q : Nat) (v : QueueSt) : (s.setQueue q v).dom = s.dom := rfl
@[simp] theorem State.setQueue_orb (s : State) (q : Nat) (v : QueueSt) : (s.setQueue q v).orb = s.orb := rfl
@[simp] theorem State.setQueue_paths (s : State) (q : Nat) (v : QueueSt) : (s.setQueue q v).paths = s.paths := rfl
@[simp] theorem State.setQueue_wear (s : State) (q : Nat) (v : QueueSt) : (s.setQueue q v).wear = s.wear := rfl
@[simp] theorem State.setQueue_dies (s : State) (q : Nat) (v : QueueSt) : (s.setQueue q v).dies = s.dies := rfl
@[simp] theorem State.setQueue_thm (s : State) (q : Nat) (v : QueueSt) : (s.setQueue q v).thm = s.thm := rfl
@[simp] theorem State.setQueue_seq (s : State) (q : Nat) (v : QueueSt) : (s.setQueue q v).seq = s.seq := rfl
@[simp] theorem State.setQueue_kvc (s : State) (q : Nat) (v : QueueSt) : (s.setQueue q v).kvc = s.kvc := rfl
@[simp] theorem State.setQueue_boot (s : State) (q : Nat) (v : QueueSt) : (s.setQueue q v).boot = s.boot := rfl
@[simp] theorem State.setQueue_modeTicks (s : State) (q : Nat) (v : QueueSt) : (s.setQueue q v).modeTicks = s.modeTicks := rfl
@[simp] theorem State.setQueue_marks (s : State) (q : Nat) (v : QueueSt) : (s.setQueue q v).marks = s.marks := rfl
@[simp] theorem State.setQueue_out (s : State) (q : Nat) (v : QueueSt) : (s.setQueue q v).out = s.out := rfl
@[simp] theorem State.setQueue_pending (s : State) (q : Nat) (v : QueueSt) : (s.setQueue q v).pending = s.pending := rfl

/-! ### State.wake -/

@[simp] theorem State.wake_regs (s : State) (ds : List Nat) : (s.wake ds).regs = s.regs := rfl
@[simp] theorem State.wake_settings (s : State) (ds : List Nat) : (s.wake ds).settings = s.settings := rfl
@[simp] theorem State.wake_aonTick (s : State) (ds : List Nat) : (s.wake ds).aonTick = s.aonTick := rfl
@[simp] theorem State.wake_aonPhase (s : State) (ds : List Nat) : (s.wake ds).aonPhase = s.aonPhase := rfl
@[simp] theorem State.wake_now (s : State) (ds : List Nat) : (s.wake ds).now = s.now := rfl
@[simp] theorem State.wake_freeCtr (s : State) (ds : List Nat) : (s.wake ds).freeCtr = s.freeCtr := rfl
@[simp] theorem State.wake_rgn (s : State) (ds : List Nat) : (s.wake ds).rgn = s.rgn := rfl
@[simp] theorem State.wake_ports (s : State) (ds : List Nat) : (s.wake ds).ports = s.ports := rfl
@[simp] theorem State.wake_accesses (s : State) (ds : List Nat) : (s.wake ds).accesses = s.accesses := rfl
@[simp] theorem State.wake_key (s : State) (ds : List Nat) : (s.wake ds).key = s.key := rfl
@[simp] theorem State.wake_adm (s : State) (ds : List Nat) : (s.wake ds).adm = s.adm := rfl
@[simp] theorem State.wake_store (s : State) (ds : List Nat) : (s.wake ds).store = s.store := rfl
@[simp] theorem State.wake_evr (s : State) (ds : List Nat) : (s.wake ds).evr = s.evr := rfl
@[simp] theorem State.wake_nvs (s : State) (ds : List Nat) : (s.wake ds).nvs = s.nvs := rfl
@[simp] theorem State.wake_board (s : State) (ds : List Nat) : (s.wake ds).board = s.board := rfl
@[simp] theorem State.wake_clu (s : State) (ds : List Nat) : (s.wake ds).clu = s.clu := rfl
@[simp] theorem State.wake_stq (s : State) (ds : List Nat) : (s.wake ds).stq = s.stq := rfl
@[simp] theorem State.wake_orb (s : State) (ds : List Nat) : (s.wake ds).orb = s.orb := rfl
@[simp] theorem State.wake_paths (s : State) (ds : List Nat) : (s.wake ds).paths = s.paths := rfl
@[simp] theorem State.wake_wear (s : State) (ds : List Nat) : (s.wake ds).wear = s.wear := rfl
@[simp] theorem State.wake_dies (s : State) (ds : List Nat) : (s.wake ds).dies = s.dies := rfl
@[simp] theorem State.wake_thm (s : State) (ds : List Nat) : (s.wake ds).thm = s.thm := rfl
@[simp] theorem State.wake_seq (s : State) (ds : List Nat) : (s.wake ds).seq = s.seq := rfl
@[simp] theorem State.wake_kvc (s : State) (ds : List Nat) : (s.wake ds).kvc = s.kvc := rfl
@[simp] theorem State.wake_boot (s : State) (ds : List Nat) : (s.wake ds).boot = s.boot := rfl
@[simp] theorem State.wake_modeTicks (s : State) (ds : List Nat) : (s.wake ds).modeTicks = s.modeTicks := rfl
@[simp] theorem State.wake_marks (s : State) (ds : List Nat) : (s.wake ds).marks = s.marks := rfl
@[simp] theorem State.wake_out (s : State) (ds : List Nat) : (s.wake ds).out = s.out := rfl
@[simp] theorem State.wake_pending (s : State) (ds : List Nat) : (s.wake ds).pending = s.pending := rfl

end Sys2Proof.Machine
end

