-- ==== Sys2Proof/Laws/Engine.lean ====
section
/-! SUPPORT. Engines: their state after an update, and what issuing an instruction does. -/

namespace Sys2Proof.Machine

@[simp] theorem State.eng_setEng_same (s : State) (e : Nat) (g : EngSt) : (s.setEng e g).eng e = g := by
  simp [State.eng, State.setEng]

theorem State.eng_setEng_ne (s : State) (e i : Nat) (g : EngSt) (h : i ≠ e) : (s.setEng e g).eng i = s.eng i := by
  simp [State.eng, State.setEng, mapGet_mapSet_ne _ _ _ _ _ h]

/-- Setting one engine changes that engine only. -/
theorem engOnly_setEng (s : State) (e : Nat) (g : EngSt) : engOnly s (s.setEng e g) e :=
  ⟨rfl, fun i h => s.eng_setEng_ne e i g h⟩

theorem engOnly_trans (s t u : State) (e : Nat) (h : engOnly s t e) (h' : engOnly t u e) : engOnly s u e := by
  refine ⟨?_, fun i hi => (h'.2 i hi).trans (h.2 i hi)⟩
  rw [h'.1, h.1]

theorem engOnly_refl (s : State) (e : Nat) : engOnly s s e := ⟨rfl, fun _ _ => rfl⟩

/-- An instruction that the engine can issue, of a legal word whose registers are idle, acts. -/
theorem State.issue_acts (s : State) (e op : Nat) (f : BitVec 26) (bad : Bool) (regs : List Nat) (act : State → State)
    (h : s.issues e (BitVec.ofNat 6 op ++ f)) (hb : bad = false) (hr : s.regsIdle e regs) :
    s.issue e op f bad regs act = act s := by
  obtain ⟨h1, h2, h3, h4, h5, h6⟩ := h
  have hr' : regs.any (s.eng e).busy = false := by
    rw [List.any_eq_false]; intro r hm; simpa using hr r hm
  simp [State.issue, h1, h2, h3, h4, h5, h6, hb, hr']

/-- An illegal word raises exception 0x03. -/
theorem State.issue_illegal (s : State) (e op : Nat) (f : BitVec 26) (regs : List Nat) (act : State → State)
    (h : s.issues e (BitVec.ofNat 6 op ++ f)) :
    s.issue e op f true regs act = s.engFault e 0x03 (s.eng e).pc false := by
  obtain ⟨h1, h2, h3, h4, h5, h6⟩ := h
  simp [State.issue, h1, h2, h3, h4, h5, h6]

/-- Writing a register and going on changes the engine's register, PC and cycles. -/
theorem State.writeReg_eng (s : State) (e rd : Nat) (v : Xlen) (cyc : Nat) :
    (s.writeReg e rd v cyc).eng e = ((s.eng e).set rd v).next cyc := by
  simp only [State.writeReg, State.retire, State.eng_setEng_same, EngSt.next, EngSt.set]
  split <;> rfl

theorem State.writeReg_only (s : State) (e rd : Nat) (v : Xlen) (cyc : Nat) : engOnly s (s.writeReg e rd v cyc) e :=
  engOnly_trans s _ _ e (engOnly_setEng _ _ _) (engOnly_setEng _ _ _)

end Sys2Proof.Machine
end

