-- ==== Sys2Proof/Tests/Slice0.lean ====
section
/-! SUPPORT. Small tests: what well-formedness refuses, engine words written out from R225 and R226, and for the statements of
Obligations.lean concrete states and operands that meet their hypotheses. -/

namespace Sys2Proof.Machine

set_option Elab.async false

/-- The command answers a next state that passes the check. -/
def answers (c : Instr) (s : State) (p : State → Bool) : Bool :=
  match exec c s with
  | .next t => p t
  | _ => false

/-- The command answers exactly this state. -/
def becomes (c : Instr) (s t : State) : Bool := answers c s (fun u => decide (u = t))

/-- Lit and Normal, every domain awake, nothing held. -/
def tUp : State :=
  { ((State.reset.put F.MODE_STAT_POWER pwLit).put F.MODE_STAT_SERVICE svNormal).wr R.MODE_HOLD_WHY 0 with
    seq := { seq0 with por := false }
    dom.awake := List.range 53 }

/-- Region 1: Strict, reached by engines and every port, metered, 16 MiB at DPA 0, key slot 3. -/
def tDesc : BitVec 512 := BitVec.ofNat 512 (0xFF6001 * 2 ^ 32 + 3 * 2 ^ 64 + 2 ^ 128)

/-! ### Forms (R6, R7, R216, R231, R302) -/

theorem test_wf_misaligned : (Instr.misalignedAccess .cc false 4 4).wellFormed = false ∧
    (Instr.misalignedAccess .cc false 6 4).wellFormed = true ∧ (Instr.misalignedAccess .cc false 4 2).wellFormed = true := by decide

theorem test_wf_aligned : (Instr.counterLoRead .cc 2).wellFormed = false ∧ (Instr.counterHiRead .cc 2).wellFormed = false ∧
    (Instr.registerWrite .cc 1 0).wellFormed = false ∧ (Instr.unmappedAccess .cc true 3).wellFormed = false ∧
    (Instr.registerWrite .cc 4 0).wellFormed = true := by decide

theorem test_wf_dequeue : (Instr.stqDequeue 0 0 0 3).wellFormed = false ∧ (Instr.stqDequeue 0 0 4 8).wellFormed = false ∧
    (Instr.stqDequeue 0 0 8 64).wellFormed = false ∧ (Instr.stqDequeue 0 0 56 8).wellFormed = true := by decide

theorem test_wf_image : (∀ im : List Word, im.length = 65537 → (Instr.engLoadDone im).wellFormed = false) ∧
    (Instr.engLoadDone [0]).wellFormed = true := ⟨fun im h => by simp [Instr.wellFormed, h], by decide⟩

theorem test_wf_mdata :
    let h : OrbHdr := ⟨0, 1, 2, 0, 0, 0, 0, 0, 0, 1, 0x20, 2, 0, 0, 0⟩
    let l : MLine := ⟨0, 0, 0⟩
    (Instr.mdata h 0 0 true 0xFF [l]).wellFormed = false ∧ (Instr.mdata h 0 0 false 0xFF [l, l]).wellFormed = false ∧
    (Instr.mdata h 0 0 false 0xFF [l]).wellFormed = true := by decide

/-! ### Engine instructions: words written out from R225 and R226, and what they compute from x6 = −16 and x7 = 3 -/

/-- Engine 0 at the first word of a one-slot program in slot 1. -/
def tEng (w : Word) (x : SMap Xlen) : State :=
  { (tUp.put (F.ENGE_CTX_BIND 0) 1) with
    clu.engs := [(0, { engInit with
      phase := .running
      pc := 4096
      prog := 1
      x := x })]
    clu.progs := [(1, 1)]
    clu.prog := [(1, [w])] }

def tX : SMap Xlen := [(6, 0xFFFFFFFFFFFFFFF0), (7, 3)]

/-- The word is the instruction's, executes from x6 and x7, and gives x5 and the cycles. -/
def gives (w : Word) (i : Instr) (v : Xlen) (cyc : Nat) : Bool :=
  decide (engDecode 0 w = some i) && decide (engWord i = some w) &&
  answers i (tEng w tX) (fun t => (t.eng 0).get 5 == v && (t.eng 0).pc == 4100 && (t.eng 0).cycles == cyc &&
    (t.eng 0).get 6 == 0xFFFFFFFFFFFFFFF0 && (t.eng 0).get 7 == 3)

theorem test_engine_registers :
    gives 0b00000000101001100011100000000000#32 (.add 0 0xa63800#26) 0xfffffffffffffff3 1 ∧
    gives 0b00000100101001100011100000000000#32 (.sub 0 0xa63800#26) 0xffffffffffffffed 1 ∧
    gives 0b00001000101001100011100000000000#32 (.and 0 0xa63800#26) 0x0 1 ∧
    gives 0b00001100101001100011100000000000#32 (.or 0 0xa63800#26) 0xfffffffffffffff3 1 ∧
    gives 0b00010000101001100011100000000000#32 (.xor 0 0xa63800#26) 0xfffffffffffffff3 1 ∧
    gives 0b00010100101001100011100000000000#32 (.sll 0 0xa63800#26) 0xffffffffffffff80 1 ∧
    gives 0b00011000101001100011100000000000#32 (.srl 0 0xa63800#26) 0x1ffffffffffffffe 1 ∧
    gives 0b00011100101001100011100000000000#32 (.sra 0 0xa63800#26) 0xfffffffffffffffe 1 := by decide +kernel

theorem test_engine_multiply :
    gives 0b01000000101001100011100000000000#32 (.mul 0 0xa63800#26) 0xffffffffffffffd0 3 ∧
    gives 0b01000100101001100011100000000000#32 (.mulhu 0 0xa63800#26) 0x2 3 ∧
    gives 0b01001000101001100011100000000000#32 (.divu 0 0xa63800#26) 0x5555555555555550 66 ∧
    gives 0b01001100101001100011100000000000#32 (.remu 0 0xa63800#26) 0x0 66 ∧
    gives 0b01010000101001100011100000000000#32 (.slt 0 0xa63800#26) 0x1 1 ∧
    gives 0b01010100101001100011100000000000#32 (.sltu 0 0xa63800#26) 0x0 1 ∧
    gives 0b01011000101001100011100000000000#32 (.minu 0 0xa63800#26) 0x3 1 ∧
    gives 0b01011100101001100011100000000000#32 (.maxu 0 0xa63800#26) 0xfffffffffffffff0 1 := by decide +kernel

theorem test_engine_immediates :
    gives 0b00100000101001101111111111111111#32 (.addi 0 0xa6ffff#26) 0xffffffffffffffef 1 ∧
    gives 0b00100100101001101111111111111111#32 (.andi 0 0xa6ffff#26) 0xfff0 1 ∧
    gives 0b00101000101001101000000000000000#32 (.ori 0 0xa68000#26) 0xfffffffffffffff0 1 ∧
    gives 0b00101100101001101111111111111111#32 (.xori 0 0xa6ffff#26) 0xffffffffffff000f 1 ∧
    gives 0b00110000101001100000000000111111#32 (.slli 0 0xa6003f#26) 0x0 1 ∧
    gives 0b00110100101001100000000000111111#32 (.srli 0 0xa6003f#26) 0x1 1 ∧
    gives 0b00111000101001100000000000111111#32 (.srai 0 0xa6003f#26) 0xffffffffffffffff 1 ∧
    gives 0b00111100101000001000000000000000#32 (.lui 0 0xa08000#26) 0xffffffff80000000 1 ∧
    gives 0b11100100101001100000000000000000#32 (.popc 0 0xa60000#26) 0x3c 1 ∧
    gives 0b11101000101001110000000000000000#32 (.clz 0 0xa70000#26) 0x3e 1 ∧
    gives 0b11101100101000000000000000000001#32 (.csrr 0 0xa00001#26) 0x0 1 ∧
    gives 0b11100000101001100011100000000000#32 (.crc32c 0 0xa63800#26) 0x10f1cbc2 1 := by decide +kernel

/-- Division by 0 gives all ones and x[rs1] (R227); shifts use six bits of x[rs2] (R227); CLZ of 0 is 64. -/
theorem test_engine_corners :
    let g := fun (i : Instr) (w : Word) (x : SMap Xlen) (v : Xlen) => answers i (tEng w x) (fun t => (t.eng 0).get 5 == v)
    g (.divu 0 0xA63800#26) 0x48A63800 [(6, 9)] 0xFFFFFFFFFFFFFFFF ∧ g (.remu 0 0xA63800#26) 0x4CA63800 [(6, 9)] 9 ∧
    g (.sll 0 0xA63800#26) 0x14A63800 [(6, 1), (7, 65)] 2 ∧ g (.clz 0 0xA60000#26) 0xE8A60000 [] 64 := by decide +kernel

/-- x0 stays 0 (R224). -/
theorem test_engine_x0 : answers (.addi 0 0x060001#26) (tEng 0x20060001 tX) (fun t => (t.eng 0).get 0 == 0) = true := by decide +kernel

/-- What the hypotheses of the instructions' statements ask: engine 0 issues the word, and every register is idle. -/
theorem test_engine_issues : (tEng 0x00A63800 tX).issues 0 0x00A63800 ∧ (tEng 0xFC000000 tX).issues 0 0xFC000000 ∧
    (tEng 0x00A63800 tX).regsIdle 0 (List.range 32) := by
  unfold State.issues State.regsIdle
  decide +kernel

/-- The word decodes to the instruction, which moves the PC in so many cycles. -/
def goes (w : Word) (i : Instr) (pc cyc : Nat) : Bool :=
  decide (engDecode 0 w = some i) && answers i (tEng w tX) (fun t => (t.eng 0).pc == pc && (t.eng 0).cycles == cyc)

theorem test_engine_branches :
    goes 0b11000000110001110000000000000011#32 (.beq 0 0xc70003#26) 4100 1 ∧
    goes 0b11000100110001110000000000000011#32 (.bne 0 0xc70003#26) 4112 2 ∧
    goes 0b11001000110001110000000000000011#32 (.blt 0 0xc70003#26) 4112 2 ∧
    goes 0b11001100110001110000000000000011#32 (.bge 0 0xc70003#26) 4100 1 ∧
    goes 0b11010000110001110000000000000011#32 (.bltu 0 0xc70003#26) 4100 1 ∧
    goes 0b11010100110001110000000000000011#32 (.bgeu 0 0xc70003#26) 4112 2 ∧
    goes 0b11000100110001111111111111111111#32 (.bne 0 0xc7ffff#26) 4096 2 ∧
    goes 0b11011000101111111111111111111111#32 (.jal 0 0xbfffff#26) 4096 2 ∧
    goes 0b11011100101001110001000000000000#32 (.jalr 0 0xa71000#26) 4096 2 := by decide +kernel

theorem test_engine_link : answers (.jal 0 0xA00001#26) (tEng 0xD8A00001 tX) (fun t => (t.eng 0).get 5 == 4100 && (t.eng 0).pc == 4104) = true := by
  decide +kernel

/-- Illegal words (R225): a field that must be 0 is not, a shift immediate of 64, an unknown special register, a fifth fence. -/
theorem test_engine_illegal : [0x00A63801#32, 0x30A60040#32, 0x3CA68000#32, 0xECA00008#32, 0xF0000005#32, 0xF0000000#32,
    0xF8A60000#32, 0x94C60000#32, 0xE4A63800#32, 0x9CA60000#32].all (fun w => (engDecode 0 w).isNone) = true := by decide +kernel

/-- Raised exceptions: 0x03 for such a word, 0x04 outside the program (R224, R229). -/
theorem test_engine_exceptions :
    answers (engByOpcode 0 0 0xA63801#26) (tEng 0x00A63801 tX) (fun t => (t.eng 0).code == 3 && t.get (F.ENGE_STAT_LAST_CODE 0) == 3) ∧
    answers (.add 0 0xA63800#26) { tEng 0x00A63800 tX with clu.progs := [] } (fun t => (t.eng 0).code == 4 &&
      t.get (F.ENGE_FAULT_ADDR_HI_VALID 0) == 1) := by decide +kernel

/-! ### The idle cycle and the domains -/

/-- Both ends of the always-on clock's period: the cycle before its tick, and the tick. -/
theorem test_idle_cycle :
    (∃ t, step tUp = .next t ∧ t.now = 1 ∧ t.aonTick = 0 ∧ t.aonPhase = 512) ∧
    (∃ t, step { tUp with aonPhase := 3124488 } = .next t ∧ t.aonTick = 1 ∧ t.aonPhase = 0) := by
  refine ⟨⟨_, rfl, ?_⟩, ⟨_, rfl, ?_⟩⟩ <;> decide +kernel

/-- A domain gates once its idle time is up (R30), and not before. -/
theorem test_domains :
    (State.mayGate { tUp with now := 200000000 } .stream = true ∧ tUp.mayGate .stream = false ∧
      answers (.domainIdleGate .stream) { tUp with now := 200000000 } (fun t => !t.isAwake 52 && t.isAwake 0) = true) ∧
    (answers (.domainWakeDone .stream) { tUp with
        dom.awake := [0]
        dom.waking := [52] } (fun t => t.isAwake 52 && t.isAwake 0 && t.dom.waking.isEmpty)) := by decide +kernel

/-! ### Engine memory instructions -/

/-- Engine 0 with x6 = `a` and x8 to x15 set, bound to region 1, whose key is held, with 32 KiB of scratchpad. -/
def tMem (w : Word) (a : Xlen) : State :=
  { ((tEng w ([(6, a), (7, 5)] ++ (List.range 8).map (fun i => (8 + i, BitVec.ofNat 64 (0x1100 + i))))).put (F.ENGE_CTX_REGION 0) 1).put
      (F.ENG_CC_CFG_SP_WAYS 0) 1 with
    rgn.descs := [(1, tDesc)]
    key.slots := [(3, ⟨1, 2, 3, 0⟩)]
    clu.pads := [(8, 0x80), (9, 0x01)] }

def tPad : Xlen := 0xF00000000000

/-- The word is the instruction's and, from the address, leads to a state that passes the check. -/
def memGives (w : Word) (i : Instr) (a : Xlen) (p : State → Bool) : Bool :=
  decide ((engWord i) = some w) && (engDecode 0 w).isSome && answers i (tMem w a) p

/-- LD8 and LDU8 at the pad's byte 8 (0x80): the sign, the width and the last byte of the slice. -/
theorem test_load_pad :
    memGives 0x60A60008 (.ld8 0 0xA60008#26 .none) tPad (fun t => (t.eng 0).get 5 == 0xFFFFFFFFFFFFFF80) ∧
    memGives 0x64A60008 (.ld16 0 0xA60008#26 .none) tPad (fun t => (t.eng 0).get 5 == 0x180) ∧
    memGives 0x68A60008 (.ld32 0 0xA60008#26 .none) tPad (fun t => (t.eng 0).get 5 == 0x180) ∧
    memGives 0x6CA60008 (.ld64 0 0xA60008#26 .none) tPad (fun t => (t.eng 0).get 5 == 0x180) ∧
    memGives 0x70A60008 (.ldu8 0 0xA60008#26 .none) tPad (fun t => (t.eng 0).get 5 == 0x80) ∧
    memGives 0x74A60008 (.ldu16 0 0xA60008#26 .corrected) tPad (fun t => (t.eng 0).get 5 == 0x180 && t.get (F.ENG_CC_ERR_ECC_COR 0) == 1) ∧
    memGives 0x78A60008 (.ldu32 0 0xA60008#26 .uncorrectable) tPad (fun t => (t.eng 0).code == 8) ∧
    memGives 0x70A67FFF (.ldu8 0 0xA67FFF#26 .none) tPad (fun t => (t.eng 0).phase == .running) := by decide +kernel

/-- An address that misses its window, its alignment or its bounds, a home load, and an acquire (R216). -/
theorem test_load_home :
    memGives 0x6CA60000 (.ld64 0 0xA60000#26 .none) 0x200000000000 (fun t => (t.eng 0).code == 7) ∧
    memGives 0x6CA60001 (.ld64 0 0xA60001#26 .none) 0 (fun t => (t.eng 0).code == 5) ∧
    memGives 0x6CA60000 (.ld64 0 0xA60000#26 .none) 0x1000000 (fun t => (t.eng 0).code == 6) ∧
    memGives 0x6CA6FFF8 (.ld64 0 0xA6FFF8#26 .none) 0x1000000 (fun t => (t.eng 0).phase == .running && (t.eng 0).busy 5 &&
      t.accesses.map (fun a => a.dpa) == [0xFFFFC0]) ∧
    memGives 0x7CA60000 (.ldAcq 0 0xA60000#26 .none) 0 (fun t => (t.eng 0).ops.map (fun o => o.acquires) == [true] &&
      t.accesses.length == 1) ∧
    memGives 0x95060040 (.ldv 0 0x1060040#26 .none) 0 (fun t => (t.eng 0).busy 8 && (t.eng 0).busy 15 && !(t.eng 0).busy 16) ∧
    (tMem 0x6CA60000 0).regsIdle 0 [6, 5] := by
  unfold State.regsIdle
  decide +kernel

/-- Stores to the pad change their bytes; others take a place in the store buffer. -/
theorem test_stores :
    memGives 0x80E60001 (.st8 0 0xE60001#26) tPad (fun t => t.padByte 0 1 == 5 && t.padByte 0 2 == 0 && t.padByte 0 8 == 0x80) ∧
    memGives 0x85060008 (.st16 0 0x1060008#26) tPad (fun t => t.padByte 0 8 == 0 && t.padByte 0 9 == 0x11 && t.padByte 0 10 == 0) ∧
    memGives 0x89260000 (.st32 0 0x1260000#26) tPad (fun t => t.padByte 0 0 == 1 && t.padByte 0 1 == 0x11 && t.padByte 0 8 == 0x80) ∧
    memGives 0x8CE60008 (.st64 0 0xE60008#26) tPad (fun t => t.padByte 0 8 == 5 && t.padByte 0 9 == 0) ∧
    memGives 0x90E60008 (.stRel 0 0xE60008#26) 0 (fun t => (t.eng 0).ops.map (fun o => o.be) == [0xFF00#64]) ∧
    memGives 0x99060000 (.stv 0 0x1060000#26) tPad (fun t => t.padByte 0 8 == 1 && t.padByte 0 9 == 0x11 && t.padByte 0 63 == 0) ∧
    memGives 0x9C060000 (.zero 0 0x60000#26) tPad (fun t => t.padByte 0 8 == 0 && t.padByte 0 9 == 0) ∧
    memGives 0x80E60000 (.st8 0 0xE60000#26) 0x1000000 (fun t => (t.eng 0).code == 6) := by decide +kernel

/-- Atomics: words, their place in the store buffer, and where they fault. -/
theorem test_atomics :
    memGives 0xA0A63800 (.amoAdd 0 0xA63800#26) 8 (fun t => (t.eng 0).ops.map (fun o => o.kind) == [.amo .add 0 5 5]) ∧
    memGives 0xA4A63800 (.amoSwap 0 0xA63800#26) 8 (fun t => (t.eng 0).ops.map (fun o => o.kind) == [.amo .swap 0 5 5]) ∧
    memGives 0xA9063800 (.amoCas 0 0x1063800#26) 8 (fun t => (t.eng 0).ops.map (fun o => o.kind) == [.amo .cas 0x1100 5 8]) ∧
    memGives 0xACA63800 (.amoAnd 0 0xA63800#26) 8 (fun t => (t.eng 0).busy 5) ∧
    memGives 0xB0A63800 (.amoOr 0 0xA63800#26) 8 (fun t => (t.eng 0).busy 5) ∧
    memGives 0xB4A63800 (.amoXor 0 0xA63800#26) 8 (fun t => (t.eng 0).busy 5) ∧
    memGives 0xB8A63800 (.amoMinu 0 0xA63800#26) tPad (fun t => (t.eng 0).code == 0xE) ∧
    memGives 0xBCA63800 (.amoMaxu 0 0xA63800#26) 4 (fun t => (t.eng 0).code == 5) := by decide +kernel

/-- Barriers and ends, with their words (R250, R227). -/
theorem test_barriers :
    memGives 0xF0000001 (.fenceLoad 0 1#26) 0 (fun t => (t.eng 0).ldGate == ⟨0, 0, 0, 0⟩ && (t.eng 0).pc == 4100) ∧
    memGives 0xF0000002 (.fenceStore 0 2#26) 0 (fun t => (t.eng 0).cycles == 1) ∧
    memGives 0xF0000003 (.fenceFull 0 3#26) 0 (fun t => (t.eng 0).cycles == 1) ∧
    memGives 0xF0000004 (.fenceDevice 0 4#26) 0 (fun t => (t.eng 0).cycles == 1) ∧
    memGives 0xF4000000 (.fenceSc 0 0#26) 0 (fun t => (t.eng 0).cycles == 1) ∧
    memGives 0xF8070000 (.done 0 0x70000#26) 0 (fun t => (t.eng 0).phase == .ended && (t.eng 0).ret == 5 && (t.eng 0).code == 0) ∧
    memGives 0xFC00BEEF (.brk 0 0xBEEF#26) 0 (fun t => (t.eng 0).code == 0xC) := by decide +kernel

/-- With a debugger attached in Owner-debug BRK halts the engine after it (R236). -/
def tDebug : State :=
  ((tMem 0xFC000000 tPad).put F.MODE_STAT_TRUST trOwner).put F.MODE_DEBUG_ATTACHED 1

theorem test_breakpoint : tDebug.debugOk = true ∧
    answers (.brk 0 0#26) tDebug (fun t => (t.eng 0).dbg && t.engState 0 == 7 && (t.eng 0).pc == 4100) = true := by decide +kernel

/-! ### Ends of memory operations, the queue loop, binding, programs and debug -/

/-- Engine 0 with one memory operation. -/
def tOp (o : MemOp) : State :=
  let s := tMem 0x6CA60000 0
  s.setEng 0 { s.eng 0 with
    ops := [o]
    nextTag := o.tag + 1 }

def tLoad (st : MemStage) (dev : Bool) : MemOp := ⟨4, 0x100, .load 8 false 5 false, dev, 0, 0, gate0, st, 0, 4, 3, false, 1, tDesc, some 0, .none, false⟩
def tStore (st : MemStage) (dev : Bool) : MemOp :=
  ⟨4, (if dev then 0x100000000000 else 0x100), .store, dev, 7, BitVec.allOnes 64, gate0, st, 0, 4, 3, false, 1, tDesc, some 0, .none, false⟩

/-- A home load's data arrives intact, poisoned, or without a key; the registers, the codes and the metering (R229, R235). -/
theorem test_fill :
    let s := tOp (tLoad (.back (.data 9 false)) false)
    let p := tOp (tLoad (.back (.data 9 true)) false)
    let k := tOp (tLoad (.back .noKey) false)
    (s.opOf 0 4 = some (tLoad (.back (.data 9 false)) false) ∧ carryCheck (9#512 ^^^ 0) = carryCheck 9#512 ∧
      answers (.fillReturn 0 4 0) s (fun t => (t.eng 0).get 5 == 9 && (t.eng 0).ops.isEmpty) = true) ∧
    answers (.fillReturn 0 4 0) p (fun t => (t.eng 0).code == 8 && t.get (F.ENGE_STAT_LAST_CODE 0) == 8) = true ∧
    answers (.fillReturn 0 4 0) k (fun t => (t.eng 0).code == 0xA) = true := by decide +kernel

/-- A store's completion, stored and not; the time of a device load and of a device store runs out (R252). -/
theorem test_completions :
    let l := tLoad .sent true
    let s := tOp l
    let t := (tOp (tStore .sent true)).setEng 0 { (tOp (tStore .sent true)).eng 0 with ldGate := ⟨0, 0, 0, 5⟩ }
    answers (.storeComplete 0 ⟨4, 0⟩) (tOp (tStore (.done true) false)) (fun t => (t.eng 0).ops.isEmpty && !(t.eng 0).wrFailed) = true ∧
    answers (.storeComplete 0 ⟨4, 0⟩) (tOp (tStore (.done false) false)) (fun t => (t.eng 0).wrFailed) = true ∧
    (s.opOf 0 4 = some l ∧ s.ranOut l = true ∧ exec (.deviceLoadTimeout 0 4) s = .next (State.loadPoisoned
      { s with orb.remote := s.orb.remote.filter (fun r => !(r.eng == 0 && r.ref == 4)) } (0 : Fin 32) l false)) ∧
    (t.opOf 0 4 = some (tStore .sent true) ∧ t.ranOut (tStore .sent true) = true ∧ (t.eng 0).waitsOn (tStore .sent true) = true ∧ (t.eng 0).dbg = false ∧
      answers (.deviceStoreTimeout 0 4) t (fun u => (u.eng 0).code == 9 && u.rd R.ENG_STORE_LOST == 1 && (u.opOf 0 4).isNone)) :=
  have h : (tOp (tLoad .sent true)).opOf 0 4 = some (tLoad .sent true) := by decide +kernel
  have due : (tOp (tLoad .sent true)).ranOut (tLoad .sent true) = true := by decide +kernel
  ⟨by decide +kernel, by decide +kernel,
    ⟨h, due, by simp only [exec, execDeviceLoadTimeout, State.loadTimeout, show ((0 : Fin 32) : Nat) = 0 from rfl, h, due]; rfl⟩,
    by decide +kernel⟩

/-- A younger store of the line waits for the older one to complete (R245); an atomic's old value returns intact, and with a mismatch at
CP8 (R218, R235). -/
theorem test_store_order :
    let old := tStore .sent false
    let young := { tStore (.done true) false with tag := 5 }
    let s := (tOp old).setEng 0 { (tOp old).eng 0 with ops := [old, young] }
    let a : MemOp := { tStore (.done true) false with
      kind := .amo .add 0 1 5
      data := 77 }
    (s.opOf 0 5 = some young ∧ s.completesNow 0 young = false ∧ becomes (.storeComplete 0 ⟨5, 0⟩) s s) ∧
    ((tOp a).opOf 0 4 = some a ∧ (tOp a).completesNow 0 a = true ∧ carryCheck (77#512 ^^^ 0) = carryCheck 77#512 ∧
      answers (.storeComplete 0 ⟨4, 0⟩) (tOp a) (fun t => (t.eng 0).get 5 == 77 && (t.eng 0).ops.isEmpty) = true) ∧
    (carryCheck (77#512 ^^^ 1) ≠ carryCheck 77#512 ∧
      answers (.storeComplete 0 ⟨4, 1⟩) (tOp a) (fun t => (t.eng 0).code == 8 && (t.eng 0).get 5 == 0 && (t.eng 0).ops.isEmpty) = true) := by
  decide +kernel

/-- A descriptor: type 1, flags 0, program slot 1, pad 0, five arguments. -/
def tDescriptor : HostLine := BitVec.ofNat 512 (1 + 1 * 2 ^ 16 + 0xA1 * 2 ^ 64 + 0xA2 * 2 ^ 128 + 0xA5 * 2 ^ 320)

def tRing (ph : EngPhase) (r : Option FillRes) : State :=
  let s := (tMem 0 0).put (F.ENGE_QCFG_PROG_LAST 0) 1
  s.setEng 0 { s.eng 0 with
    phase := ph
    ring := r
    x := [] }

theorem test_descriptor :
    let s := tRing .readDesc (some (.data tDescriptor false))
    (s.mayTake 0 = true ∧ (s.eng 0).phase = .readDesc ∧ (s.eng 0).ring = some (.data tDescriptor false) ∧ bytesOf tDescriptor 0 1 = 1 ∧
      bytesOf tDescriptor 1 1 = 0 ∧ bytesOf tDescriptor 4 4 = 0 ∧ s.get (F.ENGE_QCFG_PROG_FIRST 0) ≤ 1 ∧
      bytesOf tDescriptor 2 2 = 1 ∧ bytesOf tDescriptor 2 2 ≤ s.get (F.ENGE_QCFG_PROG_LAST 0) ∧ (s.progLen 0 1).isSome = true) ∧
    answers (.descriptorTake 0 false) s (fun t => (t.eng 0).phase == .running && (t.eng 0).pc == 4096 && (t.eng 0).get 1 == 0xA1 &&
      (t.eng 0).get 2 == 0xA2 && (t.eng 0).get 5 == 0xA5 && (t.eng 0).get 6 == 256 && (t.eng 0).get 7 == 0) = true := by decide +kernel

theorem test_queue_loop :
    let s := tRing .ended none
    let k := tRing .keyProd none
    let q := tRing .keyCons none
    let c := ((tRing .running none).put (F.ENGE_QCFG_CYC_LIMIT 0) 1).setEng 0 { (tRing .running none).eng 0 with cycles := 2 ^ 20 }
    ((s.eng 0).mine = [] ∧ s.service ≠ svReadOnly ∧ s.halted = false ∧ becomes (.descriptorComplete 0) s (s.writeCompletion 0 false)) ∧
    ((k.slot (k.engKey 0).toNat).isSome = true ∧ k.passed 200 200000 = true ∧ becomes (.engineKeyRecheck 0) k (k.readProd 0)) ∧
    becomes (.engineKeyRecheck 0) q (q.ringRead 0 (q.ringOff 0 + 64) .readCons) ∧
    becomes (.engineKeyRecheck 0) (k.mark 200) (k.mark 200) ∧
    becomes (.engineKeyRecheck 0) (tRing .keyDesc none) ((tRing .keyDesc none).engNext 0) ∧
    (c.get (F.ENGE_QCFG_CYC_LIMIT 0) ≠ 0 ∧ answers (.cycleLimit 0) c (fun t => (t.eng 0).code == 0xB) = true) := by decide +kernel

/-- Binding: a ring of 16 entries that fits, and one of 8; the word of CTX binds engine 0 to region 1. -/
def tBind (log2 : Nat) : State :=
  ({ tUp with
    rgn.descs := [(1, tDesc)]
    key.slots := [(3, ⟨1, 2, 3, 0⟩)]
    clu.pads := [(8, 0x80), (2 ^ 19, 0x01)] }).put (F.ENGE_QCFG_QSIZE_LOG2 0) log2

def tBindWord : Word := fieldPut (fieldPut 0 (F.ENGE_CTX_REGION 0).lo (F.ENGE_CTX_REGION 0).len 1) (F.ENGE_CTX_BIND 0).lo 1 1

theorem test_bind :
    let s := tBind 4
    (s.touch.mayWrite .cc (R.ENGE_CTX 0) = true ∧ s.engBound 0 = false ∧ (F.ENGE_CTX_BIND 0).on tBindWord = true ∧
      (F.ENGE_CTX_ABORT 0).on tBindWord = false) ∧
    answers (.engBind .cc 0 tBindWord) s (fun t => t.engBound 0 && (t.eng 0).phase == .readCons && t.padByte 0 8 == 0 &&
      t.padByte 1 0 == 1 && t.get (F.ENGE_STAT_BERR 0) == 0) = true ∧
    answers (.engBind .cc 0 tBindWord) (tBind 3) (fun t => !t.engBound 0 && t.get (F.ENGE_STAT_BERR 0) == 5 && t.clu == (tBind 3).clu) = true := by
  decide +kernel

theorem test_unbind :
    let s := tRing .running none
    let v : Word := fieldPut 0 (F.ENGE_CTX_ABORT 0).lo 1 1
    (s.touch.mayWrite .cc (R.ENGE_CTX 0) = true ∧ s.engBound 0 = true ∧ (s.eng 0).inHand = true) ∧
    becomes (.engUnbind .cc 0 0) s (s.touch.engUnbind 0) ∧ ((s.engUnbind 0).eng 0).leaving = true ∧
    ((F.ENGE_CTX_ABORT 0).on v = true ∧ exec (.engAbort .cc 0 v) s = .next (s.touch.engWithdraw 0) ∧
      ((s.engWithdraw 0).eng 0).code = 0xD) :=
  ⟨by decide +kernel, by decide +kernel, by decide +kernel, by decide +kernel, rfl, rfl⟩

/-- A load of one slot of cluster 0 that passes, one past slot 63 and one of no cluster; an unload. -/
def tLoadWord (clusters slot n : Nat) (go : Bool) : Word :=
  let v := fieldPut 0 F.ENG_LOAD_CTL_CLUSTERS.lo F.ENG_LOAD_CTL_CLUSTERS.len clusters
  let v := fieldPut (fieldPut v F.ENG_LOAD_CTL_SLOT.lo F.ENG_LOAD_CTL_SLOT.len slot) F.ENG_LOAD_CTL_NSLOTS.lo F.ENG_LOAD_CTL_NSLOTS.len n
  if go then fieldPut v F.ENG_LOAD_CTL_GO.lo 1 1 else fieldPut v F.ENG_LOAD_CTL_UNLOAD.lo 1 1

def tLoader : State :=
  { tBind 4 with
    clu.prog := [(63, [1]), (62, [2])]
    clu.progs := [(62, 2)] }

theorem test_program_load :
    let s := tLoader
    let w := tLoadWord 1 63 0 true
    let u := tLoadWord 1 63 0 false
    let b := tLoadWord 1 63 1 true
    let z := tLoadWord 0 0 0 true
    (s.touch.mayWrite .cc R.ENG_LOAD_CTL = true ∧ s.clu.loadRun = none ∧ F.ENG_LOAD_CTL_GO.on w = true ∧
      (s.touch.plainWrite .cc R.ENG_LOAD_CTL w).loadCheck 1 63 1 = 0 ∧
      (s.touch.plainWrite .cc R.ENG_LOAD_CTL b).loadCheck 1 63 2 = 1 ∧
      (s.touch.plainWrite .cc R.ENG_LOAD_CTL u).loadCheck 1 63 1 = 0) ∧
    answers (.engLoad .cc w) s (fun t => t.clu.loadRun == some ⟨1, 63, 1⟩ && t.get F.ENG_LOAD_STAT_BUSY == 1) = true ∧
    answers (.engLoad .cc b) s (fun t => t.get F.ENG_LOAD_STAT_CODE == 1 && t.clu == s.clu) = true ∧
    answers (.engLoad .cc z) s (fun t => t.get F.ENG_LOAD_STAT_CODE == 1 && t.clu == s.clu) = true ∧
    answers (.engUnload .cc u) s (fun t => (mapGet? t.clu.prog 63).isNone) = true ∧
    answers (.engLoadDone [0xFC000000]) { s with clu.loadRun := some ⟨1, 63, 1⟩ } (fun t => mapGet? t.clu.progs 63 == some 1 &&
      ((mapGet? t.clu.prog 63).getD []).getD 0 0 == 0xFC000000 && t.clu.loadRun.isNone) = true := by decide +kernel

theorem test_debug :
    let s := tDebug
    let h := s.setEng 0 { s.eng 0 with dbg := true }
    (becomes (.debuggerAttach true) s (s.put F.MODE_DEBUG_ATTACHED 1) ∧ s.trust ≠ trSealed) ∧
    answers (.debugHalt (.engine 0)) s (fun t => t.eng 0 == { s.eng 0 with dbg := true } && t.engState 0 == 7) = true ∧
    becomes (.debugResume (.engine 0)) h (h.engGo 0) ∧
    becomes (.debugRegisterAccess (.engine 0) 5 true 77) h (h.setEng 0 ((h.eng 0).set 5 77)) ∧
    (h.eaOf 0 0xF00000000008 8 false = .pad 8 ∧ becomes (.debugMemoryAccess 0 0xF00000000008 false 0) h (h.say (.debug 0x180 false))) ∧
    answers (.debugStep (.engine 0)) h (fun t => (t.eng 0).dbg && (t.eng 0).pc == 4100) = true ∧
    (s.dbgEngine 0 = false ∧ becomes (.debugStep (.engine 0)) s s ∧ becomes (.debugStep (.core 2)) h h) ∧
    answers (.debuggerAttach false) h (fun t => !(t.eng 0).dbg && t.get F.MODE_DEBUG_ATTACHED == 0) = true ∧
    answers (.boundaryScanInstruction true) (tUp.put F.MODE_STAT_SERVICE svHold) (fun t => t.get F.MODE_DEBUG_BSCAN == 1) = true ∧
    answers (.boundaryScanInstruction true) tUp (fun t => t.get F.MODE_DEBUG_BSCAN == 0) = true := by decide +kernel

/-! ### Media -/

/-- A frame of R197 with its CRC: die, plane, tile, line, count and argument. -/
def tFrame (op die plane tile line count arg : Nat) : BitVec 128 :=
  let f := BitVec.ofNat 128 (op + 256 * (die + 16 * plane) + 2 ^ 16 * tile + 2 ^ 40 * line + 2 ^ 48 * count + 2 ^ 56 * arg)
  f + BitVec.ofNat 128 ((crc16 (toBytes 14 f)).toNat * 2 ^ 112)

/-- Die 15 of channel 31 in standby, with a suspended program on plane 1. -/
def tDie : State :=
  { tUp with adm.power := 1 }.setDie 31 15 { dieInit with
    standby := true
    planes := [(1, { planeInit with susp := some (.prog1 7 3 9) })] }

/-- Every command that a die takes, at the last tile, die and line; the frames are not rejected, and each leaves what it should. -/
theorem test_die_array :
    let f := fun op line arg => tFrame op 15 3 131071 line 0 arg
    let g := fun (s : State) => (s.die 31 15).plane 3
    answers (.read1 31 (f 1 63 0)) tDie (fun t => (g t).run == some (.read1 131071 63 0) && !(t.die 31 15).standby && (t.die 31 15).err == 0) ∧
    answers (.read4 31 (f 2 0 0) 5) tDie (fun t => (g t).run == some (.read4 131071 0 5)) ∧
    answers (.softRead 31 (f 3 49 1)) tDie (fun t => (g t).run == some (.soft true 131071 49 0)) ∧
    answers (.program1 31 (f 9 63 0) 8) tDie (fun t => (g t).run == some (.prog1 131071 63 8)) ∧
    answers (.program4 31 (f 10 0 0x10)) tDie (fun t => (g t).run == some (.prog4 131071 0 1)) ∧
    answers (.resetTile 31 (f 12 0 0)) tDie (fun t => (g t).run == some (.reset 131071)) ∧
    answers (.calibrate 31 (f 0x20 0 12)) tDie (fun t => (g t).run == some (.calibrate 12)) ∧
    becomes (.program1 31 (f 9 63 0) 8) { tDie with adm.power := 0 } { tDie with adm.power := 0 } := by decide +kernel

theorem test_die_other :
    let f := fun op line count arg => tFrame op 15 1 0 line count arg
    let g := fun (s : State) => (s.die 31 15).plane 1
    answers (.dataOut 31 (f 4 0 0 0)) tDie (fun t => t.out.length == 1) ∧
    answers (.dataIn 31 (f 8 255 1 0) [77]) tDie (fun t => mapGet? (g t).tileBuf 255 == some 77) ∧
    answers (.suspend 31 (f 0x10 0 0 0)) (tDie.setDie 31 15 { dieInit with planes := [(1, { planeInit with run := some (.reset 4) })] })
      (fun t => (g t).susp == some (.reset 4) && (g t).run.isNone) ∧
    tDie.readsOn 31 15 = false ∧ answers (.resume 31 (f 0x11 0 0 0)) tDie (fun t => (g t).run == some (.prog1 7 3 9) && (g t).susp.isNone) ∧
    answers (.dieStatus 31 (f 0x18 0 0 1)) (tDie.setDie 31 15 { dieInit with wasReset := true })
      (fun t => !(t.die 31 15).wasReset && t.out == [.die 31 15 (withCrc [0x11, 0, 0, 0])]) ∧
    answers (.temp 31 (f 0x19 0 0 0)) (tDie.setDie 31 15 { dieInit with
        temp := 100
        tempValid := true }) (fun t => t.out == [.die 31 15 (withCrc [100, 0x80])]) ∧
    answers (.train 31 (f 0x28 0 0 0) 0) tDie (fun t => t.out == [.die 31 15 (withCrc trainPattern)]) ∧
    answers (.resetDie 31 (f 0x3F 0 0 0)) tDie (fun t => (t.die 31 15).wasReset && (g t).susp.isNone) := by decide +kernel

theorem test_die_id : (tDie.die 31 15).reject opReadId (frameOf opReadId (tFrame 0x1A 15 1 0 0 0 0)) = 0 ∧
    (exec (.readId 31 (tFrame 0x1A 15 1 0 0 0 0)) tDie = .next ((tDie.idFrame 31 (tFrame 0x1A 15 1 0 0 0 0)))) := ⟨by decide +kernel, rfl⟩

/-- Each rejection at the lowest value it applies to (R199): a bad CRC, a reserved bit, tile 131,072, a line of 64, a busy plane, a
third high operation, a pass out of order, a program while one is suspended. -/
theorem test_die_rejects :
    let e := fun (c : Instr) (s : State) (n : Nat) => answers c s (fun t => (t.die 31 15).err == n && t.out.isEmpty)
    let busy := { tUp with adm.power := 1 }.setDie 31 15 { dieInit with planes := [(0, { planeInit with run := some (.reset 4) }), (2, { planeInit with run := some (.reset 4) })] }
    e (.read1 31 (tFrame 1 15 1 0 0 0 0 ^^^ 1#128 <<< 127)) tDie 1 ∧ e (.read1 31 (tFrame 1 (15 + 64) 1 0 0 0 0)) tDie 2 ∧
    e (.read1 31 (tFrame 1 15 1 131072 0 0 0)) tDie 3 ∧ e (.read1 31 (tFrame 1 15 1 0 64 0 0)) tDie 3 ∧
    e (.read4 31 (tFrame 2 15 1 131072 0 0 0) 0) tDie 3 ∧ e (.softRead 31 (tFrame 3 15 1 0 50 0 1)) tDie 3 ∧
    e (.dataIn 31 (tFrame 8 15 1 0 1 0 0) []) tDie 3 ∧ e (.calibrate 31 (tFrame 0x20 15 1 0 0 0 13)) tDie 3 ∧
    e (.program4 31 (tFrame 10 15 3 0 0 0 0)) tDie 3 ∧ e (.read1 31 (tFrame 1 15 0 0 0 0 0)) busy 4 ∧
    e (.resetTile 31 (tFrame 12 15 1 0 0 0 0)) busy 5 ∧ e (.program4 31 (tFrame 10 15 3 0 0 0 0x20)) tDie 6 ∧
    e (.program1 31 (tFrame 9 15 1 0 0 0 0) 0) tDie 7 ∧ e (.resetDie 31 (tFrame 0x3F 15 1 0 0 0 0 + 1#128 <<< 120)) tDie 1 := by decide +kernel

/-- A program, a read and a reset end; only their own cells change. -/
theorem test_die_ends :
    let s := fun o => tUp.setDie 31 15 { dieInit with planes := [(3, { planeInit with run := some o })] }
    let w := fun o => (s o).setCell (mpaOf 31 15 3 131071 63) 5
    answers (.dieArrayDone 31 15 3 (.verify true)) (s (.prog1 131071 63 9)) (fun t => t.cell (mpaOf 31 15 3 131071 63) == 9 &&
      t.cell (mpaOf 31 15 3 131071 62) == erased && !((t.die 31 15).plane 3).fail) ∧
    answers (.dieArrayDone 31 15 3 (.read 1)) (w (.read1 131071 63 0)) (fun t => ((t.die 31 15).plane 3).bufValid && t.store == (w (.reset 0)).store) ∧
    answers (.dieArrayDone 31 15 3 (.read 1)) (w (.read4 131071 255 0)) (fun t => ((t.die 31 15).plane 3).bufValid && t.store == (w (.reset 0)).store) ∧
    answers (.dieArrayDone 31 15 3 (.samples 1)) (w (.soft false 131071 63 3)) (fun t => ((t.die 31 15).plane 3).bufValid && ((t.die 31 15).plane 3).soft) ∧
    answers (.dieArrayDone 31 15 3 (.verify true)) ((w (.reset 131071)).setCell (mpaOf 31 15 3 131070 0) 6) (fun t =>
      t.cell (mpaOf 31 15 3 131071 63) == erased && t.cell (mpaOf 31 15 3 131070 0) == 6) := by decide +kernel

theorem test_media_care :
    let s := tUp.setDie 31 15 { dieInit with err := 3 }
    let dim := { tUp.put F.MODE_STAT_POWER pwDim with dom.awake := [0] }
    becomes (.dieTempConversion 31 15 (some 200)) tUp (tUp.setDie 31 15 { tUp.die 31 15 with
        temp := 200
        tempValid := true }) ∧
    answers (.mediaResetPin 31) tDie (fun t => (t.die 31 15) == (tDie.die 31 15).cleared) ∧
    ((s.die 31 15).attention = true ∧ answers (.attention 31 15) s (fun t => !(t.die 31 15).attention && t.get (F.MED_ERR_CODE 31) == 3)) ∧
    ((dim.die 31 15).active = false ∧ answers (.dieStandby 31 15) dim (fun t => (t.die 31 15).standby)) ∧
    answers (.dieStandby 31 15) { dim with dom.awake := [0, 39] } (fun t => !(t.die 31 15).standby) := by
  decide +kernel

/-- A finished read is moved out by the N16 (R203). A die that answers nothing is waited for while another plane works, then reset; with
nothing else to wait for it is reset at once, and one that answers after all only counts (R208). -/
theorem test_die_waits :
    let s := tUp.setDie 31 15 { dieInit with planes := [(2, { planeInit with
        buf := 7
        bufValid := true
        done := true
        last := some (.read1 3 4 0) })] }
    let busy := tUp.setDie 31 15 { dieInit with planes := [(0, { planeInit with run := some (.reset 4) }), (2, { planeInit with run := some (.reset 4) })] }
    let late := busy.setDie 31 15 { busy.die 31 15 with overdue := true }
    (answers (.attention 31 15) s (fun t => t.out.contains (.die 31 15 ((s.die 31 15).plane 2).out) && !(t.die 31 15).attention) ∧
      (s.die 31 15).attention = true ∧ ∀ p < 4, ((s.die 31 15).plane p).fail = false) ∧
    (tUp.lit = true ∧ tUp.chanOut 31 = false ∧ tUp.wear.diesOut.contains (dieIdx 31 15) = false ∧
      answers (.dieOverdue 31 15 true true) tUp (fun t => t.get (F.MED_TIMEOUT_COUNT 31) == 1 && t.get (F.MED_TIMEOUT_DIE 31) == 15 &&
        !(t.die 31 15).overdue)) ∧
    (2 ≤ (busy.die 31 15).waiting ∧ answers (.dieOverdue 31 15 false true) busy (fun t => (t.die 31 15).overdue &&
      !t.planeFree 31 15 1 false && !(t.die 31 15).wasReset)) ∧
    answers (.dieOverdue 31 15 true true) late (fun t => !(t.die 31 15).overdue && !(t.die 31 15).attention &&
      !(t.wear.diesOut.contains (dieIdx 31 15))) := by
  decide +kernel

/-- An eye at the limit, one below it that the sweep mends; MEDn_CTL's three bits. -/
theorem test_media_control :
    let s := { tUp.put (F.MED_TRAIN_CFG_INTERVAL_MS 31) 10 with wear.trainTurn := [(31, 15)] }
    let m := s.minEye 31
    let w := fun (f : Fld) => fieldPut 0 f.lo f.len 1
    (s.chanOut 31 = false ∧ s.get (F.MED_TRAIN_CFG_INTERVAL_MS 31) ≠ 0 ∧ 0 < m ∧ m < 64) ∧
    (s.lit = true ∧ (s.die 31 15).overdue = false ∧ s.trainDue 31 = true ∧ s.trainNext 31 = some 15) ∧
    s.minEye 31 ≤ (BitVec.ofNat 6 m).toNat ∧ ((s.noteTrain 31 15 m).trained 31 15).trainNext 31 = some 0 ∧
    (BitVec.ofNat 6 (m - 1)).toNat < s.minEye 31 ∧
    s.touch.mayWrite .cc (R.MED_CTL 31) = true ∧
    answers (.medCntClr .cc 31 (w (F.MED_CTL_CNT_CLR 31))) ((s.wr (R.MED_ERR 31) 5).wr (R.MED_TIMEOUT 31) 6) (fun t =>
      t.rd (R.MED_ERR 31) == 0 && t.rd (R.MED_TIMEOUT 31) == 0) ∧
    (s.lit = true ∧ answers (.medRetrain .cc 31 (w (F.MED_CTL_RETRAIN 31))) s (fun t => t.get (F.MED_STAT_STATE 31) == 4 &&
      mapGet? t.wear.retrainDue 31 == some (List.range 16))) ∧
    answers (.medDieRst .cc 31 (w (F.MED_CTL_DIE_RST 31))) ((tDie.setDie 31 15 { dieInit with tempValid := true }).put (F.MED_DIE_SEL_DIE 31) 15) (fun t =>
      (t.die 31 15).wasReset && !(t.die 31 15).tempValid) := by decide +kernel

/-! ### Host accesses -/

/-- Port 0 up with a decoder of 256 MiB at 1 TiB over DPA 0; region 1 as above; 4,096 user tiles; power to spend. -/
def tHost : State :=
  let s := ((((tUp.put (F.HP_STATUS_DQ_HOLD 0) 0).put F.MAP_USER_TILES_user 4096).put F.MAP_STAT_FMT 1).put F.MAP_STAT_ARMED 1)
  { s with
    rgn.descs := [(1, tDesc)]
    key.slots := [(3, ⟨1, 2, 3, 0⟩)]
    adm.power := 1000000
    ports := [(0, { portInit with
      linkUp := true
      decs := [(0, ⟨2 ^ 40, 2 ^ 28, 1, 256, 0, 0⟩)] })] }

/-- The last host line of region 1, as the host and as the device address it. -/
def tHpa : BitVec 52 := BitVec.ofNat 52 (2 ^ 40 + 2 ^ 24 - 64)
def tDpa : Nat := 2 ^ 24 - 64

/-- A read of the region's last host line resolves and waits; one past it, and one below every decoder, do not resolve. -/
theorem test_host_read :
    (tHost.portServes 0 = true ∧ tHost.portContained 0 = false ∧ tHost.resolve 0 tHpa.toNat = .ok 0 1 tDesc 3 tDpa ∧ tHost.mediaLost = false) ∧
    answers (.cxlMemRead 0 tHpa) tHost (fun t => t.out.isEmpty && t.accesses.map (fun a => (a.dpa, a.region, a.key.toNat, a.write)) == [(tDpa, 1, 3, false)]) = true ∧
    (tHost.resolve 0 (tHpa.toNat + 64) = .bad 1 (some (2 ^ 24)) ∧
      answers (.cxlMemRead 0 (tHpa + 64)) tHost (fun t => t.out == [.readData 0 0 0 true] && t.get (F.HP_ERR_INFO_REASON 0) == 1) = true) ∧
    (tHost.resolve 0 5 = .bad 1 none ∧ answers (.cxlMemRead 0 5) tHost (fun t => t.accesses.isEmpty) = true) ∧
    answers (.cxlMemRead 0 tHpa) (tHost.put (F.HP_STATUS_VIRAL_IN 0) 1) (fun t => t.out == [.readData 0 0 0 true] && t.accesses.isEmpty) = true := by
  decide +kernel

/-- A partial write, one that does not resolve, and one that the lane changed. -/
theorem test_host_write :
    answers (.cxlMemWrite 0 tHpa 0xAABB 1 0) tHost (fun t => t.accesses.map (fun a => (a.dpa, a.data, a.be, a.write)) == [(tDpa, 0xBB, 1, true)] && t.out.isEmpty) = true ∧
    answers (.cxlMemWrite 0 5 0xAABB 1 0) tHost (fun t => t.out == [.writeDone 0 0 false] && t.accesses.isEmpty) = true ∧
    (carryCheck (mergeBytes 64 0 (0xBB : HostLine) 1 ^^^ 1) ≠ carryCheck (mergeBytes 64 0 (0xBB : HostLine) 1) ∧ tHost.key.halt = false ∧
    answers (.cxlMemWrite 0 tHpa 0xBB 1 1) tHost (fun t => t.key.halt && t.get F.KEY_HALT_CAUSE_CAUSE == 8 && t.get F.KEY_HALT_CAUSE_CP == 2 &&
      t.out.isEmpty && t.accesses.isEmpty) = true) := by decide +kernel

/-- One access of a host in a stage. -/
def tAccess (write : Bool) (st : AccStage) : Access :=
  { id := 7, own := .host, port := 0, write := write, dpa := tDpa, region := 1, desc := tDesc, key := 3, data := 0xBB,
    be := BitVec.allOnes 64, cc := 0, stage := st, order := 0, material := ⟨3, none⟩, amo := none, poisonAll := false, silent := false, born := 0 }

def tAcc (write : Bool) (st : AccStage) : State := { tHost with accesses := [tAccess write st] }

/-- The region's last line in the vault, with the carry checks of its plaintext. -/
def tImg : LineImg := ⟨0, carryChecks 0, 0, 3, 0, false, 0⟩
def tVaulted (s : State) : State := (s.place (lineOf tDpa) tImg).getD s

/-- A record of the region's last line, under its key. -/
def tRec : DmrRec := ⟨lineOf tDpa, 1, 3, 0, none, 5, 1, 0⟩

/-- `s` with the region's last line on the media, at the last line of position 77, where its cells hold `st`. -/
def tBulk (s : State) (st : Stored) : State :=
  ({ s with store.map := [(255, { mapEnt0 with
      mapped := true
      pos := 77 })] } : State).setCell (77 * 256 + 255) st

theorem tBulk_cell (s : State) (st : Stored) : (tBulk s st).cell (77 * 256 + 255) = st := mapGet_mapSet_same _ _ _ _

/-- The line of zeros stored under key 3. -/
def tStored : Stored := encodeStored ⟨1, 2, 3, 0⟩ 1 65535 tImg

/-- A stored line that is marked with key 4. -/
def tOther : Stored := BitVec.ofNat 2432 ((2 ^ 21 + 4) * 2 ^ 2048)

/-- A line stored with a MAC that is not its own. -/
def tInteg : LineImg := { tImg with integ := true }
def tBadMac : LineImg := { tInteg with mac := macOf ⟨1, 2, 3, 0⟩ 65535 tInteg + 1 }

/-- An access is admitted; a second one to its line is with it; it joins its line's record; it meets Read-only; it waits while its
port's class is not first. -/
theorem test_access_admit :
    let s := fun w => tAcc w .waiting
    let a := fun w => tAccess w .waiting
    let two := { tHost with accesses := [{ a true with id := 6, stage := .lookup }, a true] }
    let withRec := { s true with key.dmr := [tRec] }
    let ro := (s true).put F.MODE_STAT_SERVICE svReadOnly
    let shut := (s false).put F.MODE_STAT_SERVICE svHold
    ((s false).access 7 = some (a false) ∧ (s false).admits (a false) = true ∧
      becomes (.accessAdmit ⟨7, 0⟩) (s false) (((s false).letIn (a false)).showVault)) ∧
    (two.access 7 = some (a true) ∧ two.admits (a true) = true ∧ two.service ≠ svReadOnly ∧ two.aloneOn (a true) = false ∧
      answers (.accessAdmit ⟨7, 0⟩) two (fun t => t.accesses.length == 2)) ∧
    (withRec.admits (a true) = true ∧ withRec.aloneOn (a true) = true ∧ withRec.joins (a true) (withRec.newMaterial (a true)) = true ∧
      answers (.accessAdmit ⟨7, 0⟩) withRec (fun t => t.out == [.writeDone 0 7 true] && t.key.dmr.map (·.mask) != [1])) ∧
    (ro.admits (a true) = true ∧ ro.service = svReadOnly ∧
      answers (.accessAdmit ⟨7, 0⟩) ro (fun t => t.out == [.writeDone 0 7 false] && t.accesses.isEmpty)) ∧
    (shut.access 7 = some (a false) ∧ shut.admits (a false) = false ∧
      answers (.accessAdmit ⟨7, 0⟩) shut (fun t => t.accesses == [a false])) := by decide +kernel

theorem test_access_lookup :
    let s := tVaulted (tAcc false .lookup)
    let poisoned := ((tAcc false .lookup).place (lineOf tDpa) { tImg with poison := 8 }).getD s
    let other := ((tAcc false .lookup).place (lineOf tDpa) { tImg with keyTag := 4 }).getD s
    let a := tAccess false .lookup
    (s.lookupAwake = true ∧ s.lineTurn a = true ∧ s.late a = false ∧ s.dmrOf (lineOf a.dpa) = none ∧
      (match s.source (lineOf tDpa) with | .vault _ w => w.img == tImg | _ => false) = true ∧ carryChecks (tImg.data ^^^ 0) = tImg.cc ∧
      s.readKeys (s.accDesc a) 3 3 0 = .slot (some ⟨1, 2, 3, 0⟩) ∧
      answers (.lookupReturn 7 0 0) s (fun t => t.out == [.readData 0 7 0 false] && t.accesses.isEmpty)) ∧
    answers (.lookupReturn 7 0 0) poisoned (fun t => t.out == [.readData 0 7 0 true]) ∧
    (other.readKeys (other.accDesc a) 3 4 0 = .mismatch ∧ answers (.lookupReturn 7 0 0) other (fun t => t.out == [.readData 0 7 0 true] &&
      t.rd64 (R.HP_CNT_LO 0 7) == 1)) ∧
    (carryChecks (tImg.data ^^^ 1) ≠ tImg.cc ∧ answers (.lookupReturn 7 1 0) s (fun t => t.key.halt &&
      t.get F.KEY_HALT_CAUSE_CAUSE == 8 && t.get F.KEY_HALT_CAUSE_CP == 4)) ∧
    ((tAcc false .lookup).source (lineOf tDpa) = .unmapped ∧
      answers (.lookupReturn 7 0 0) (tAcc false .lookup) (fun t => t.out == [.readData 0 7 0 false])) := by decide +kernel

/-- A line on the media: its read is issued, met under another key's mark, and undecodable. -/
theorem test_access_bulk :
    let m := 77 * 256 + 255
    let s := fun st => tBulk (tAcc false st) tOther
    let a := tAccess false (.media m false)
    ((s .lookup).source (lineOf tDpa) = .bulk m ∧ (s .lookup).chanOut (mpaCh m) = false ∧ (s .lookup).unitOut (mpaCh m) (mpaDie m) (mpaPlane m) = false ∧
      (s .lookup).mustAround (tAccess false .lookup) m false = false ∧ (s .lookup).sharedRead (tAccess false .lookup) = none ∧
      (s .lookup).dieSilent m false false = false ∧
      answers (.lookupReturn 7 0 0) (s .lookup) (fun t => t.out.length == 1 && t.accesses.map (·.stage) == [.media m false])) ∧
    ((s (.media m false)).isAwake (8 + mpaCh m) = true ∧ (s (.media m false)).dieTurn a m = true ∧ (s (.media m false)).late a = false ∧
      (s (.media m false)).vaultHit (lineOf a.dpa) = none ∧
      (s (.media m false)).dmrOf (lineOf tDpa) = none ∧ (s (.media m false)).readFor a true (tOther ^^^ 0) = .mismatch ∧
      answers (.mediaLineReceived 7 (.decoded 0 0) 0) (s (.media m false)) (fun t => t.out == [.readData 0 7 0 true])) ∧
    (dPatient a.desc = false ∧ a.spec = false ∧
      answers (.mediaLineReceived 7 .undecodable 0) (s (.media m false)) (fun t => t.accesses.map (·.stage) == [.recon m] && t.adm.deep.length == 1)) ∧
    answers (.mediaLineReceived 7 .undecodable 0) (tAcc false (.media m true)) (fun t => t.accesses.map (·.stage) == [.deep m]) := by decide +kernel

theorem tStored_reads (s : State) (d : BitVec 512) (key : Nat) (hk : s.readKeys d key 3 0 = .slot (some ⟨1, 2, 3, 0⟩)) (hi : s.integ = false) :
    s.readStored d key 65535 true tStored = .ok tImg :=
  readStored_encodeStored s d key 65535 true ⟨1, 2, 3, 0⟩ tImg hk hi.symm rfl rfl

/-- The line that fails its MAC, as it is stored. -/
def tBadStored : Stored := encodeStored ⟨1, 2, 3, 0⟩ 1 65535 tBadMac

theorem macOf_mac (k : KeySlot) (line : Nat) (l : LineImg) (m : BitVec 64) : macOf k line { l with mac := m } = macOf k line l := rfl

theorem tBadMac_fails : tBadMac.mac ≠ macOf ⟨1, 2, 3, 0⟩ 65535 tBadMac := by
  have e := macOf_mac ⟨1, 2, 3, 0⟩ 65535 tInteg (macOf ⟨1, 2, 3, 0⟩ 65535 tInteg + 1)
  have h : ∀ x : BitVec 64, x + 1 ≠ x := fun x => by simp
  exact fun c => h (macOf ⟨1, 2, 3, 0⟩ 65535 tInteg) (Eq.trans c e)

theorem tBadStored_reads (s : State) (d : BitVec 512) (key : Nat) (hk : s.readKeys d key 3 0 = .slot (some ⟨1, 2, 3, 0⟩)) (hi : s.integ = true) :
    s.readStored d key 65535 true tBadStored = .macFail := by
  have tag : tBadMac.keyTag = 3 := rfl
  have gen : tBadMac.kgen = 0 := rfl
  have on : tBadMac.integ = true := rfl
  have hk' : s.readKeys d key tBadMac.keyTag.toNat tBadMac.kgen.toNat = .slot (some ⟨1, 2, 3, 0⟩) := by
    rw [tag, gen]
    exact hk
  have := readStored_macFail s d key 65535 true ⟨1, 2, 3, 0⟩ tBadMac hk' on hi tBadMac_fails
  exact this

theorem tAccess_line (w : Bool) (st : AccStage) : lineOf (tAccess w st).dpa = 65535 := by
  have h : lineOf tDpa = 65535 := by decide +kernel
  have d : (tAccess w st).dpa = tDpa := rfl
  rw [d, h]

/-- A line stored under the key is read back as it was, by an access; one with a MAC not its own fails it. -/
theorem test_access_ok (s : State) (st : AccStage) (hk : s.readKeys (s.accDesc (tAccess false st)) (s.oldKey (tAccess false st)) 3 0 =
    .slot (some ⟨1, 2, 3, 0⟩)) : (s.integ = false → s.readFor (tAccess false st) true tStored = .ok tImg) ∧
      (s.integ = true → s.readFor (tAccess false st) true tBadStored = .macFail) := by
  unfold State.readFor
  rw [tAccess_line]
  exact ⟨tStored_reads s _ _ hk, tBadStored_reads s _ _ hk⟩

theorem test_access_keys :
    let m := 77 * 256 + 255
    let s := fun st => tBulk (tAcc false st) tStored
    let u := tBulk ((tAcc false (.media m false)).put F.KEY_CFG_INTEG 1) tBadStored
    let k := fun (s : State) st => s.readKeys (s.accDesc (tAccess false st)) (s.oldKey (tAccess false st)) 3 0 = .slot (some ⟨1, 2, 3, 0⟩)
    (k (s (.media m false)) (.media m false) ∧ (s (.media m false)).integ = false) ∧ (k (s (.recon m)) (.recon m) ∧ (s (.recon m)).integ = false) ∧
    (k u (.media m false) ∧ u.integ = true ∧ u.key.halt = false) ∧
    ((s (.recon m)).access 7 = some (tAccess false (.recon m)) ∧ (s (.recon m)).reconBlocked m = false ∧ (s (.recon m)).dmrOf (lineOf tDpa) = none ∧
      ((s (.recon m)).vaultRoom (lineOf tDpa)).isSome = true) := by decide +kernel

theorem test_access_recon :
    let m := 77 * 256 + 255
    let s := tBulk (tAcc false (.recon m)) tOther
    answers (.reconstructionReady 7 .undecodable 0) s (fun t => t.accesses.map (·.stage) == [.deep m] && t.adm.deep.length == 1) ∧
    (State.late { s with now := 500 } (tAccess false (.recon m)) = false ∧ State.late { s with now := 501 } (tAccess false (.recon m)) = true ∧
      answers (.readBoundExpiry 7) { s with now := 500 } (fun t =>
      t.out == [.readData 0 7 0 true] && t.accesses.isEmpty && t.rd R.QOS_BOUND_POISON_LO == 1)) ∧
    becomes (.readBoundExpiry 7) { s with now := 499 } { s with now := 499 } ∧
    ((tAcc true (.forming tImg)).reflKind tDesc 1 (lineOf tDpa) = .here ∧ ((tAcc true (.forming tImg)).vaultRoom (lineOf tDpa)).isSome = true ∧
      answers (.vaultWriteDone 7) (tAcc true (.forming tImg)) (fun t => t.out == [.writeDone 0 7 true] && t.accesses.isEmpty &&
        (t.vaultHit (lineOf tDpa)).isSome)) := by decide +kernel

/-- Deep recovery of the media's last line of region 1. -/
def tDeep (s : State) (st : Stored) : State := tBulk { s with adm.deep := [(65535, 1)] } st

theorem test_deep :
    let m := 77 * 256 + 255
    ((tDeep tHost tOther).adm.deep.find? (fun p => p.1 == 65535) = some (65535, 1) ∧ (tDeep tHost tOther).source 65535 = .bulk m ∧
      (tDeep tHost tOther).unitOut (mpaCh m) (mpaDie m) (mpaPlane m) = false ∧ (tDeep tHost tOther).dmrOf 65535 = none ∧
      ((tDeep tHost tOther).vaultRoom 65535).isSome = true) ∧
    (((tDeep tHost tOther).lostLine 1 65535).isSome = true ∧
      answers (.deepRecoveryDone 65535 .undecodable) (tDeep tHost tOther) (fun t => t.adm.deep.isEmpty && (t.vaultHit 65535).map (·.2.img.poison) == some 15)) := by
  decide +kernel

/-- What deep recovery finds under the key, and a MAC that fails it. -/
theorem test_deep_reads (s : State) : (∀ st, (tDeep s st).cell (77 * 256 + 255) ^^^ 0 = st) ∧
    (s.readKeys (s.liveDesc 1) 3 3 0 = .slot (some ⟨1, 2, 3, 0⟩) → s.integ = false →
      s.readStored (s.liveDesc 1) (metaTag (storedMeta tStored)) 65535 true tStored = .ok tImg) ∧
    (s.readKeys (s.liveDesc 1) 3 3 0 = .slot (some ⟨1, 2, 3, 0⟩) → s.integ = true →
      s.readStored (s.liveDesc 1) (metaTag (storedMeta tBadStored)) 65535 true tBadStored = .macFail) := by
  have m1 : storedMeta tStored = metaWord tImg := (encodeStored_parts _ _ _).1
  have m2 : storedMeta tBadStored = metaWord tBadMac := (encodeStored_parts _ _ _).1
  have t1 : metaTag (metaWord tImg) = 3 := (metaWord_fields tImg).1
  have t2 : metaTag (metaWord tBadMac) = 3 := (metaWord_fields tBadMac).1
  refine ⟨fun st => (BitVec.xor_zero).trans (tBulk_cell _ st), fun hk hi => ?_, fun hk hi => ?_⟩
  · rw [m1, t1]
    exact tStored_reads s _ _ hk hi
  · rw [m2, t2]
    exact tBadStored_reads s _ _ hk hi

theorem test_deep_keys :
    let s := tDeep tHost tStored
    let v := tDeep (tHost.put F.KEY_CFG_INTEG 1) tBadStored
    (s.readKeys (s.liveDesc 1) 3 3 0 = .slot (some ⟨1, 2, 3, 0⟩) ∧ s.integ = false) ∧
    (v.readKeys (v.liveDesc 1) 3 3 0 = .slot (some ⟨1, 2, 3, 0⟩) ∧ v.integ = true ∧ v.key.halt = false) := by decide +kernel

/-- A deferred merge record whose line is in the vault is resolved there. -/
theorem test_dmr :
    let s := { tVaulted tHost with key.dmr := [tRec] }
    (s.mergeRec tRec (some tImg)).isSome = true ∧ 0 < s.adm.power ∧ s.lit = true ∧ s.halted = false ∧
    (match s.source (lineOf tDpa) with | .vault _ w => w.img == tImg | _ => false) = true ∧
    s.readDdr (s.liveDesc 1) 3 tImg = .ok tImg ∧
    answers (.dmrResolve .undecodable) s (fun t => t.key.dmr.isEmpty && (t.vaultHit (lineOf tDpa)).map (fun p => p.2.img.data) == some 5) = true := by
  decide +kernel

/-! ### Host ports -/

theorem test_port_links :
    let s := (tUp.put (F.HP_STATUS_DQ_HOLD 1) 0)
    (s.dqReasons 1 = [] ∧ s.widthOk 1 8 = true ∧ answers (.hostLinkUp 1 5 8 true) s (fun t => (t.port 1).linkUp &&
      t.get (F.HP_LINK_STAT_WIDTH 1) == 8 && t.get (F.HP_LINK_STAT_RATE 1) == min 5 (2 + s.get (F.HP_LINK_CFG_MAX_RATE 1)))) ∧
    answers (.conventionalReset 0) tHost (fun t => !(t.port 0).linkUp && (t.port 0).decs.isEmpty && (t.port 0).resetting) ∧
    answers (.functionLevelReset 0) tHost (fun t => (t.port 0).linkUp && (t.port 0).decs.length == 1 && t.get (F.HP_RST_STAT_LAST 0) == 2) ∧
    answers (.portLeaveDetectQuiet 2) (tUp.setPort 2 { portInit with resetting := true }) (fun t => t.get (F.HP_STATUS_DQ_HOLD 2) == 0 && !(t.port 2).resetting) ∧
    ((tUp.touch.mayRead .cc (R.HP_RST_STAT 0)) = true ∧ answers (.rstStatRead .cc 0) (tUp.put (F.HP_RST_STAT_LAST 0) 3) (fun t =>
      t.out.length == 1 && t.get (F.HP_RST_STAT_LAST 0) == 0)) := by decide +kernel

theorem test_port_decoders :
    answers (.hdmDecoderCommit 0 15 (2 ^ 41) (2 ^ 28) 1 256 (2 ^ 28)) tHost (fun t => mapGet? (t.port 0).decs 15 == some ⟨2 ^ 41, 2 ^ 28, 1, 256, 2 ^ 28, 0⟩) = true ∧
    answers (.hdmDecoderCommit 0 15 (2 ^ 41) (2 ^ 28) 3 256 (2 ^ 28)) tHost (fun t => mapGet? (t.port 0).commitErr 15 == some true && (mapGet? (t.port 0).decs 15).isNone) = true ∧
    answers (.hdmDecoderCommit 0 15 (2 ^ 41) (2 ^ 28) 1 256 0) tHost (fun t => mapGet? (t.port 0).commitErr 15 == some true) = true ∧
    answers (.hdmDecoderUncommit 0 0) tHost (fun t => (t.port 0).decs.isEmpty) = true := by decide +kernel

theorem test_port_events :
    answers (.viralReceived 0) tHost (fun t => t.portContained 0) ∧
    answers (.ideIntegrityFailure 0) (tHost.put (F.HP_IDE_STAT_SECURE 0) 1) (fun t => t.portContained 0 && t.flag (F.HP_IDE_STAT_FAIL 0) &&
      t.out == [.uncorrectable 0]) ∧
    answers (.ideKm 0 true) tHost (fun t => t.flag (F.HP_IDE_STAT_SECURE 0)) ∧
    answers (.cdatRead 0) tHost (fun t => t.out == [.cdat 0 [none] 1300 1595 (tHost.get (F.HP_LINK_STAT_RATE 0)) (tHost.get (F.HP_LINK_STAT_WIDTH 0))]) ∧
    answers (.gpfPhase1 0) tHost (fun t => t.out == [.gpfDone 0 1] && t.get (F.HP_GPF_STAT_P1 0) == 1) ∧
    answers (.gpfPhase2 0) tHost (fun t => t.out == [.gpfDone 0 2]) ∧
    answers (.portEnWrite .cc 0 0) tHost (fun t => t.get (F.HP_CTRL_PORT_EN 0) == 0 && t.flag (F.HP_STATUS_DQ_HOLD 0)) ∧
    (tHost.touch.mayWrite (.host 0) (R.HP_CTRL 0) = true ∧ answers (.hpCntClr (.host 0) 0 (fieldPut 0 (F.HP_CTRL_CNT_CLR 0).lo 1 1))
      (tHost.wr (R.HP_CNT_LO 0 15) 9) (fun t => t.rd (R.HP_CNT_LO 0 15) == 0)) ∧
    State.dcClash (tHost.touch.put (F.HP_DC_CFG_BASE 0 7) ((F.HP_DC_CFG_BASE 0 7).of (fieldPut 0 (F.HP_DC_CFG_EN 0 7).lo 1 1))) 0 7 = false ∧
    answers (.dcRegionEnable .cc 0 7 (fieldPut 0 (F.HP_DC_CFG_EN 0 7).lo 1 1)) tHost (fun t => t.flag (F.HP_DC_CFG_EN 0 7)) := by decide +kernel

/-- Port 0 with 16 MiB of dynamic capacity offered at block 0. -/
def tDc : State :=
  let s := (((tHost.put (F.HP_DC_CFG_EN 0 0) 1).put (F.HP_DC_CFG_BASE 0 0) 0).put (F.HP_DC_LEN_length 0 0) 16)
  { s.setPort 0 { s.port 0 with dcAccepted := [(8, 4)] } with rgn.descs := [(1, BitVec.ofNat 512 (0xFF6011 * 2 ^ 32 + 3 * 2 ^ 64 + 16 * 2 ^ 128))] }

theorem test_mailbox :
    tHost.mboxFree 0 = true ∧
    answers (.unsupportedMailboxCommand 0 ⟨0x1234, []⟩) tHost (fun t => t.out == [.mbox 0 0x1234 mbUnsupported []]) ∧
    answers (.setLsa 0 262142 [1, 2]) tHost (fun t => mapGet? (t.port 0).lsa 262143 == some 2) ∧
    answers (.getLsa 0 262143 1) tHost (fun t => t.out == [.mbox 0 0x4102 mbSuccess [0]]) ∧
    answers (.setPartitionInfo 0 (2 ^ 24)) tHost (fun t => (t.port 0).partNext == some (2 ^ 24)) ∧
    answers (.getPoisonList 0) tHost (fun t => t.out.length == 1) ∧
    answers (.getHealthInfo 0) tHost (fun t => t.out == [.mbox 0 0x4200 mbSuccess [0, 0, 0]]) ∧
    answers (.clearEventRecords 0 .info 1) tHost (fun t => t.out == [.mbox 0 0x0101 mbSuccess []]) ∧
    answers (.getDcExtentList 0) tDc (fun t => t.out == [.mbox 0 0x4801 mbSuccess (pairList [(8, 4)])]) := by decide +kernel

theorem test_mailbox_capacity :
    ([(0, 8), (12, 4)].all (fun e => tDc.dcOffered 0 e.1 e.2) = true ∧ extentsApart [(0, 8), (12, 4)] = true ∧
      answers (.addDynamicCapacityResponse 0 [(0, 8), (12, 4)]) tDc (fun t => (t.port 0).dcAccepted.length == 3)) ∧
    (rangeCovered (tDc.port 0).dcAccepted 10 2 = true ∧ answers (.releaseDynamicCapacity 0 10 2) tDc (fun t =>
      (t.port 0).dcAccepted == [(8, 2)] && (t.port 0).mbox == some (10, 2, false))) ∧
    answers (.dcReleaseComplete 0) (tDc.setPort 0 { tDc.port 0 with mbox := some (10, 2, false) }) (fun t =>
      t.out == [.mbox 0 0x4803 mbSuccess []] && (t.port 0).mbox.isNone) := by decide +kernel

theorem test_mailbox_poison :
    let dpa : Dpa := BitVec.ofNat _ tDpa
    let s := { tVaulted tHost with key.dmr := [tRec] }
    (tHost.poisonTarget 0 dpa.toNat = some 1 ∧ (tHost.poisonBase 1 (lineOf dpa.toNat)).isSome = true ∧
      (tHost.vaultRoom (lineOf dpa.toNat)).isSome = true ∧
      answers (.injectPoison 0 dpa) tHost (fun t => (t.vaultHit (lineOf tDpa)).map (fun p => p.2.img.poison) == some 8)) ∧
    answers (.clearPoison 0 dpa 5) tHost (fun t => (t.vaultHit (lineOf tDpa)).map (fun p => p.2.img.poison) == some 0) ∧
    ((s.poisonBase 1 (lineOf dpa.toNat)).isSome = true ∧
      answers (.clearPoison 0 dpa 9) s (fun t => t.key.dmr.isEmpty && (t.vaultHit (lineOf tDpa)).map (fun p => hostLine p.2.img.data 0) == some 5 &&
        (t.vaultHit (lineOf tDpa)).map (fun p => hostLine p.2.img.data 3) == some 9)) := by decide +kernel

/-- The Set commands keep what they carry, and refuse a payload of another length (R65). -/
theorem test_mailbox_set :
    answers (.unsupportedMailboxCommand 0 ⟨0x0103, [0, 1, 0, 1]⟩) tHost (fun t => (t.port 0).intPolicy == [0, 1, 0, 1] &&
      t.out == [.mbox 0 0x0103 mbSuccess []]) ∧
    answers (.unsupportedMailboxCommand 0 ⟨0x0103, [0]⟩) tHost (fun t => (t.port 0).intPolicy == (tHost.port 0).intPolicy &&
      t.out == [.mbox 0 0x0103 mbPayload []]) ∧
    answers (.unsupportedMailboxCommand 0 ⟨0x0102, []⟩) tHost (fun t => t.out == [.mbox 0 0x0102 mbSuccess [1, 1, 1, 1]]) := by decide +kernel

/-! ### Keys and the terminator -/

/-- A word with one field set. -/
def tBits (f : Fld) (v : Nat) : Word := fieldPut 0 f.lo f.len v

theorem test_keks :
    let s := { tHost.wr (R.KEY_KEK_DATA 7) 0x80000000 with key.keks := [(0, 5)] }
    let w := tBits F.KEY_KEK_CTL_LOAD 1 + tBits F.KEY_KEK_CTL_INDEX 3
    (s.touch.mayWrite .cc R.KEY_KEK_CTL = true ∧ F.KEY_KEK_CTL_ERASE.on w = false ∧ F.KEY_KEK_CTL_INDEX.of w = 3) ∧
    answers (.kekLoad .cc w) s (fun t => mapGet? t.key.keks 3 == some (BitVec.ofNat 256 (2 ^ 255)) && t.rd (R.KEY_KEK_DATA 7) == 0 && mapGet? t.key.keks 0 == some 5) ∧
    answers (.kekErase .cc (tBits F.KEY_KEK_CTL_ERASE 1)) s (fun t => t.key.keks.isEmpty && t.key.slots == s.key.slots) := by decide +kernel

/-- An import begins, and ends with a code for an address outside the area, a format, slot 0 and a KEK that is not loaded. -/
theorem test_imports :
    let w := tBits F.KEY_LOAD_CTL_GO 1
    let r : ImportRun := ⟨true, 0, false, 0⟩
    let s := fun (r : ImportRun) => { tHost with key.importRun := some r }
    (tHost.touch.mayWrite .cc R.KEY_LOAD_CTL = true ∧ answers (.keyImport .cc w 7) tHost (fun t =>
      t.get F.KEY_LOAD_STAT_BUSY == 1 && t.key.importRun.map (fun r => r.blob) == some 7)) ∧
    ((s r).importCheck r false = (0xB, none) ∧ answers (.keyImportDone false) (s r) (fun t => t.get F.KEY_LOAD_STAT_CODE == 0xB && t.key.importRun.isNone)) ∧
    ((s r).importCheck r true = (1, none) ∧ answers (.keyImportDone true) (s r) (fun t => t.get F.KEY_LOAD_STAT_CODE == 1)) ∧
    (s { r with blob := 1 }).importCheck { r with blob := 1 } true = (2, none) ∧
    (s { r with blob := 1 + 3 * 2 ^ 32 + 3 * 2 ^ 16 }).importCheck { r with blob := 1 + 3 * 2 ^ 32 + 3 * 2 ^ 16 } true = (3, none) := by decide +kernel

/-- A blob for slot 5: the keys 1, 2 and 3, each wrapped under the KEK 9. -/
def tWrap (k : BitVec 256) : List Byte := kwWrapBytes (toBytes 32 (9 : BitVec 256)) (toBytes 32 k)
def tBlob : BitVec 1024 := ofBytes 1024 ([1, 0, 5, 0, 0, 0, 0, 0] ++ tWrap 1 ++ tWrap 2 ++ tWrap 3)

theorem tWrap_undo (k : BitVec 256) : kwUnwrapBytes (toBytes 32 (9 : BitVec 256)) (tWrap k) = some (toBytes 32 k) ∧ (tWrap k).length = 40 :=
  kwUnwrap_kwWrap _ _ (length_toBytes _ _) 4 (by decide) (length_toBytes _ _)

theorem tWrap_length (k : BitVec 256) : (tWrap k).length = 40 := (tWrap_undo k).2

theorem tBlob_bytes : toBytes 128 tBlob = [1, 0, 5, 0, 0, 0, 0, 0] ++ (tWrap 1 ++ (tWrap 2 ++ tWrap 3)) := by
  have h : ([1, 0, 5, 0, 0, 0, 0, 0] ++ tWrap 1 ++ tWrap 2 ++ tWrap 3 : List Byte).length = 128 := by
    simp only [List.length_append, tWrap_length, List.length_cons, List.length_nil]
  rw [tBlob, toBytes_ofBytes _ _ _ (by decide) (Nat.le_of_eq h.symm), List.take_of_length_le (Nat.le_of_eq h), List.append_assoc, List.append_assoc]

theorem tBlob_byte (i : Nat) (hi : i < 8) : byteAt tBlob i = ([1, 0, 5, 0, 0, 0, 0, 0] : List Byte).getD i 0 := by
  rw [tBlob, byteAt_ofBytes _ _ _ (by omega), List.append_assoc, List.append_assoc, List.getD_append _ _ _ _ (by simpa using hi)]

theorem tBlob_key (j o : Nat) (k : BitVec 256) (e : 8 + 40 * j = 8 + o) (h : ((toBytes 128 tBlob).drop (8 + o)).take 40 = tWrap k) :
    blobKey 9 tBlob j = some k := by
  rw [blobKey, e, h, (tWrap_undo k).1]
  exact congrArg some (ofBytes_toBytes 32 k)

theorem tWrap_drop (k : BitVec 256) (x : List Byte) : (tWrap k ++ x).drop 40 = x := by rw [← tWrap_length k, List.drop_left]
theorem tWrap_take (k : BitVec 256) (x : List Byte) : (tWrap k ++ x).take 40 = tWrap k := by rw [← tWrap_length k, List.take_left]
theorem tHead_drop (a b c d e f g h : Byte) (x : List Byte) (o : Nat) : ([a, b, c, d, e, f, g, h] ++ x).drop (8 + o) = x.drop o := by
  rw [← List.drop_drop]
  rfl

theorem tBlob_head : byteAt tBlob 0 = 1 ∧ byteAt tBlob 1 = 0 ∧ byteAt tBlob 2 = 5 ∧ byteAt tBlob 3 = 0 := by
  refine ⟨(tBlob_byte 0 (by decide)).trans ?_, (tBlob_byte 1 (by decide)).trans ?_, (tBlob_byte 2 (by decide)).trans ?_,
    (tBlob_byte 3 (by decide)).trans ?_⟩ <;> rfl

theorem blob_fields (b : BitVec 1024) (h0 : byteAt b 0 = 1) (h1 : byteAt b 1 = 0) (h2 : byteAt b 2 = 5) (h3 : byteAt b 3 = 0) :
    blobKgen b = 0 ∧ blobByte b 0 = 1 ∧ blobSlot b = 5 ∧ blobKek b = 0 := by
  simp only [blobKgen, blobSlot, blobKek, blobByte, h0, h1, h2, h3]
  decide

theorem blob_keys (kek : BitVec 256) (b : BitVec 1024) (x y z : BitVec 256) (g : BitVec 2) (h1 : blobKey kek b 0 = some x)
    (h2 : blobKey kek b 1 = some y) (h3 : blobKey kek b 2 = some z) (hg : blobKgen b = g) : blobKeys kek b = some ⟨x, y, z, g⟩ := by
  rw [blobKeys, h1, h2, h3, hg]
  rfl

theorem tBlob_fields : blobKgen tBlob = 0 ∧ blobByte tBlob 0 = 1 ∧ blobSlot tBlob = 5 ∧ blobKek tBlob = 0 :=
  blob_fields tBlob tBlob_head.1 tBlob_head.2.1 tBlob_head.2.2.1 tBlob_head.2.2.2

theorem tBlob_keys : blobKeys 9 tBlob = some ⟨1, 2, 3, 0⟩ :=
  blob_keys 9 tBlob 1 2 3 0 (tBlob_key 0 0 1 rfl (by rw [tBlob_bytes, tHead_drop, List.drop_zero, tWrap_take]))
    (tBlob_key 1 40 2 rfl (by rw [tBlob_bytes, tHead_drop, tWrap_drop, tWrap_take]))
    (tBlob_key 2 (40 + 40) 3 rfl (by
      rw [tBlob_bytes, tHead_drop, ← List.drop_drop, tWrap_drop, tWrap_drop, List.take_of_length_le (Nat.le_of_eq (tWrap_length 3))]))
    tBlob_fields.1

/-- An import of that blob ends with code 0 and its keys. -/
theorem test_import_ok (s : State) (r : ImportRun) (hb : r.blob = tBlob) (hk : mapGet? s.key.keks 0 = some 9) (ha : r.inArea = true)
    (hh : s.halted = false) (ht : (s.trust == trVendor) = false) (hr : r.shadow = false) (hl : s.slotLocked 5 = false) :
    s.importCheck r true = (0, some ⟨1, 2, 3, 0⟩) := by
  obtain ⟨-, f0, f2, fk⟩ := tBlob_fields
  rw [State.importCheck, hb, hh, ht, ha, f0, f2, fk, hk, if_neg (by decide), if_neg (by decide), if_neg (by decide), if_neg (by decide)]
  show s.importKeys r (blobKeys 9 tBlob) = _
  rw [tBlob_keys, State.importKeys, if_neg (by decide), hr, hb, f2, hl, if_neg (by decide), if_neg (by decide)]

theorem test_unload :
    let w := tBits F.KEY_LOAD_CTL_UNLOAD 1
    let s := { tHost with key.slots := [(3, ⟨1, 2, 3, 0⟩), (4, ⟨4, 5, 6, 0⟩)] }
    answers (.keyUnload .cc w) s (fun t => t.get F.KEY_LOAD_STAT_CODE == 0xA) ∧
    answers (.keyUnload .cc w) (s.put F.KEY_SLOT_QUERY_SEL 3) (fun t => t.get F.KEY_LOAD_STAT_CODE == 0xA && (t.slot 3).isSome) ∧
    answers (.keyUnload .cc w) (s.put F.KEY_SLOT_QUERY_SEL 4) (fun t => t.get F.KEY_LOAD_STAT_CODE == 0 && (t.slot 4).isNone && (t.slot 3).isSome) := by
  decide +kernel

/-- Terminator 2 re-keys region 1 from slot 3 to slot 4, at line `b` of its 65,536. -/
def tTrm (b : Nat) : State :=
  let s := (tHost.put (F.TRM_STAT_STATE 2) 2).put (F.TRM_CTL_REGION 2) 1
  { s with
    rgn.descs := [(1, setDw (setDw tDesc 8 (BitVec.ofNat 32 (4 + 2 ^ 14 + 2 * 2 ^ 16))) 9 (BitVec.ofNat 32 b))]
    key.slots := [(3, ⟨1, 2, 3, 0⟩), (4, ⟨4, 5, 6, 0⟩)]
    key.trmRun := [(2, 1)] }

theorem test_trm_control :
    let arm := tBits (F.TRM_CTL_MODE 2) 1 + tBits (F.TRM_CTL_REGION 2) 1
    let go := arm + tBits (F.TRM_CTL_START 2) 1
    let pause := tBits (F.TRM_CTL_PAUSE 2) 1
    let s := { tHost.put (F.TRM_KEY_KEY 2) 4 with key.slots := [(3, ⟨1, 2, 3, 0⟩), (4, ⟨4, 5, 6, 0⟩)] }
    (s.touch.mayWrite .cc (R.TRM_CTL 2) = true ∧ answers (.trmArm .cc 2 arm) s (fun t => t.get (F.TRM_STAT_STATE 2) == 1)) ∧
    ((tHost.touch.plainWrite .cc (R.TRM_CTL 2) go).trmCheck 2 ≠ 0 ∧ answers (.trmStart .cc 2 go) tHost (fun t => t.get (F.TRM_STAT_STATE 2) == 7)) ∧
    ((s.touch.plainWrite .cc (R.TRM_CTL 2) go).trmCheck 2 = 0 ∧ answers (.trmStart .cc 2 go) s (fun t => t.get (F.TRM_STAT_STATE 2) == 2)) ∧
    ((tTrm 0).touch.plainWrite .cc (R.TRM_CTL 2) pause).trmRunState 2 = 3 ∧
    answers (.trmPause .cc 2 pause) (tTrm 0) (fun t => t.get (F.TRM_STAT_STATE 2) == 3) := by decide +kernel

/-- The end of a region, an empty tile before it, and a line whose carry checks fail. -/
theorem test_trm_lines :
    let d := (tTrm 65536).desc 1
    ((tTrm 65536).trmRegion 2 = some 1 ∧ dSize d * 65536 ≤ dTrmBound d ∧ (tTrm 65536).lit = true ∧
      becomes (.trmLineRewrite 2 .undecodable) (tTrm 65536) ((tTrm 65536).trmFinish 1 2) = true) ∧
    ((tTrm 65535).tileEmpty (tileOfLine (dBase d * 65536 + 65535)) = true ∧
      becomes (.trmLineRewrite 2 .undecodable) (tTrm 65535) ((tTrm 65535).setTrmBound 1 2 65536) = true) ∧
    ((tTrm 0).trmNewKeys ((tTrm 0).desc 1) 2).isSome = true ∧
    answers (.trmStatusRead .cc) (tUp.wr R.TRM_STATUS 0x50) (fun t => t.out == [.regData .cc 0x50] && t.rd R.TRM_STATUS == 0) := by decide +kernel

/-! ### Counters, admission, metering -/

theorem test_counters :
    let s := { (tUp.put F.PMC_CTL_EN 1).wr (R.PMC_EN 15) 0x80000000 with adm.pmc := [(511, { pmcInit with count := BitVec.allOnes 48 })] }
    (s.pmcRuns 511 = true ∧ s.flag F.PMC_CTL_OVF_IRQ = false ∧ answers (.pmcOverflow 511) s (fun t =>
      (t.pmcAt 511).count == 0 && t.rd (R.PMC_OVF 15) == 0x80000000)) ∧
    answers (.pmcEvtWrite .cc 5) (s.put F.PMC_SEL_counter 511) (fun t => (t.pmcAt 511).count == 0 && (t.pmcAt 511).evt == 5) ∧
    (s.touch.mayWrite .cc R.PMC_CTL = true ∧ answers (.pmcClear .cc (tBits F.PMC_CTL_CLEAR 1)) s (fun t => (t.pmcAt 511).count == 0)) ∧
    (s.touch.mayRead .cc (R.PMC_LO 511) = true ∧ answers (.pmcLoRead .cc 511) s (fun t => t.out == [.regData .cc 0xFFFFFFFF] && (t.path .cc).pmcHi == 65535)) := by
  decide +kernel

theorem test_admission :
    let v := tBits (F.QOS_C_RATE_BURST 7) 1
    (tUp.touch.mayWrite .cc (R.QOS_C_RATE 7) = true ∧ answers (.qosRateWrite .cc 7 v) tUp (fun t => t.clsLevel 7 == 65536 && t.clsLevel 6 == tUp.clsLevel 6)) ∧
    (tUp.touch.mayWrite .cc (R.QOS_C_MRATE 7) = true ∧ answers (.qosMrateWrite .cc 7 0) tUp (fun t =>
      t.mreadLevel 7 == min (tUp.mreadLevel 7) ((tUp.touch.plainWrite .cc (R.QOS_C_MRATE 7) 0).mreadCap 7))) ∧
    answers (.qosWaitmaxRead .cc 7) (tUp.put (F.QOS_C_WAITMAX_longest 7) 9) (fun t => t.get (F.QOS_C_WAITMAX_longest 7) == 0 && t.out.length == 1) := by decide +kernel

theorem test_metering :
    let due := { tUp with aonTick := BitVec.ofNat _ tUp.boundaryAt }
    (due.boundaryAt ≤ due.aonTick.toNat ∧ due.lit = true ∧ due.flag F.MET_STAT_SWEEP = false) ∧ answers .epochBoundary due (fun t => t.rgn.epoch == 1 && t.get F.MET_STAT_SWEEP == 1 && t.get F.MET_STAT_BUF == 0) ∧
    answers .epochBoundary (due.put F.MODE_STAT_POWER pwDark) (fun t => t.rgn.epoch == 1 && t.rgn.skipLast == some 0) ∧
    ((tUp.put F.MET_STAT_SWEEP 1).flag F.MET_STAT_SWEEP = true ∧ (tUp.put F.MET_STAT_SWEEP 1).rgn.sweepPending = 0) ∧
    tUp.passed 330 6250000 = true ∧ becomes .occupancyTick (tUp.mark 330) (tUp.mark 330) ∧
    answers .occupancyTick { tUp with rgn.descs := [(1, tDesc)] } (fun t => t.passed 330 6250000 == false) := by decide +kernel

/-- A vault line is placed under the new key, and the boundary passes it. -/
theorem test_trm_vault :
    let s := tVaulted (tTrm 65535)
    let d := s.liveDesc 1
    (s.trmRegion 2 = some 1 ∧ s.get (F.TRM_STAT_STATE 2) = 2 ∧ dBase d * 65536 + dTrmBound d = 65535 ∧ s.tileEmpty (tileOfLine 65535) = false ∧
      s.lineBusy 65535 = false ∧ s.trmAdmits d = true ∧ s.trmPaced 2 = true ∧ (s.vaultRoom 65535).isSome = true ∧ s.trmNewKeys d 2 = some ⟨4, 5, 6, 0⟩ ∧
      s.dmrOf 65535 = none ∧ trmDone d tImg = false ∧ s.readDdr d ((trmUser d).key 3) tImg = .ok tImg ∧
      (match s.source 65535 with | .vault _ w => w.img == tImg | _ => false) = true ∧ carryChecks tImg.data = tImg.cc) ∧
    answers (.trmLineRewrite 2 .undecodable) s (fun t => (t.vaultHit 65535).map (fun p => (p.2.img.data, p.2.img.keyTag)) == some (0, 4) &&
      dTrmBound (t.desc 1) == 65536) := by decide +kernel

/-- The terminator's read of the line `m` of the media. -/
def tTrmRead (s : State) (m : Nat) : State × Option Stored :=
  s.ownRead ⟨.trm, some (dClass (s.liveDesc 1)), some (65535 * 256)⟩ 65535 m false (.decoded 0 0)

theorem tTrm_mac (s : State) (m : Nat) (hs : s.source 65535 = .bulk m) (hw : s.copyWaits 1 65535 = false) (hd : s.dmrOf 65535 = none)
    (hc : (tTrmRead s m).2 = some tBadStored) (hi : (tTrmRead s m).1.integ = true)
    (hk : (tTrmRead s m).1.readKeys (s.liveDesc 1) ((trmUser (s.liveDesc 1)).key 3) 3 0 = .slot (some ⟨1, 2, 3, 0⟩)) :
    (s.trmImage 1 65535 (.decoded 0 0)).2 = .macFail := by
  have m2 : storedMeta tBadStored = metaWord tBadMac := (encodeStored_parts _ _ _).1
  have t2 : metaTag (metaWord tBadMac) = 3 := (metaWord_fields tBadMac).1
  have read : (tTrmRead s m).1.readStored (s.liveDesc 1) ((trmUser (s.liveDesc 1)).key (metaTag (storedMeta tBadStored))) 65535 true
      tBadStored = .macFail := by
    rw [m2, t2]
    exact tBadStored_reads _ _ _ hk hi
  have pair : tTrmRead s m = ((tTrmRead s m).1, some tBadStored) := Prod.ext rfl hc
  rw [State.trmImage, hw, if_neg (by decide), State.trmReader, hd, State.newestImage, hs]
  dsimp only [LineSrc.mpa]
  unfold tTrmRead at pair read
  rw [Bool.not_true, pair]
  dsimp only
  rw [read, engineRead]

/-- The same line on the media with a MAC not its own. -/
theorem test_trm_mac :
    let s := tBulk ((tTrm 65535).put F.KEY_CFG_INTEG 1) tOther
    let d := s.liveDesc 1
    let u := (((s.trmTokens d).mark 312).mark 314).wake (s.accessDomains 65535)
    let r := tTrmRead u (77 * 256 + 255)
    (s.trmRegion 2 = some 1 ∧ s.tileEmpty (tileOfLine 65535) = false ∧ s.lineBusy 65535 = false ∧ s.trmAdmits d = true ∧ s.trmPaced 2 = true ∧
      (s.vaultRoom 65535).isSome = true ∧ s.trmNewKeys d 2 = some ⟨4, 5, 6, 0⟩ ∧
      ((s.source 65535).mpa.isSome && s.budgetBroken (dClass d)) = false ∧ s.key.halt = false) ∧
    (u.source 65535 = .bulk (77 * 256 + 255) ∧ u.copyWaits 1 65535 = false ∧ u.dmrOf 65535 = none ∧ r.2 = some tOther ∧ r.1.integ = true ∧
      r.1.readKeys (u.liveDesc 1) ((trmUser (u.liveDesc 1)).key 3) 3 0 = .slot (some ⟨1, 2, 3, 0⟩)) := by decide +kernel

/-! ### Drains, folds, groups, checkpoints, images -/

/-- Region 1's last line is dirty in the vault, and a drain runs. -/
def tDrain : State := { tVaulted tHost with store.drainAll := true }
def tLoc : Nat := ((tDrain.vaultHit (lineOf tDpa)).map (fun p => p.1)).getD 0
def tWay : VaultWay := ⟨tImg, lineOf tDpa, true, false, 0⟩

theorem test_drain :
    let l : LineNo := BitVec.ofNat _ (lineOf tDpa)
    let u := { tDrain with store.drainRun := tDrain.drainByOcc }
    (tDrain.vaultHit l.toNat = some (tLoc, tWay) ∧ u.backgroundRuns = true ∧ tDrain.store.drains = [] ∧
      carryChecks (tImg.data ^^^ 0) = tImg.cc ∧ tDrain.drainKeys tWay = some ⟨1, 2, 3, 0⟩ ∧ tDrain.bucketDead l.toNat = false ∧
      (match u.drainSlot l.toNat with | some x => tDrain.planeFree (mpaCh (slotMpa x)) (mpaDie (slotMpa x)) (mpaPlane (slotMpa x)) false | none => false) = true ∧
      u.drainTurn tLoc tWay = true) ∧
    (carryChecks (tImg.data ^^^ 1) ≠ tImg.cc ∧ answers (.drainLine l 1) tDrain (fun t => t.key.halt && t.get F.KEY_HALT_CAUSE_CP == 4 &&
      t.store.drains.isEmpty)) := by decide +kernel

theorem test_drain_done :
    let s := { tDrain with store.drains := [⟨77, tLoc, tWay, 5⟩] }
    answers (.drainProgramDone 77 true) s (fun t => t.cell (slotMpa 77) == 5 && t.store.drains.isEmpty && (t.vaultHit (lineOf tDpa)).isNone) ∧
    (s.store.drains.find? (fun d => d.slot == 77) = some ⟨77, tLoc, tWay, 5⟩ ∧ s.seq.off = 0 ∧ s.seq.hosts = false ∧ s.seq.drain = false ∧
      s.planeHeld (mpaCh (slotMpa 77)) (mpaDie (slotMpa 77)) (mpaPlane (slotMpa 77)) = false) := by
  decide +kernel

/-- An urgent fold of tile 0. -/
def tFold : State := { tHost with
  store.urgent := [0]
  store.fmt := some ⟨16, 1, false, false⟩ }

def tFoldRec : FoldRec := ⟨0, mapEnt0, List.replicate 256 .erased, .urgent, some 4096, false, 0⟩
def tFoldSrc (s : State) (tile : Nat) : List FoldSrc := (List.range 256).map (fun i => s.foldSource tile i (s.hasDead tile))
def tFolding : State := { tFold.put F.MAP_CFG_DELTA_64M 1 with
  store.folds := [tFoldRec]
  store.map := [(0, { mapEnt0 with folding := true })] }

theorem test_fold_start :
    tFold.gcUpdate.backgroundRuns = true ∧ 0 < tFold.get F.MAP_USER_TILES_user ∧ tFold.gcUpdate.foldReason 0 = some .urgent ∧
  tFold.foldBlocked 0 (tFoldSrc tFold 0) = false := by
  decide +kernel

theorem test_fold_refresh :
    let s := { tFold with
      store.urgent := []
      wear.refresh := [0]
      store.map := [(0, { mapEnt0 with mapped := true })] }
    (s.gcUpdate.backgroundRuns = true ∧ s.gcUpdate.foldReason 0 = some .refresh ∧ s.foldBlocked 0 (tFoldSrc s 0) = false) ∧
    answers (.refreshFold 0) s (fun t => (t.tileEnt 0).folding) = true := by decide +kernel

theorem test_fold_timeout :
    let s := { tFold with
      now := oneSecond
      store.folds := [tFoldRec]
      store.map := [(0, { mapEnt0 with
        mapped := true
        folding := true })] }
    (tFoldRec.began + oneSecond ≤ s.now ∧ (s.dropFold tFoldRec).backgroundRuns = true ∧ ((s.dropFold tFoldRec).tileEnt 0).mapped = true ∧
      (s.dropFold tFoldRec).foldBlocked 0 (tFoldSrc (s.dropFold tFoldRec) 0) = false) ∧
    answers (.foldTimeout 0) s (fun t => (t.tileEnt 0).folding) = true := by decide +kernel

theorem test_fold_commit :
    (tFolding.halted = false ∧ tFolding.deltaRoom 3 = true ∧ tFolding.lit = true ∧ tFolding.store.imageRun = none ∧
      (tFolding.store.folds.find? (fun f => f.tile == 0)) = some tFoldRec ∧ (tFolding.foldLines tFoldRec (tFolding.foldLost tFoldRec [])).isSome = true ∧
      tFolding.foldStale tFoldRec = false ∧ tFoldRec.pos = some 4096 ∧
      tFolding.posHeld 4096 = false) ∧
    becomes (.foldCommit 0 true ⟨[], [], []⟩) (tFolding.put F.MODE_STAT_SERVICE svHalted) (tFolding.put F.MODE_STAT_SERVICE svHalted) = true := by
  decide +kernel

theorem test_groups :
    let g := 86048
    let s := { tFold.put F.MAP_CFG_DELTA_64M 1 with store.groups := [(g, { groupInit [] 0 g with st := .resetting })] }
    ((tFold.put F.MAP_CFG_DELTA_64M 1).backgroundRuns = true ∧ (tFold.put F.MAP_CFG_DELTA_64M 1).deltaRoom 3 = true) ∧
    (tFold.groupState g = .reclaimable ∧ (tFold.resetDies g).all (fun d => tFold.planeFree (groupCh g) d (groupPlane g) true) = true ∧ tFold.chanOut (groupCh g) = false ∧ g < tFold.groupsPer * 128 ∧
      tFold.store.fmt.isSome = true ∧ tFold.freeOn (groupCh g) + tFold.resettingOn (groupCh g) < tFold.get F.FOLD_GC_CFG_FREE_TARGET) ∧
    (s.groupState g = .resetting ∧ s.deltaRoom 17 = true ∧ (List.range 16).all (fun d => !s.planeHeld (groupCh g) d (groupPlane g)) = true ∧ s.wear.retireNext = [] ∧
      (s.group g).gen + 1 < 100000) ∧
    (let w := { s with store.groups := [(g, { groupInit [] 0 g with
        st := .resetting
        gen := 99999 })] }
     w.groupState g = .resetting ∧ (w.group g).gen + 1 = 100000) := by decide +kernel

/-- The open group of channel 31's plane 3, with one tile placed and its time up. -/
theorem test_group_close :
    let o : OpenGroup := ⟨86047, [0], [], 0⟩
    let s := { tFold.put F.MAP_CFG_DELTA_64M 1 with
      now := tFold.closeCycles
      store.opened := [(3 * 32 + 31, o)] }
    (mapGet? s.store.opened (3 * 32 + 31) = some o ∧ s.backgroundRuns = true ∧ s.deltaRoom 3 = true ∧ s.closeDue o = true ∧
      o.placed ≠ [] ∧ s.foldInto o.group = false ∧ s.tileOut o.group (s.closeParity o) = false ∧
      s.posFree (groupPos s.haloTiles o.group (s.closeParity o)) = true ∧
      posGroup s.haloTiles (groupPos s.haloTiles o.group (s.closeParity o)) = o.group ∧
      posDie (groupPos s.haloTiles o.group (s.closeParity o)) = s.closeParity o) ∧
    answers (.groupClose 31 ⟨3, true⟩) s (fun t => (mapGet? t.store.opened (3 * 32 + 31)).isNone && (t.groupState 86047 == .closed || t.groupState 86047 == .reclaimable)) ∧
    answers (.groupClose 31 ⟨3, false⟩) s (fun t => t.store.opened == s.store.opened && (t.group 86047).retired == bit16 (s.closeParity o)) := by
  decide +kernel

theorem test_checkpoint :
    let c : Checkpoint := ⟨1, 0, [], []⟩
    let due := { tFold with aonTick := BitVec.ofNat _ (tFold.ckptSeconds * 32768) }
    (due.ckptDue = true ∧ answers .checkpointStart due (fun t => t.store.ckptRun.isSome && t.get F.MAP_CKPT_STAT_BUSY == 1)) ∧
    (tFold.lit = true ∧ tFold.halted = false ∧ tFold.formatted = true ∧ tFold.store.imageRun = none ∧ tFold.store.ckptRun = none) ∧
    answers .checkpointDone { tFold with
        store.ckptRun := some c
        store.delta := [.mapClear 5] } (fun t => t.store.ckptRun.isNone && (t.store.ckptA == some c || t.store.ckptB == some c) &&
          t.store.delta.length == 1 && t.get F.MAP_CKPT_STAT_BUSY == 0) := by decide +kernel

theorem test_format :
    let key := tBits F.MAP_FMT_CTL_KEY 0x464D
    let go := tBits F.MAP_FMT_CTL_GO 1
    let s := { tFold with rgn.descs := [] }
    (s.touch.mayWrite .cc R.MAP_FMT_CTL = true ∧ answers (.mediaFormat .cc go) s (fun t => t.get F.MAP_FMT_CTL_CODE == 1)) ∧
    answers (.mediaFormat .cc (key + go)) tFold (fun t => t.get F.MAP_FMT_CTL_CODE == 2 && t.store == tFold.store) ∧
    (F.MAP_FMT_CTL_KEY.of (key + go) = 0x464D ∧ s.rgn.descs.any (fun q => dValid q.2) = false ∧ s.store.fmtRun = false ∧ s.halted = false) := by
  decide +kernel

theorem test_band_image :
    ((tFold.put F.MAP_STAT_ARMED 0).flag F.MAP_STAT_ARMED = false ∧ tFold.lit = true ∧ tFold.formatted = true) ∧
    ({ tFold with store.fmtRun := true } : State).store.fmtRun = true ∧
    (tFold.seq.zeroDue = false ∧ tFold.seq.off = 0 ∧ tFold.seq.cold = none ∧ tFold.diesBusy = false) ∧
    answers (.imageComplete true) { tFold with store.imageRun := some true } (fun t => t.store.imageRun.isNone && t.get F.MAP_ECL_STAT_COMPLETE == 1 &&
      t.store.imageSeq == tFold.store.imageSeq + 1) := by decide +kernel

/-! ### Drift, scrub, wear -/

theorem test_drift :
    let late := tUp.setDie 31 15 { dieInit with overdue := true }
    becomes (.dieTempPoll 31 15 (some 100)) late late ∧
    becomes .driftClockTick (tUp.wr R.MED_DRIFT_CLK 41) (tUp.wr R.MED_DRIFT_CLK 42) ∧
    becomes .driftRecordStore tUp (tUp.storeRecord 2 (leBytes 8 0)) ∧
    answers (.dieTempPoll 31 15 (some 100)) tUp (fun t => t.dieTemp 31 15 == 100 && t.dieMiss 31 15 == 0) ∧
    answers (.dieTempPoll 31 15 none) { tUp with
        wear.temps := [(511, 100)]
        wear.miss := [(511, 2)]
        wear.scrub := [(31, ⟨0, [], 0, true⟩)] } (fun t => ((mapGet? t.wear.scrub 31).map (fun q => t.classNow 31 q)) == some 6 && t.dieTemp 31 15 == 100) := by decide +kernel

theorem test_scrub :
    let s := { tHost with wear.catchDue := [31] }
    let late := { (tHost.put (F.MED_SCRUB_CFG_EN 31) 0).wr R.MED_DRIFT_CLK (BitVec.ofNat 32 (tHost.deadline 31 (tHost.chanClass 31))) with wear.scrub := [] }
    (mapGet? s.wear.scrub 31 = none ∧ s.scrubRuns 31 (s.wear.catchDue.contains 31) = true ∧ answers (.scrubPassStart 31) s (fun t =>
      (mapGet? t.wear.scrub 31).map (fun q => q.catchUp) == some true && t.get (F.MED_SCRUB_STAT_PROGRESS 31) == 0 && t.wear.catchDue.isEmpty)) ∧
    (late.deadlinePassed 31 = true ∧ answers (.scrubDeadline 31) late (fun t => t.get (F.MED_SCRUB_STAT_MISSED 31) == 1)) := by decide +kernel

/-- A pass over the two tiles of channel 31: one line read, and the end of a pass that has nothing left. -/
theorem test_scrub_read :
    let pos := 31 * 2 ^ 23 + 5
    let q : ScrubSt := ⟨0, [], 0, false⟩
    let s := { tHost.put (F.MED_SCRUB_CFG_EN 31) 1 with
      wear.scrub := [(31, q)]
      store.map := [(7, { mapEnt0 with
        mapped := true
        pos := pos })] }
    let e := { tHost with wear.scrub := [(31, ⟨0, [], 0, true⟩)] }
    (mapGet? s.wear.scrub 31 = some q ∧ s.scrubRuns 31 false = true ∧ (s.scrubSet 31).contains (pos * 256 + 255) = true ∧
      (s.scrubSet 31).contains (pos * 256) = true ∧ s.ownerLine (pos * 256 + 255) = some (7 * 256 + 255, false) ∧ s.readsWait 7 = false ∧
      s.dieSilent (pos * 256 + 255) false false = false) ∧
    (e.scrubRuns 31 true = true ∧ (e.scrubSet 31).all [].contains = true ∧ answers (.scrubRead 31 0 .undecodable) e (fun t =>
      (mapGet? t.wear.scrub 31).isNone && t.get (F.MED_SCRUB_STAT_PROGRESS 31) == 100 && mapGet? t.wear.lastPass 31 == some 0)) := by decide +kernel

/-- The sweep at 512 units of its scale and one second before (R163), on scales 0 and 3. -/
theorem test_sweep :
    let e : MapEnt := { mapEnt0 with mapped := true }
    let f : MapEnt := { e with epoch := 3072 }
    sweepEnt 512 e = some { e with epoch := epochOf 1 0 } ∧ sweepEnt 511 e = none ∧
    sweepEnt (512 * 32768) f = some { f with lowMargin := true } ∧ sweepEnt (512 * 32768) { f with lowMargin := true } = none ∧
    answers .epochSweep { (tHost.wr R.MED_DRIFT_CLK 512) with store.map := [(5, e)] } (fun t => (t.tileEnt 5).epoch == epochOf 1 0) := by decide +kernel

theorem test_evacuation :
    let s := { tHost with wear.evac := [2048 + 511, planeId 31 15 3] }
    (s.wear.evac.contains (evacUnit (.die 31 15)) = true ∧ s.liveOn (evacUnit (.die 31 15)) = false ∧ 2048 ≤ evacUnit (.die 31 15)) ∧
    (s.wear.evac.contains (evacUnit (.plane 31 15 3)) = true ∧ s.liveOn (evacUnit (.plane 31 15 3)) = false ∧ evacUnit (.plane 31 15 3) < 2048) := by
  decide +kernel

theorem test_recalibration : tHost.lit = true ∧ 0 < tHost.adm.power ∧ (tHost.die 31 15).overdue = false ∧
    (List.range 4).all (fun p => tHost.planeFree 31 15 p false) = true ∧ tHost.halted = false ∧ tHost.chanOut 31 = false ∧
    (List.range 13).all (fun j => decide (tHost.drift - tHost.ladderAt (dieIdx 31 15) j < 2 ^ 4)) = true := by decide +kernel

/-! ### Clusters, their caches, stream queues -/

theorem test_cluster_control :
    (tHost.touch.mayWrite .cc (R.ENG_CL_CTL 3) = true ∧ (List.range 32).all (fun e => (tHost.eng e).phase != .held) = true) ∧
    answers (.clusterReset .cc 3 (tBits (F.ENG_CL_CTL_RST 3) 1)) { (tHost.setEng 31 { tHost.eng 31 with phase := .idle }) with
        clu.pads := [(31 * 2 ^ 19 + 5, 9), (30 * 2 ^ 19, 8), (5, 7)] } (fun t => (t.eng 31).phase == .off && t.padByte 31 5 == 0 && t.padByte 0 5 == 7) ∧
    answers (.clusterStop .cc 3 (tBits (F.ENG_CL_CTL_STOP 3) 1)) tHost (fun t => !t.mayTake 31 && t.clu == tHost.clu) ∧
    answers (.clusterWake .cc 3 (tBits (F.ENG_CL_CTL_WAKE 3) 1)) { tHost with dom.awake := [0] } (fun t => t.dom.waking.contains 4) ∧
    tHost.isAwake 4 = true := by decide +kernel

/-- The walk's first tile of two, and its last. -/
theorem test_release_walk :
    let s := { tHost.put F.MAP_CFG_DELTA_64M 1 with
      rgn.releases := [(5, 2, 4)]
      store.map := [(2, { mapEnt0 with mapped := true })] }
    (s.rgn.releases.find? (fun r => !s.isDraining r.1) = some (5, 2, 4) ∧ s.walker.isSome = true ∧ 0 < s.adm.power ∧ s.deltaRoom 2 = true ∧
      s.halted = false ∧ s.service ≠ svHold ∧ s.lit = true) ∧
    answers .releaseWalk s (fun t => t.rgn.releases == [(5, 2, 4)] && t.walkedOf (5, 2, 4) == 1 && !(t.tileEnt 2).mapped) ∧
    answers .releaseWalk { s with rgn.releases := [(5, 2, 3)] } (fun t => t.rgn.releases.isEmpty && !(t.tileEnt 2).mapped) := by decide +kernel

def tLine (hl : Nat) : CcLine := ⟨hl, 3, 7⟩

/-- Cluster 3 locks way 0 and its cache holds host line 64 in set 4095, way 15; cluster 0 holds the same line. -/
def tCache : State := { (tHost.wr (R.ENG_CC_LOCK 3) 1) with clu.lines := [(15, tLine 64), (3 * 65536 + 65535, tLine 64)] }

theorem test_cluster_cache :
    let w := fun op => tBits F.ENG_CC_MAINT_CTL_GO 1 + tBits F.ENG_CC_MAINT_CTL_OP op + tBits F.ENG_CC_MAINT_CTL_CLUSTERS 8
    let s := (tCache.wr R.ENG_CC_MAINT_ADDR_LO 4096).put F.ENG_CC_MAINT_LEN_host 1
    let l := s.put F.ENG_CC_MAINT_KEY_key 3
    (s.touch.mayWrite .cc R.ENG_CC_MAINT_CTL = true ∧ F.ENG_CC_MAINT_CTL_CLUSTERS.of (w 1) = 8 ∧ mapWf s.clu.lines = true) ∧
    answers (.invAll .cc (w 1)) s (fun t => t.clu.lines == [(15, tLine 64)] && t.get F.ENG_CC_MAINT_STAT_BUSY == 1) ∧
    answers (.invRange .cc (w 2)) s (fun t => t.clu.lines == [(15, tLine 64)]) ∧
    answers (.lockFill .cc (w 3)) l (fun t => t.get F.ENG_CC_MAINT_STAT_CODE == 0 && t.clu.maint.map (fun m => m.region) == some 1) ∧
    answers (.lockFill .cc (w 3)) s (fun t => t.get F.ENG_CC_MAINT_STAT_CODE == 3) ∧
    answers (.invRange .cc (w 2)) tCache (fun t => t.get F.ENG_CC_MAINT_STAT_CODE == 2 && t.clu == tCache.clu) ∧
    (({ s with clu.maint := some ⟨1, 8, 64, 1, 0, 0, [], 0, .none⟩ }).maintWaits ⟨1, 8, 64, 1, 0, 0, [], 0, .none⟩ = false) ∧
    answers (.ccLockWrite .cc 3 0x8001) tCache (fun t => t.rd (R.ENG_CC_LOCK 3) == 0x8001 && t.clu.lines == [(15, tLine 64)]) ∧
    answers (.ccCfgWrite .cc 3 (tBits (F.ENG_CC_CFG_SP_WAYS 3) 15)) tHost (fun t => t.spWays 3 == 14 && t.get (F.ENG_CC_STAT_WAYS 3) == 2) ∧
    ((engsOf 3).any tHost.engBound = false ∧
      answers (.ccCfgWrite .cc 3 (tBits (F.ENG_CC_CFG_SP_WAYS 3) 1)) (tHost.put (F.ENGE_CTX_BIND 31) 1)
        (fun t => t.spWays 3 == 0 && t.get (F.ENG_CC_STAT_CFG_REFUSED 3) == 1)) := by decide +kernel

/-- The fill of a LOCK_FILL for cluster 3 has returned: the maintenance installs it in the locked way (R265). -/
theorem test_lock_fill :
    let m : MaintRun := ⟨3, 8, 64, 1, 3, 1, [], 3, .back (.data 7 false)⟩
    let s := { tCache with clu.maint := some m }
    (m.line = 64 ∧ m.cluster = 3 ∧ m.next < 4 * m.len ∧ carryCheck (7#512 ^^^ 0) = carryCheck 7#512 ∧ s.flag (F.ENG_CC_CFG_BYPASS 3) = false ∧
      s.lockSlot 3 64 = some (3 * 65536 + 1024)) ∧
    answers (.maintDone 0) s (fun t => mapGet? t.clu.lines (3 * 65536 + 1024) == some ⟨64, 3, 7⟩ && t.clu.maint.map (·.next) == some 4) := by
  decide +kernel

/-- A small transmit queue of 8 items to moon 5's queue 77, bound to page 1 of the Device-type region 2. -/
def tQueue (kind : Nat) (large : Bool) : QueueSt :=
  { queueInit with
    cfg := tBits F.STQ_Q_CFG_KIND kind + tBits F.STQ_Q_CFG_MODE (if large then 1 else 0) + tBits F.STQ_Q_CFG_DEPTH_LOG2 3
    bind := tBits F.STQ_Q_BIND_REGION 2 + tBits F.STQ_Q_BIND_PAGE 0
    dest := tBits F.STQ_Q_DEST_MOON 5 + tBits F.STQ_Q_DEST_QUEUE 77 }

/-- An item of kind 1 at POS p. -/
def tItem (p : Nat) : HostLine := BitVec.ofNat 512 (1 + 64 * p)

def tStq (q : QueueSt) : State :=
  let s := State.setQueue { tHost with rgn.descs := [(1, tDesc), (2, tDesc ||| 0x200000000)] } 4095 q
  s.setPath .cc { s.path .cc with stqSel := 4095 }

theorem test_stream_commands :
    let tx := tQueue 2 false
    let live := { tx with
      st := 1
      items := [tItem 0, tItem 3] }
    let big := { tQueue 1 true with
      st := 1
      inPkt := true
      items := [tItem 2, tItem 3, tItem 0] }
    ((tStq tx).touch.mayWrite .cc R.STQ_Q_CMD = true ∧ (tStq tx).stqOf .cc = 4095 ∧ (tStq tx).stqCheck 4095 = 0 ∧ tx.kind = kindTx) ∧
    answers (.stqEnable .cc) (tStq tx) (fun t => (t.queue 4095).st == 2) ∧
    answers (.stqEnable .cc) (tStq { tx with bind := 1 }) (fun t => (t.queue 4095).code == 3 && (t.queue 4095).st == 0) ∧
    answers (.stqDisable .cc) (tStq live) (fun t => (t.queue 4095).st == 0 && (t.queue 4095).dropped == 2) ∧
    answers (.flush (.reg .cc)) (tStq live) (fun t => (t.queue 4095).items.isEmpty && (t.queue 4095).st == 1) ∧
    answers (.flush (.reg .cc)) (tStq big) (fun t => (t.queue 4095).items.length == 3 && (t.queue 4095).code == 9) ∧
    answers (.dropRem (.reg .cc)) (tStq big) (fun t => (t.queue 4095).items == [tItem 0] && !(t.queue 4095).dropping) ∧
    answers (.dropRem (.reg .cc)) (tStq live) (fun t => (t.queue 4095).code == 9) ∧
    answers (.dropRemResume 4095) (tStq { big with dropping := true }) (fun t => (t.queue 4095).dropped == 2) ∧
    (tHost.touch.mayWrite .cc R.STQ_CTL = true ∧ answers (.stqCntClr .cc (tBits F.STQ_CTL_CNT_CLR 1)) (tHost.wr (R.STQ_NOQ + 36) 5)
      (fun t => t.rd (R.STQ_NOQ + 36) == 0)) := by decide +kernel

/-- Engine 0 with one operation on line `k` of page 0 of the Device-type region 2, and queue 4095 there. -/
def tStqOp (q : QueueSt) (o : MemOp) : State :=
  let s := tStq q
  (s.setEng 0 { s.eng 0 with
    ops := [o]
    nextTag := 5 }).put (F.ENGE_DEV_DEV_REGION 0) 2

theorem test_stream_items :
    let live := { tQueue 3 false with st := 1 }
    let full := { live with items := List.replicate 8 (tItem 0) }
    let st : MemOp := ⟨4, 2 ^ 44, .store, true, tItem 0, BitVec.allOnes 64, gate0, .sent, 0, 0, 0, false, 2, tDesc, none, .none, false⟩
    let ld : MemOp := ⟨4, 2 ^ 44 + 64 + 56, .load 8 false 5 false, true, 0, 0, gate0, .sent, 0, 0, 0, false, 2, tDesc, none, .none, false⟩
    ((tStqOp live st).opOf 0 4 = some st ∧ st.isStore = true ∧ (tStqOp live st).queueAt ((tStqOp live st).devRegion 0) (st.ea % 2 ^ 44) = some 4095 ∧
      live.takes = true ∧ full.takes = false) ∧
    answers (.stqEnqueue 4095 0 4 (tItem 0)) (tStqOp live st) (fun t => (t.queue 4095).items == [tItem 0]) ∧
    answers (.stqEnqueue 4095 0 4 (tItem 0)) (tStqOp full st) (fun t => (t.queue 4095).waiting == [(0, 4, tItem 0)]) ∧
    answers (.enqueueUnblock 4095) (tStqOp { live with waiting := [(0, 4, tItem 0)] } st) (fun t => (t.queue 4095).items.length == 1) ∧
    (live.items.length < live.depth ∧ (live.push (tItem 0)).items = [tItem 0]) ∧
    (ld.width = some 8 ∧ answers (.stqDequeue 4095 0 56 8) (tStqOp full ld) (fun t => (t.queue 4095).items.length == 7 &&
      (t.eng 0).ops.map (fun o => o.stage) == [.back (.data (tItem 0) false)])) := by decide +kernel

/-- A younger store of the enqueue line is not serialised first (R243); a disabled queue's DROP_REM and FLUSH show code 9 for the wrong
kind of queue (R279). -/
theorem test_stream_order :
    let live := { tQueue 3 false with st := 1 }
    let st : MemOp := ⟨4, 2 ^ 44, .store, true, tItem 0, BitVec.allOnes 64, gate0, .sent, 0, 0, 0, false, 2, tDesc, none, .none, false⟩
    let young := { st with tag := 5 }
    let s := (tStqOp live st).setEng 0 { (tStqOp live st).eng 0 with ops := [st, young] }
    (s.olderStore 0 young = true ∧ s.olderStore 0 st = false ∧ becomes (.stqEnqueue 4095 0 5 (tItem 0)) s (s.wake lookupDomains)) ∧
    answers (.flush (.reg .cc)) (tStq (tQueue 1 true)) (fun t => (t.queue 4095).code == 9) ∧
    answers (.dropRem (.reg .cc)) (tStq (tQueue 1 false)) (fun t => (t.queue 4095).code == 9) ∧
    answers (.dropRem (.reg .cc)) (tStq { tQueue 1 true with code := 5 }) (fun t => (t.queue 4095).code == 0) := by decide +kernel

/-! ### Orbit -/

/-- Moon 1 of constellation 9, a moon with the member 5 whose key is in slot 3, heard on port 0; three members in all. -/
def tOrb (role : Nat) : State :=
  let s := ((((tHost.put F.ORB_CFG_EN 1).put F.ORB_STAT_ROLE role).put F.ORB_ID_MOON 1).put F.ORB_ID_CONST 9).put (F.ORB_S_STAT_UP 0) 1
  { s with orb.peers := [(5, { peerInit with
    cfg := tBits F.ORB_PEER_CFG_MEMBER 1 + tBits F.ORB_PEER_CFG_KEYSLOT 3
    reachable := true
    chans := [(0, { chanInit with
      unacked := [⟨1, .ackOnly, 0⟩, ⟨2, .ackOnly, 0⟩]
      rxSeq := 2 ^ 48 - 2
      owed := 70000
      resends := 8 }), (1, { chanInit with resends := 16, unacked := [⟨3, .ackOnly, 0⟩] })] })] }

/-- A header of moon 5 for a message, sealed under the key of slot 3 (R284, R287). -/
def tSeal (h : OrbHdr) (c : Nat) (msg : OrbMsg) : OrbHdr :=
  let g := { h with
    typ := BitVec.ofNat 8 (msg.typ c)
    chan := BitVec.ofNat 3 c
    len := BitVec.ofNat 16 msg.len }
  { g with tag := OrbHdr.sealUnder g (toBytes 32 (1 : BitVec 256)) msg }

def tPlain : OrbHdr := ⟨0, 5, 1, 9, 2 ^ 48 - 1, 1, 1, 4, 7, 1, 0, 0, 0, 0, 0⟩
def tHdr (msg : OrbMsg) : OrbHdr := tSeal tPlain 0 msg

theorem tSeal_tag (s : State) (h : OrbHdr) (c : Nat) (msg : OrbMsg) (k : KeySlot) (hk : s.slot (s.peer h.src.toNat).keySlot = some k)
    (h1 : k.k1 = 1) : s.tagOk (tSeal h c msg) msg = true := by
  have e : s.slot (s.peer (tSeal h c msg).src.toNat).keySlot = some k := hk
  unfold State.tagOk
  rw [e]
  dsimp only
  rw [h1]
  have t : OrbHdr.sealUnder (tSeal h c msg) (toBytes 32 (1 : BitVec 256)) msg = (tSeal h c msg).tag := by
    simp only [tSeal, OrbHdr.sealUnder, OrbHdr.bytes]
  rw [t]
  exact beq_self_eq_true _

theorem tHears (h : OrbHdr) (c : Nat) (msg : OrbMsg) (s : State) (hm : s.meant (tSeal h c msg) c msg)
    (hk : s.slot (s.peer h.src.toNat).keySlot = some ⟨1, 2, 3, 0⟩) : s.hears (tSeal h c msg) c msg :=
  ⟨hm, tSeal_tag s h c msg _ hk rfl⟩

/-- One message of each channel, which moon 1 hears from moon 5. -/
theorem test_orbit_hears :
    (∀ p ∈ [(0, OrbMsg.ackOnly), (0, .nak 2), (0, .candidate 0), (0, .hello 2 true none 0), (0, .planet 8 (some 1)), (0, .dirQuery [4]),
      (1, .rack 9 1 0), (2, .mack 1 0 0), (3, .items 77 5 1 [1]), (4, .rstack 1 0)], (tOrb 2).hears (tSeal tPlain p.1 p.2) p.1 p.2) ∧
    (tOrb 3).hears (tHdr (.vote 7 true)) 0 (.vote 7 true) ∧ (tOrb 2).nextSeq tPlain 0 ∧
    (∀ c : Fin 5, c ≠ 0 → (tOrb 2).nextSeq { tPlain with seq := 1 } c) := by
  have meant : ∀ p ∈ [(0, OrbMsg.ackOnly), (0, .nak 2), (0, .candidate 0), (0, .hello 2 true none 0), (0, .planet 8 (some 1)), (0, .dirQuery [4]),
      (1, .rack 9 1 0), (2, .mack 1 0 0), (3, .items 77 5 1 [1]), (4, .rstack 1 0)], (tOrb 2).meant (tSeal tPlain p.1 p.2) p.1 p.2 := by
    unfold State.meant
    decide +kernel
  have vote : (tOrb 3).meant (tHdr (.vote 7 true)) 0 (.vote 7 true) := by
    unfold State.meant
    decide +kernel
  refine ⟨fun p hp => tHears _ _ _ _ (meant p hp) (by decide +kernel), tHears _ _ _ _ vote (by decide +kernel), ?_⟩
  unfold State.nextSeq
  decide +kernel

/-- Frames that are not for this N16, of a bad form, with a tag not their own, and while Orbit does not run. -/
theorem test_orbit_frames :
    let h := tHdr (.candidate 0)
    becomes (.candidate h 0) ((tOrb 2).put F.ORB_CFG_EN 0) (((tOrb 2).put F.ORB_CFG_EN 0).wake [52]) ∧
    becomes (.candidate { h with version := 2 } 0) (tOrb 2) ((tOrb 2).sat F.ORB_ERR_BAD_FRAME 1) ∧
    becomes (.candidate { h with len := 16 } 0) (tOrb 2) ((tOrb 2).sat F.ORB_ERR_BAD_FRAME 1) ∧
    becomes (.candidate { h with dst := 2 } 0) (tOrb 2) ((tOrb 2).satReg R.ORB_RX_FOREIGN 1) ∧
    becomes (.candidate { h with src := 6 } 0) (tOrb 2) ((tOrb 2).satReg R.ORB_RX_FOREIGN 1) ∧
    ((tOrb 2).tagOk { h with tag := 0 } (.candidate 0) = false ∧
      answers (.candidate { h with tag := 0 } 0) (tOrb 2) (fun t => t.rd (R.ORB_S_TAG_FAIL 0) == 1 && t.term == 0)) ∧
    answers (.candidate h 0) (tOrb 2) (fun t => ((t.peer 5).chan 0).rxSeq == 2 ^ 48 - 1 && t.term == 7) ∧
    (tOrb 2).rwriteRoom 5 1 65535 = true ∧ (tOrb 2).mdataRoom 5 1 255 240 16 = true := by decide +kernel

/-- A secondary of moon 5's region, whose last line's set in the vault is full: an RWRITE of that line finds no room, and its port is
paused until there is room (R282). -/
def tPacked : State :=
  let s := { tOrb 2 with rgn.descs := [(1, tDesc + BitVec.ofNat 512 ((2 * 2 ^ 27 + 6 * 2 ^ 9 + 5) * 2 ^ 192))] }
  { s with store.vault := (setLocs s.vaultSets 65535).map (fun loc => (loc, ⟨tImg, 0, true, false, 0⟩)) }

theorem test_frame_room :
    let c := Instr.rwrite { tPlain with version := 2 } 0 1 65535 ⟨0, 0, 0⟩
    let paused := tPacked.put (F.ORB_S_STAT_PFC_TX 0) 1
    let room := { paused with store.vault := [] }
    (tPacked.rwriteRoom 5 1 65535 = false ∧ tPacked.orbitRuns = true ∧ tPacked.linkOk 0 = true ∧
      answers c tPacked (fun t => t.flag (F.ORB_S_STAT_PFC_TX 0) && t.rd (R.ORB_S_PFC_TX 0) == 1 && t.out == [.pfcSent 0 true])) ∧
    becomes c paused paused ∧
    (room.rwriteRoom 5 1 65535 = true ∧ answers c room (fun t => !t.flag (F.ORB_S_STAT_PFC_TX 0) && t.out.contains (.pfcSent 0 false))) := by
  decide +kernel

/-- Queue 77 sends an item to moon 5 under a credit; a receive queue returns its credits (R275). -/
theorem test_item_send :
    let o := tOrb 2
    let s := o.setPeer 5 ((o.peer 5).setChan 3 { chanInit with credits := 8 })
    let tx := { tQueue 2 false with
      st := 1
      items := [tItem 0, tItem 3]
      credit := 2 }
    let rx := { tQueue 1 false with
      st := 1
      credit := 2 }
    let q := State.setQueue s 77 tx
    let r := State.setQueue s 77 rx
    (q.destPort tx.dest tx.moon = some 0 ∧ q.linkTakes tx.moon (.items tx.far 77 tx.epoch [tItem 0]) = true ∧
      answers (.itemSend 77) q (fun t => (t.queue 77).items == [tItem 3] && (t.queue 77).credit == 1 && t.out.length == 1)) ∧
    (r.returnDue 77 = true ∧ r.sendsTo rx.moon = true ∧ rx.kind = kindRx ∧ rx.n4 = false ∧
      answers (.creditReturnSend 77) r (fun t => (t.queue 77).credit == 0 && t.out.length == 1)) := by decide +kernel

theorem test_orbit_transport :
    ((tOrb 2).peer 5).reachable = true ∧
    answers (.ackOnly (tHdr .ackOnly) 0) (tOrb 2) (fun t => ((t.peer 5).chan 0).unacked.map (·.seq) == [2] && ((t.peer 5).chan 0).credits == 4) ∧
    answers (.nak (tHdr (.nak 2)) 0 2) (tOrb 2) (fun t => ((t.peer 5).chan 0).unacked.map (·.seq) == [2] && t.out.length == 1) ∧
    ((tOrb 2).peerPort 5 = some 0 ∧ (((tOrb 2).peer 5).chan 0).owed = 70000 ∧ (tOrb 2).flag (F.ORB_S_STAT_PFC_RX 0) = false ∧
      answers (.ackOnlyTimer 5 0) (tOrb 2) (fun t => (t.peer 5).nctr == 1 && t.out.head?.isSome) ∧
      (((tOrb 2).peer 5).chan 1).owed = 0) ∧
    ((tOrb 2).orbitRuns = true ∧ ((tOrb 2).peer 5).member = true ∧ ((tOrb 2).slot ((tOrb 2).peer 5).keySlot).isSome = true ∧
      (((tOrb 2).peer 5).chan 0).waiting = []) ∧
    (let late := { tOrb 2 with now := 200 * max 1 ((tOrb 2).get F.ORB_TIMING_RETX_US) }
     late.orbitRuns = true ∧ answers (.retransmitTimeout 5 0) late (fun t => ((t.peer 5).chan 0).resends == 9 && (t.peer 5).port == 1) ∧
      answers (.retransmitTimeout 5 1) late (fun t => !(t.peer 5).reachable)) ∧
    answers (.nctrWarn 5) { tOrb 2 with orb.peers := [(5, { peerInit with nctr := 2 ^ 47 })] } (fun t => (t.peer 5).seqWarn) ∧
    answers (.streamLinkUp 1) (tOrb 2) (fun t => t.flag (F.ORB_S_STAT_UP 1) && (t.unit (uLink 1)).st == ustService) ∧
    answers (.streamLinkDown 0) (tOrb 2) (fun t => !t.flag (F.ORB_S_STAT_UP 0)) ∧
    becomes (.foreignFrame 0) (tOrb 2) ((tOrb 2).satReg R.ORB_RX_FOREIGN 1) ∧
    answers (.pfcFrame 1 true) (tOrb 2) (fun t => t.flag (F.ORB_S_STAT_PFC_RX 1)) := by decide +kernel

/-- PFC pauses the port of moon 5 (R282): a HELLO waits, and goes when the port may send again. -/
theorem test_pfc :
    let s := (tOrb 2).put (F.ORB_S_STAT_PFC_RX 0) 1
    s.paused 5 .ackOnly = true ∧
    answers .helloPeriod s (fun t => ((t.peer 5).chan 0).waiting.length == 1 && t.out == s.out) = true ∧
    answers (.pfcFrame 0 false) (s.setPeer 5 ((s.peer 5).setChan 0 { (s.peer 5).chan 0 with
      waiting := [.ackOnly, .vote 1 true, .vote 2 true]
      credits := 2 })) (fun t => ((t.peer 5).chan 0).waiting.isEmpty && t.out.length == 3 &&
        ((t.peer 5).chan 0).unacked.map (·.seq) == [1, 2, 1, 2]) = true ∧
    (s.rekeyPeers 3).orb.peers.map (fun p => (p.2.nctr, (p.2.chan 0).txSeq, (p.2.chan 0).rxSeq, (p.2.chan 1).unacked.map (·.seq))) =
      [(0, 2, 0, [1])] := by decide +kernel

theorem test_constellation :
    (((tOrb 2).onHello tPlain true).peer 5).planetEn = true ∧
    ((tOrb 5).term ≤ 7 ∧ (tOrb 5).orb.votedTerm < 7 ∧ (((tOrb 5).wr R.ORB_TERM 7).onCandidate tPlain 0).orb.votedTerm = 7) ∧
    (mapWf (tOrb 3).orb.peers = true ∧ (tOrb 3).majority 2 = true ∧
      (let t := ((tOrb 3).wr R.ORB_TERM 7).onVote tPlain 7 true; t.role = rolePlanet ∧ t.planetMoon = some 1)) ∧
    (let t := (tOrb 2).onPlanet tPlain 8 (some 1); t.role = roleStandby ∧ t.planetMoon = some 5 ∧ t.dirgen = 8) ∧
    answers .planetSilence (tOrb 4) (fun t => t.rd R.ORB_TERM == 1 && t.role == roleCandidate) ∧
    answers .planetSilence (tOrb 2) (fun t => t.role == roleMoon && t.planetMoon.isNone) ∧
    answers .electionTimeout ((tOrb 2).put F.ORB_CFG_PLANET_EN 1) (fun t => t.rd R.ORB_TERM == 1 && t.role == roleCandidate) ∧
    ((tOrb 5).majority 1 = false ∧ answers .planetStepDown { tOrb 5 with orb.peers := [(5, { peerInit with cfg := 1 })] } (fun t => t.role == roleAlone)) ∧
    answers .helloPeriod (tOrb 2) (fun t => ((t.peer 5).chan 0).unacked.length + ((t.peer 5).chan 0).waiting.length == 3) ∧
    answers (.peerUnreachable 5) { tOrb 2 with now := (tOrb 2).failCycles } (fun t => !(t.peer 5).reachable) := by decide +kernel

/-- Region 2 is primary to moon 5's region 6; region 4 is a migration source of 16 MiB at DPA 0. -/
def tRefl (role : Nat) : State :=
  { tOrb 2 with rgn.descs := [(1, tDesc + BitVec.ofNat 512 ((role * 2 ^ 27 + 6 * 2 ^ 9 + 5) * 2 ^ 192))] }

/-- A reflected write of region 1 whose time is up. -/
def tReflLate : State := { tRefl 1 with
  now := 200000000
  orb.refl := [⟨5, 1, 9, 0, 0, 7⟩] }

theorem test_reflection :
    200 * max 1 (tReflLate.get F.ORB_REFL_CFG_TMO_US) ≤ tReflLate.now ∧ dRole (tReflLate.desc 1) = 1 ∧ dBroken (tReflLate.desc 1) = false ∧
    answers (.reflectionTimeout 1 9) tReflLate (fun t => dBroken (t.desc 1) && t.orb.refl.isEmpty && t.rd R.ORB_REFL_BREAKS == 1) := by
  decide +kernel

def tMigWord : Word := tBits (F.ORB_MIG_CTL_START 1) 1 + tBits (F.ORB_MIG_CTL_REGION 1) 1 + tBits (F.ORB_MIG_CTL_MODE 1) 1
def tMigRun : State := ((tRefl 4).put (F.ORB_MIG_STAT_STATE 1) 1).wr (R.ORB_MIG_CTL 1) tMigWord
def tMigHeld : State := { tMigRun with store.map := [(0, { mapEnt0 with haloCnt := 1 })] }

theorem test_migration_tile :
    (tMigRun.get (F.ORB_MIG_STAT_STATE 1) = 1 ∧ mapGet? tMigRun.orb.hold 1 = none ∧ tMigRun.orbitRuns = true ∧
      tMigRun.passed 75 (migPace (tMigRun.get (F.ORB_MIG_CTL_RATE 1))) = true ∧ (tMigRun.peer (dPeer (tMigRun.desc 1))).reachable = true ∧
      tMigRun.accesses = [] ∧ tMigRun.get (F.ORB_MIG_CTL_MODE 1) = 1 ∧ dOrbBound (tMigRun.desc 1) < dSize (tMigRun.desc 1) * 256 ∧
      tMigRun.tileVoid 0 = true) ∧
    answers (.migrationTile 1 []) tMigRun (fun t => mapGet? t.orb.hold 1 == some ⟨0⟩) := by decide +kernel

theorem test_migration_held :
    tMigHeld.tileVoid 0 = false ∧ tMigHeld.tileWaits 1 0 = false ∧ (tMigHeld.copyTile 1 0 (fun _ => false)).2.isSome = true := by decide +kernel

theorem test_migration :
    let m := tRefl 4
    let w := tBits (F.ORB_MIG_CTL_START 1) 1 + tBits (F.ORB_MIG_CTL_REGION 1) 1 + tBits (F.ORB_MIG_CTL_MODE 1) 1
    let run := (m.put (F.ORB_MIG_STAT_STATE 1) 1).wr (R.ORB_MIG_CTL 1) w
    (m.touch.mayWrite .cc (R.ORB_MIG_CTL 1) = true ∧ m.migCheck 1 1 1 = 0 ∧
      answers (.migStart .cc 1 w) m (fun t => t.get (F.ORB_MIG_STAT_STATE 1) == 1)) ∧
    (m.migCheck 1 1 2 = 2 ∧ answers (.migStart .cc 1 (w + tBits (F.ORB_MIG_CTL_MODE 1) 1)) m (fun t => t.get (F.ORB_MIG_STAT_STATE 1) == 6 &&
      t.get (F.ORB_MIG_STAT_CODE 1) == 2 && t.rgn == m.rgn)) ∧
    answers (.migPause .cc 1 (tBits (F.ORB_MIG_CTL_PAUSE 1) 1)) run (fun t => t.get (F.ORB_MIG_STAT_STATE 1) == 2) ∧
    (m.touch.mayRead .cc R.ORB_RACK_NS_MAX = true ∧ answers (.rackNsMaxRead .cc) (m.wr R.ORB_RACK_NS_MAX 77) (fun t =>
      t.out == [.regData .cc 77] && t.rd R.ORB_RACK_NS_MAX == 0)) ∧
    (m.touch.mayWrite .cc R.ORB_CTL = true ∧ answers (.orbCntClr .cc (tBits F.ORB_CTL_CNT_CLR 1)) (m.wr R.ORB_ELECT_CNT 3) (fun t =>
      t.rd R.ORB_ELECT_CNT == 0 && t.rd R.ORB_TERM == m.rd R.ORB_TERM)) := by decide +kernel

/-! ### Units, the recorder, the NV store, the management space -/

/-- `tHost` with the authorisation of the management port open. -/
def tAuth : State := tHost.put F.KVC_AUTH_OPEN 1

theorem test_unit_commands :
    let s := fun (u st : Nat) => { tAuth with board.ents := [(u, ⟨7, st⟩)] }
    ((s 0 1).mayWrite .mgmt R.ORB_UNIT_CMD = true ∧ ((s 0 1).unit 0).gen = 7) ∧
    answers (.unitHold (.reg .mgmt) 0 6) (s 0 1) (fun t => t.get F.ORB_UNIT_STAT_CODE == 1 && t.board.ents == (s 0 1).board.ents) ∧
    (unitKind 565 ≠ 1 ∧ answers (.unitReset (.reg .mgmt) 565 7) (s 565 ustRetired) (fun t => t.get F.ORB_UNIT_STAT_CODE == 4 &&
      t.get F.ORB_UNIT_STAT_unit == 565)) ∧
    answers (.unitHold (.reg .mgmt) 7 7) (s 7 ustService) (fun t => t.get (F.HP_CTRL_PORT_EN 7) == 0 && (t.unit 7).st == ustHeld && (t.unit 7).gen == 8) ∧
    answers (.unitRelease (.reg .mgmt) 7 7) (s 7 ustHeld) (fun t => t.get (F.HP_CTRL_PORT_EN 7) == 1 && (t.unit 7).st == ustService) ∧
    ((s 0 ustService).seq.off = 0 ∧ answers (.unitReset (.reg .mgmt) 0 7) (s 0 ustService) (fun t => !(t.port 0).linkUp && (t.unit 0).st == ustService)) ∧
    ((s (uDie 31 15) ustService).unit (uDie 31 15)).st = ustService := by decide +kernel

def tEvent : EventRec := ⟨8, 3, 5, 6, 7, [], 0, false⟩

/-- A record at the ring's last places, and the append queue with another. -/
def tEvr : State :=
  { ((tAuth.put F.EVR_STAT_READY 1).wr R.EVR_OLDEST_SEQ 0xFFFFFFFF).wr R.EVR_CLEAR_UPTO 0xFFFFFFFF with
    evr.queue := [tEvent]
    evr.ring := [⟨2 ^ 32 - 1, ringSize - 4, 4, true⟩]
    evr.nextPos := 0
    evr.nextSeq := 0 }

theorem test_recorder :
    (tEvr.nvs.queue.length < 16 ∧ tEvr.evr.dropWait = 0 ∧ answers .eventAppend tEvr (fun t =>
      t.evr.ring.getLast? == some ⟨0, 0, 4, true⟩ && t.evr.queue.isEmpty && t.get F.EVR_LAST_CLASS == 8 && t.get F.EVR_LAST_CODE == 3)) ∧
    (tEvr.cursorOpen .mgmt = true ∧ answers (.curSeqWrite .mgmt 0xFFFFFFFF) tEvr (fun t => (t.path .mgmt).cur.loading.isSome && (t.path .mgmt).cur.stat == 0)) ∧
    answers (.curSeqWrite .mgmt 3) { tEvr with evr.ring := [] } (fun t => (t.path .mgmt).cur.stat == 4) ∧
    (let l := tEvr.setPath .mgmt { tEvr.path .mgmt with cur := ⟨0, 0, 1, [7], some 8⟩ }
     answers (.cursorLoadDone .mgmt) l (fun t => (t.path .mgmt).cur.stat == 8 && (t.path .mgmt).cur.bytes == [7])) ∧
    (let v := tBits F.EVR_CLEAR_GO 1
     let w := v + tBits F.EVR_CLEAR_KEY 0x434C
     tEvr.clearCode v = 1 ∧ tEvr.clearCode w = 0 ∧
     answers (.evrClear .mgmt v) tEvr (fun t => t.get F.EVR_STAT_CLEAR_CODE == 1) ∧
     answers (.evrClear .mgmt w) tEvr (fun t => t.get F.EVR_STAT_CLEARING == 1 && t.evr.clearRun == some (0xFFFFFFFF, 0xFFFFFFFF))) ∧
    (({ tEvr with evr.clearRun := some (1, 2) }).nvs.queue.any (fun w => decide (w.page < 512)) = false ∧
     answers .evrClearDone { tEvr with evr.clearRun := some (1, 2) } (fun t => t.evr.clearRun.isNone && t.rd R.EVR_CLEAR_SEQ == 2)) := by decide +kernel

theorem test_nv_store :
    let s := fun (d : NvsDone) => { tAuth.put F.NVS_STATUS_READY 1 with nvs.queue := [⟨1023, [(31, 9)], d⟩] }
    let v := tBits F.NVS_CNT_INC_GO 1 + tBits F.NVS_CNT_INC_counter 63
    answers (.nvPageWrite none) (s (.ring 0)) (fun t => t.nvs.queue.isEmpty && t.nvRead 1023 31 == 9) ∧
    answers (.nvPageWrite (some 31)) (s .plain) (fun t => t.nvs.queue.isEmpty && t.flag F.NVS_STATUS_FAIL) ∧
    (F.NVS_CNT_INC_counter.of v = 63 ∧ tAuth.spreadDue 63 < 2 ^ 32 - 1 ∧
      answers (.nvsCntInc .mgmt v) tAuth (fun t => t.nvs.queue.map (fun w => (w.page, w.groups)) == [(764, [(1, BitVec.ofNat 64 (1 + 2 ^ 32 * 63))])])) ∧
    becomes (.nvsCntInc .cc v) tAuth tAuth ∧
    answers .tornReport { tHost with nvs.tornRun := some (3, 5) } (fun t => t.nvs.tornRun.isNone && t.evr.queue.length == 1) := by decide +kernel

theorem test_management_space :
    let lo : BitVec 26 := BitVec.ofNat 26 R.STQ_S0_RX_LO
    (wideLo lo.toNat = true ∧ (if usesFabric lo.toNat then tHost.touch else tHost).mayRead .cc lo.toNat = true) ∧
    (let s := (tHost.wr lo.toNat 5).wr (lo.toNat + 4) 6
     answers (.counterLoRead .cc lo) s (fun t => t.out == [.regData .cc 5] && ((t.path .cc).latch.map (fun x => x.2)) == some 6)) ∧
    (let s := tHost.setPath .cc { tHost.path .cc with latch := some (tHost.wideId .cc lo.toNat, 6) }
     (if usesFabric lo.toNat then s.touch else s).mayRead .cc (lo.toNat + 4) = true ∧
     answers (.counterHiRead .cc (lo + 4)) s (fun t => t.out == [.regData .cc 6])) ∧
    ((accBit .mgmt).isSome = true ∧ answers (.misalignedAccess .mgmt false 2 4) tHost (fun t => t.out == [.regData .mgmt 0] && t.rd R.ID_ACC_ERR != 0)) ∧
    (tHost.oddMerged 7 = false ∧ answers (.misalignedAccess (.host 7) true 4 8) tHost (fun t => t.get (F.HP_STATUS_ACC_ERR 7) == 1 && t.out.isEmpty)) ∧
    (unassigned 0x3FFFFFC = true ∧ answers (.unmappedAccess .cc true 0x3FFFFFC) tHost (fun t => t.rd R.ID_UNMAPPED_ADDR == 0xC3FFFFFC &&
      t.get F.ID_UNMAPPED_accesses == 1 && t.out.isEmpty)) ∧
    ((tHost.put F.MODE_HOLD_WHY_CONFIG 1).answersAt R.MAP_CFG = false ∧ unassigned R.MAP_CFG = false) ∧
    (blockOf R.SEQ_CFG = some .seq ∧ (rowOf R.SEQ_CFG).isSome = true ∧ tAuth.mayWrite .mgmt R.SEQ_CFG = true) ∧
    (mgmtFits 64 0x3FFFF00 = true ∧ mgmtFits 64 0x3FFFF04 = false ∧ mgmtFits 65 0 = false ∧ mgmtFits 0 0 = false) ∧
    answers (.mgmtRead 0 0 0) tHost (fun t => t.out == [.mgmt 2 []]) ∧ answers (.mgmtRead 1 0 3) tHost (fun t => t.out == [.mgmt 3 []]) ∧
    answers (.mgmtRead 2 0x3F0000 0) tHost (fun t => t.out.length == 1) ∧ answers (.mgmtWrite 1 0 []) tHost (fun t => t.out == [.mgmt 3 []]) := by
  decide +kernel

theorem test_region_commits :
    let go := BitVec.ofNat 32 (0x5243 * 65536 + 2)
    let bad := { tHost with rgn.rc := { tHost.rgn.rc with
      region := 1
      staging := 0x40 } }
    (tHost.answers .map = true ∧ answers (.rcRead .cc 1) { tHost with rgn.rc := { tHost.rgn.rc with region := 1 } } (fun t => t.rgn.rc.staging == tDesc)) ∧
    answers (.rcCommit .cc 2) bad (fun t => t.rgn.rc.keyErr && t.rgn.descs == tHost.rgn.descs) ∧
    answers (.rcCommit .cc go) bad (fun t => t.rgn.rc.busy && (t.rgn.rc.run.map (fun r => r.1)) == some 0x40) ∧
    answers .commitDone { tHost with rgn.rc := { tHost.rgn.rc with run := some (7, 6) } } (fun t => t.rgn.rc.status == 6 && !t.rgn.rc.busy &&
      dw t.rgn.rc.staging 15 == 6) ∧
    answers (.rcRead .mgmt 1) tHost (fun t => t.rgn == tHost.rgn) := by decide +kernel

/-! ### The vault -/

theorem test_tokens :
    let s := { tHost with
      kvc.slots := [(1, 5), (3, 9)]
      kvc.chal := some 6 }
    let t := fun (u r : Nat) => { s with kvc.tok := some ⟨u, r, none, none⟩ }
    let l := s.put F.KVC_AUTH_CFG_FAIL_LIMIT 3
    (s.kvc.tok = none ∧ s.vaultDead = false ∧ s.vslot 1 = some 5 ∧ s.kvc.chal = some 6 ∧ (s.put F.MODE_STAT_TRUST trSealed).trustAllows 2 = true) ∧
    becomes (.presentToken .cc 1) s s ∧
    answers .tokenCheckDone (t 1 1) (fun t => t.authorised && t.kvc.result == 1) ∧
    answers .tokenCheckDone ((t 2 1).put F.MODE_STAT_TRUST trSealed) (fun t => t.trust == trOwner) ∧
    (l.get F.KVC_TOKEN_FAIL_consecutive + 1 < l.get F.KVC_AUTH_CFG_FAIL_LIMIT ∧
      answers .tokenCheckDone { l with kvc.tok := some ⟨1, 2, none, none⟩ } (fun t => t.get F.KVC_TOKEN_FAIL_consecutive == 1 && t.kvc.slots.length == 2)) ∧
    ((l.put F.KVC_TOKEN_FAIL_consecutive 2).get F.KVC_AUTH_CFG_FAIL_LIMIT ≤ 3 ∧
      answers .tokenCheckDone { l.put F.KVC_TOKEN_FAIL_consecutive 2 with kvc.tok := some ⟨1, 2, none, none⟩ } (fun t => t.kvc.slots.isEmpty && t.key.slots.isEmpty)) ∧
    answers (.closeAuthorisation .mgmt) tAuth (fun t => !t.authorised) ∧ answers .authorisationExpiry tAuth (fun t => !t.authorised) ∧
    answers .challengeExpiry s (fun t => t.kvc.chal.isNone) := by decide +kernel

/-- The management port holds the engine; slot 3 has a key. -/
def tKvc : State := { tAuth.put F.KVC_LOCK_OWNER 2 with kvc.slots := [(1, 1), (3, 9), (15, 4)] }

theorem test_cipher_ready (m : Fin 9) : tKvc.kvcReady (tBits F.KVC_CTL_GO 1 + tBits F.KVC_CTL_MODE m + tBits F.KVC_CTL_VSLOT 15) m ∧
    tKvc.kvcReady (tBits F.KVC_CTL_GO 1 + tBits F.KVC_CTL_MODE m + tBits F.KVC_CTL_VSLOT 2) m := by
  revert m
  unfold State.kvcReady
  decide +kernel

theorem test_cipher :
    let w := fun (m v : Nat) => tBits F.KVC_CTL_GO 1 + tBits F.KVC_CTL_MODE m + tBits F.KVC_CTL_VSLOT v
    let r := fun (ok : Bool) (d : List Byte) (k : Option (Nat × Option (BitVec 256))) (q : Option (Bool × Nat)) =>
      { (tKvc.wr (R.NVS_REC_SEQ 5) 4) with
        kvc.run := some ⟨2, ok, d, none, k, q, false, 9⟩
        now := ms100
        marks := [(93, 0), (92, 0)]
        nvs.inUse := [(5, true)] }
    (tKvc.vslot (F.KVC_CTL_VSLOT.of (w 1 15)) = some 4 ∧ F.KVC_CTL_VSLOT.of (w 8 2) < 3) ∧
    answers (.slotErase .mgmt (w 8 3)) tKvc (fun t => t.kvc.run.map (fun r => r.slot) == some (some (3, none)) && t.kvc.slots == tKvc.kvc.slots) ∧
    becomes (.gcmSeal .mgmt (w 1 2)) tKvc ((((tKvc.useVault .mgmt).put F.KVC_CTL_MODE 1).put F.KVC_CTL_VSLOT 2).put F.KVC_STAT_CODE 1) ∧
    answers (.kvcOpDone 0) (r true [1, 2, 3, 4, 5] none none) (fun t => t.bufferBytes 5 == [1, 2, 3, 4, 5] && t.get F.KVC_STAT_VERIFIED == 1) ∧
    answers (.kvcOpDone 0) (r false [1] none none) (fun t => t.kvc.buf.isEmpty && t.get F.KVC_STAT_CODE == 2) ∧
    ((r true [] (some (3, some 8)) (some (true, 4))).vaultWaits (some (true, 4)) = false ∧ (r true [] (some (3, some 8)) (some (true, 4))).vaultStored (some (true, 4)) = true ∧
      answers (.kvcOpDone 0) (r true [] (some (3, some 8)) (some (true, 4))) (fun t => t.vslot 3 == some 8 && t.vslot 15 == some 4)) ∧
    becomes (.kvcLockWrite false .mgmt (tBits F.KVC_LOCK_OWNER 2)) tAuth ((tAuth.useVault .mgmt).put F.KVC_LOCK_OWNER 2) ∧
    ({ tKvc with now := ms100, marks := [(92, 0)] }.passed 92 ms100 = true ∧ tKvc.kvc.run = none) ∧
    answers .kvcLockBreak { tKvc with now := ms100, marks := [(92, 0)] } (fun t => t.get F.KVC_LOCK_OWNER == 0) ∧
    (answers .supplyGlitch tKvc (fun t => t.kvc.slots.isEmpty) ∧ answers .clockMonitorAlarm tKvc (fun t => t.kvc.slots.isEmpty)) := by decide +kernel

/-! ### The thermal watch and Halted -/

/-- As `tUp` with the power axis Dark. -/
def tDark : State := tUp.put F.MODE_STAT_POWER pwDark

theorem test_thermal :
    let s := fun (means : List Int) (step : Nat) => { (tUp.put F.THM_STAT_STEP step).put F.THM_RAW_run 256 with
      thm.means := means
      now := ms100
      marks := [(81, 0), (82, 0)] }
    ((s [] 0).stepForced = false ∧ ((200 : Int) < 4 * (s [] 0).get F.THM_LIMIT_CFG_CRIT) ∧ (s [] 0).thm.temps = [] ∧
      answers (.thermalSample 9 (.temp 200)) (s [] 0) (fun t => t.get F.THM_TEMP_last == 200 && t.thm.means == [2400])) ∧
    answers (.thermalSample 9 .outOfRange) tDark (fun t => t.flag F.THM_STAT_BROKEN && t.get F.THM_STAT_STEP == 15) ∧
    (tDark.exiting = false ∧ tDark.poweringUp = false ∧ answers .sensorStuck (tDark.put F.THM_RAW_run 256) (fun t => t.flag F.THM_STAT_LATCH)) ∧
    ((s [-2000] 1).thm.mean < (s [-2000] 1).stepLevel 1 - quarterC ((s [-2000] 1).get F.THM_DIM_CFG_HYST) ∧
      answers .dimStepFall (s [-2000] 1) (fun t => t.get F.THM_STAT_STEP == 0)) ∧
    ((s [-2000] 1).lasted 81 ms100 = true ∧ ((s [] 0).put F.THM_STAT_RISE 1).lasted 82 ms100 = true) ∧
    answers .riseHoldEnd ((s [] 0).put F.THM_STAT_RISE 1) (fun t => !t.flag F.THM_STAT_RISE) ∧
    answers .lockstepDisagree tUp (fun t => t.thm.strikeAt == some 0) ∧
    answers .lockstepDisagree { tUp with thm.strikeAt := some 0 } (fun t => t.seq.faultLock && t.get F.THM_STAT_STEP == 15) ∧
    answers .haltedSequence { tHost with key.halt := true } (fun t => t.key.haltedRun && t.key.slots.isEmpty && t.service == svHalted) := by decide +kernel

/-! ### What had no witness yet: deep recovery, a terminator's line, an unwrap -/

theorem test_media_keys :
    let s := tVaulted (tTrm 0)
    let d := { tHost with
      adm.deep := [(65535, 1)]
      store.map := [(255, { mapEnt0 with
        mapped := true
        pos := 77 })] }
    (s.trmRegion 2 = some 1 ∧ s.tileEmpty 0 = true ∧ (tTrm 65535).halted = false) ∧
    (let v := tVaulted (tTrm 65535)
     v.tileEmpty (tileOfLine 65535) = false ∧ v.lineBusy 65535 = false ∧ 0 < v.adm.power ∧ (v.trmNewKeys (v.desc 1) 2).isSome = true ∧
      answers (.trmLineRewrite 2 .undecodable) v (fun t => dTrmBound (t.desc 1) == 65535 || t.key.slots.length == 2) = true) ∧
    (d.adm.deep.find? (fun p => p.1 == 65535) = some (65535, 1) ∧ d.mediaSource 65535 = .bulk (77 * 256 + 255)) ∧
    (tKvc.vslot 1 = some 1 ∧ (tKvc.put F.KVC_LEN_LEN 40).get F.KVC_LEN_LEN = 40) := by decide +kernel

/-! ### The sequencer -/

/-- A run at step 9 of a program with this word there, and another after it. -/
def tSeq (w : Nat) (down : Bool) (wait : SeqWait) : State :=
  { tUp.put F.SEQ_STAT_STEP 9 with
    seq := { seq0 with
      por := false
      run := some down
      wait := wait
      runProg := [(9, BitVec.ofNat 32 w), (10, 0x30000001)] } }

theorem test_seq_ready (down : Bool) : (tSeq 0x10000017 down .none).stepOk 10 ∧ (tSeq 0x10000017 down .time).stepOk 10 ∧
    (tSeq 0x50000009 down .none).stepOk 10 := by
  revert down
  unfold State.stepOk
  decide +kernel

theorem test_seq_steps :
    ((tSeq 0x10000017 false .none).seqAt 1 = true ∧ (tSeq 0x10000017 false .none).seqAt 2 = false) ∧
    answers .seqEnable (tSeq 0x10000017 false .none) (fun t => t.rd R.SEQ_EN_STAT == 0x800000 && t.get F.SEQ_STAT_STEP == 10) ∧
    answers .seqDisable ((tSeq 0x20000017 true .none).wr R.SEQ_EN_STAT 0xFFFFFF) (fun t => t.rd R.SEQ_EN_STAT == 0x7FFFFF) ∧
    ((tSeq 0x20000117 true .none).seqAt 2 = true ∧ ((tSeq 0x20000117 true .none).wr R.SEQ_IN_STAT 0x800000).pgood 23 = true ∧
      answers .seqDisable ((tSeq 0x20000117 true .none).wr R.SEQ_IN_STAT 0x800000) (fun t => t.seq.wait == .discharge 23)) ∧
    becomes .seqWait (tSeq 0x30000001 true .none) (State.mark (tSeq 0x30000001 true .time) 94) ∧
    ((tSeq 0x40000039 true .none).checkInput 25 = true ∧ answers .seqCheck (tSeq 0x40000039 true .none) (fun t => t.get F.SEQ_STAT_STEP == 10)) ∧
    answers .seqCheck (tSeq 0x40000119 true .none) (fun t => t.seq.wait == .check 25 false) ∧
    answers .seqJump (tSeq 0x50000009 true .none) (fun t => t.get F.SEQ_STAT_STEP == 9 && t.seq.steps == 1) ∧
    ((tSeq 0x60000005 false .none).onPhase = false ∧ answers .seqSync (tSeq 0x60000005 false .none) (fun t => t.get F.SEQ_STAT_PHASE_STATE == 5)) ∧
    (((tSeq 0x60000005 false .none).put F.SEQ_CFG_PHASE_EN 1).onPhase = true ∧
      answers .seqSync ((tSeq 0x60000005 false .none).put F.SEQ_CFG_PHASE_EN 1) (fun t => t.seq.wait == .sync 5)) ∧
    answers .seqMark (tSeq 0x7000002A false .none) (fun t => t.seq.mirror == some 42) ∧
    answers .seqEnd (tSeq 0x80000001 true .none) (fun t => t.seq.run.isNone && t.power == pwDark) ∧
    ((tSeq 0x80000000 false .none).seqAt 8 = true ∧ (tSeq 0x80000000 false .none).flag F.SEQ_STAT_PEND_OFF = false) := by decide +kernel

/-- As `tSeq`, 4,000,000 cycles after the wait began. -/
def tSeqLate (w : Nat) (down : Bool) (wait : SeqWait) : State := { tSeq w down wait with
  now := 4000000
  marks := [(52, 0), (94, 0), (98, 0)] }

theorem test_seq_times :
    ((tSeqLate 0x30000001 true .time).waited 1 200 20000 = true ∧ (tSeqLate 0x40000119 true (.check 25 false)).passed 94 (seqLimit (tSeqLate 0x40000119 true (.check 25 false)).stepWord * 20000) = true) ∧
    ((tSeqLate 0x20000117 true (.discharge 23)).waited (seqLimit (tSeqLate 0x20000117 true (.discharge 23)).stepWord) 20000 200000 = true ∧
      (tSeqLate 0x60000105 false (.sync 5)).passed 52 (seqLimit (tSeqLate 0x60000105 false (.sync 5)).stepWord * 200000) = true) ∧
    answers .seqSync ((tSeqLate 0x60000005 false .none).put F.SEQ_CFG_PHASE_EN 1) (fun t => t.seq.wait == .sync 5) ∧
    answers .seqWaitExpiry (tSeqLate 0x30000001 true .time) (fun t => t.get F.SEQ_STAT_STEP == 10) ∧
    answers .seqSyncTimeout (tSeqLate 0x60000105 true (.sync 5)) (fun t => t.get F.SEQ_STAT_PHASE_STATE == 5) ∧
    becomes .seqWaitExpiry (State.mark (tSeq 0x30000001 true .time) 94) (State.mark (tSeq 0x30000001 true .time) 94) := by decide +kernel

theorem test_seq_waits :
    answers .seqWaitExpiry (tSeq 0x30000001 true .time) (fun t => t.get F.SEQ_STAT_STEP == 10 && t.seq.wait == .none) ∧
    answers .seqCheckTimeout (tSeq 0x40000119 true (.check 25 false)) (fun t => t.seq.faultN) ∧
    answers .seqDischargeTimeout (tSeq 0x20000117 true (.discharge 23)) (fun t => t.get F.SEQ_FAULT_RAIL == 23 && t.get F.SEQ_FAULT_KIND == 3) ∧
    answers .seqSyncTimeout (tSeq 0x60000105 true (.sync 5)) (fun t => t.get F.SEQ_STAT_PHASE_STATE == 5 && t.get F.SEQ_STAT_STEP == 10) ∧
    ((tSeq 0x60000105 false (.sync 5)).seq.wait = .sync 5 ∧ (tSeq 0x60000105 false (.sync 5)).seq.run = some false) ∧
    answers .runStepLimit { tSeq 0x30000001 true .none with seq := { (tSeq 0x30000001 true .none).seq with steps := 4096 } } (fun t => t.seq.faultN) := by
  decide +kernel

/-! ### Power -/

theorem test_up_ready : tDark.upReady ∧ (tDark.put F.SEQ_STAT_STATE 6).upReady := by
  unfold State.upReady
  decide +kernel

theorem test_power_requests :
    let p := tDark.put F.KVC_AUTH_OPEN 1
    let on := fun (src : Nat) (t : State) => t.seq.run == some false && t.get F.SEQ_LAST_ON_SOURCE == src
    let hold := tDark.put F.SEQ_STAT_STATE 6
    (tDark.get F.SEQ_STAT_STATE = 0 ∧ tDark.lit = false ∧ answers .phaseFall (tDark.put F.SEQ_CFG_PHASE_EN 1) (on 4)) ∧
    (answers (.pwrbtnRelease 50) tDark (on 3) ∧ answers (.pwrbtnRelease 4000) tDark (on 3)) ∧
    (p.mayWrite .mgmt R.SEQ_CTL = true ∧ answers (.reqOn .mgmt (tBits F.SEQ_CTL_REQ_ON 1)) p (on 6)) ∧
    answers .mrstNRelease ((tDark.put F.SEQ_IN_STAT_MRST_N 1).put F.SEQ_CFG_MRST_ON 1) (on 5) ∧
    answers .holdoffEnd (hold.put F.SEQ_STAT_PEND_ON 1) (on 7) ∧ answers .holdoffEnd (hold.put F.SEQ_CFG_AUTO_ON 1) (on 2) ∧
    becomes (.pwrbtnRelease 49) tDark ((tDark.wr R.SEQ_BTN 49).put F.SEQ_IN_STAT_PWRBTN_N 0) ∧
    (tAuth.anyLink = true ∧ tAuth.lit = true ∧ tAuth.poweringUp = false ∧ answers (.reqOff .mgmt (tBits F.SEQ_CTL_REQ_OFF 1)) (tAuth.put F.SEQ_CFG_HOST_S 5) (fun t =>
      t.seq.hosts && t.get F.SEQ_LAST_OFF_CAUSE == 2)) ∧
    answers (.faultClr .mgmt (tBits F.SEQ_CTL_FAULT_CLR 1)) (p.wr R.SEQ_FAULT 7) (fun t => t.rd R.SEQ_FAULT == 0) := by decide +kernel

theorem test_power_off :
    let l := tUp.put F.SEQ_STAT_STATE 2
    (l.seq.off < 4 ∧ l.seq.run ≠ some true) ∧
    answers .pwrbtnHold12s (l.wr R.SEQ_EN_STAT 0xFFFFFF) (fun t => t.rd R.SEQ_EN_STAT == 0 && t.power == pwDark && t.get F.SEQ_LAST_OFF_CAUSE == 8) ∧
    (tUp.steady = true ∧ tDark.steady = false ∧ becomes .mrstNAssert tDark (tDark.put F.SEQ_IN_STAT_MRST_N 1)) ∧
    ((tUp.rd R.SEQ_PG_ARMED).getLsbD 23 = false ∧ answers (.pgoodChange 23 true) tUp (fun t => t.pgood 23)) ∧
    answers .phaseBarrier (tSeq 0x60000105 true (.sync 31)) (fun t => t.get F.SEQ_STAT_PHASE_STATE == 1 && t.flag F.SEQ_IN_STAT_PHASE) ∧
    answers .porAssert tUp (fun t => t.seq.por && t.regs.isEmpty) ∧
    (State.reset.seq.por = true ∧ answers (.porRelease false) State.reset (fun t => !t.seq.por && t.kvc.slots.isEmpty)) ∧
    answers .xtal32kFail tUp (fun t => t.seq.faultN) := by decide +kernel

theorem test_supply :
    let pen := { tUp.put F.SUP_STAT_PEN 1 with
      now := 2000000
      marks := [(95, 0)] }
    answers (.vinWarnCross 0xFFFF) tDark (fun t => t.get F.SUP_VIN_input == 0xFFFF && !t.flag F.SUP_STAT_VIN_LOW) ∧
    (let w := tUp.get F.SUP_CFG_WARN * 50
     tUp.get F.SUP_CFG_RESET * 50 ≤ w - 1 ∧ tUp.get F.SUP_CFG_RESET ≤ tUp.get F.SUP_CFG_WARN ∧ w < 65536 ∧
     answers (.vinWarnCross (BitVec.ofNat 16 (w - 1))) tUp (fun t => t.flag F.SUP_STAT_PEN && t.seq.penLow == w - 1) ∧
     answers (.vinWarnCross (BitVec.ofNat 16 w)) (tUp.put F.SEQ_IN_STAT_HOLDUP_OK 1) (fun t => !t.flag F.SUP_STAT_PEN)) ∧
    ((pen.put F.SEQ_IN_STAT_HOLDUP_OK 1).holdup = true ∧ pen.lasted 95 2000000 = true ∧
      answers (.penumbraExit 0xFFFF) (pen.put F.SEQ_IN_STAT_HOLDUP_OK 1) (fun t => !t.flag F.SUP_STAT_PEN)) ∧
    answers (.holdupOkChange false) tUp (fun t => t.flag F.SUP_STAT_PEN && t.flag F.SUP_STAT_HOLD_LOW) ∧
    (offFast 5 = true ∧ answers .eclipseDeadline { tUp with seq := { tUp.seq with off := 5 } } (fun t => t.power == pwDark && t.rd R.SEQ_EN_STAT == 0)) ∧
    becomes .eclipseDeadline tUp tUp := by decide +kernel

/-! ### Boot, modes, the rest -/

def tStart (stage : StartStage) : State := { tUp with seq := { tUp.seq with stage := stage } }

/-- In the configuration Hold, with the authorisation open. -/
def tHold : State := (tAuth.put F.MODE_HOLD_WHY_CONFIG 1)

theorem test_boot :
    let ctl := tBits F.BOOT_CTL_KEY 0x4253
    let fit := { tAuth with boot.flash.fitted := true, boot.flash.log2 := 26 }
    (let s := tStart .scan
     s.seq.held = false ∧ s.flag F.NVS_STATUS_READY = false ∧ s.seq.src = 1 ∧
     ({ s with seq := { s.seq with src := 2 } }).seq.stage = .scan) ∧
    ((tUp.checkSlot false false = 9) ∧ ({ tUp with boot.val := some true }).seq.warm = false) ∧
    ((tStart .load).seq.afterWarm = false ∧ ({ tStart .load with boot.flash.fitted := true }).flashUsable = true) ∧
    ((tHost.put F.MAP_STAT_ARMED 0).lit = true ∧ { tHost with store.fmt := some ⟨0, 0, false, true⟩ }.formatted = true) ∧
    (tHold.mayWrite .mgmt R.BOOT_CTL = true ∧ F.BOOT_CTL_USE_B.on (ctl + tBits F.BOOT_CTL_USE_B 1) = true ∧
      F.BOOT_CTL_RETRY.on (ctl + tBits F.BOOT_CTL_USE_B 1) = false ∧ F.BOOT_CTL_KEY.of (ctl + tBits F.BOOT_CTL_USE_B 1) = 0x4253 ∧
      answers (.useB .mgmt (ctl + tBits F.BOOT_CTL_USE_B 1)) tHold (fun t => t.boot.val == some true && t.seq.stage == .validate) ∧
      answers (.retry .mgmt (ctl + tBits F.BOOT_CTL_RETRY 1)) tHold (fun t => t.boot.val == some false)) ∧
    (tHost.mayWrite .cc R.BOOT_SEAL = true ∧ becomes (.bootSeal .cc (tBits F.BOOT_SEAL_KEY 0x5345)) tHost (tHost.put F.BOOT_STAT_SEALED 1)) ∧
    (fit.flashUsable = true ∧ fit.mayWrite .mgmt R.BOOT_FL_CMD = true ∧ fit.get F.BOOT_FL_ADDR_ADDR + 65536 ≤ fit.flashSize ∧
      answers (.flashErase64k .mgmt (tBits F.BOOT_FL_CMD_GO 1 + tBits F.BOOT_FL_CMD_OP 4)) fit (fun t => t.boot.op == some (4, 0))) ∧
    answers (.flashErase4k .mgmt (tBits F.BOOT_FL_CMD_GO 1 + tBits F.BOOT_FL_CMD_OP 3)) tHost (fun t => t.get F.BOOT_FL_STAT_CODE == 1) := by decide +kernel

theorem test_flash_ends :
    let s := fun (op : Nat) => { tUp with
      boot.flash := ⟨26, true, true, [(4095, 7), (4096, 8)]⟩
      boot.op := some (op, 0) }
    answers (.flashOpDone true) (s 3) (fun t => t.flashBytes 4095 2 == [0xFF, 8] && t.boot.op.isNone) ∧
    ((s 2).boot.op = some (2, 0) ∧ (s 1).boot.op = some (1, 0)) ∧
    answers (.flashOpDone false) (s 4) (fun t => t.get F.BOOT_FL_STAT_CODE == 4 && t.boot.op.isNone) := by decide +kernel

theorem test_modes :
    let own := tAuth.put F.MODE_STAT_TRUST trOwner
    let key := tBits F.MODE_CTL_KEY 0x4D43
    (tAuth.mayWrite .mgmt R.MODE_CTL = true ∧ answers (.modeDim .mgmt (tBits F.MODE_CTL_DIM 1)) tAuth (fun t => t.power == pwDim)) ∧
    answers (.modeRelease .mgmt (tBits F.MODE_CTL_RELEASE 1)) (tAuth.put F.MODE_HOLD_WHY_RELEASE 1) (fun t => !t.flag F.MODE_HOLD_WHY_RELEASE) ∧
    answers (.modeSeal .mgmt (tBits F.MODE_CTL_SEAL 1)) own (fun t => t.trust == trSealed) ∧
    (tAuth.trust ≠ trOwner ∧ answers (.modeSeal .mgmt (tBits F.MODE_CTL_SEAL 1)) tAuth (fun t => t.get F.MODE_STAT_CODE == 5)) ∧
    answers (.modeCold .mgmt (tBits F.MODE_CTL_COLD 1)) tAuth (fun t => t.get F.MODE_STAT_CODE == 1 && t.key.slots.length == 1) ∧
    (F.MODE_CTL_KEY.of key = 0x4D43 ∧ tAuth.steady = true ∧ tAuth.seq.left = false ∧ tAuth.store.imageRun = none ∧ tAuth.service ≠ svHalted) ∧
    (tAuth.mayWrite .mgmt R.BOOT_MS_CTL = true ∧ tAuth.msBusy .mgmt = false ∧
      answers (.modeStoreLoad .mgmt (tBits F.BOOT_MS_CTL_LOAD 1 + tBits F.BOOT_MS_CTL_KEY 0x4D53)) tAuth (fun t => (t.msEntries .mgmt).isEmpty)) ∧
    becomes (.modeStore .cc (tBits F.BOOT_MS_CTL_GO 1)) tAuth (tAuth.msStat .cc 0 1 0) ∧
    (tAuth.msCheck 0 [] = (0, 0) ∧ (tAuth.msCheck 513 []).1 = 2) ∧
    (let s := { tAuth.wr (R.NVS_REC_SEQ 1) 4 with
       boot.store := some (0, true, 4)
       nvs.inUse := [(1, true)] }
     answers .modeStoreDone s (fun t => t.boot.store.isNone && (t.path (storePath 0)).msStat == 0)) ∧
    answers .modeStoreDone { tAuth with boot.store := some (0, true, 4) } (fun t => t.boot.store.isNone && (t.path (storePath 0)).msStat == 16) := by
  decide +kernel

theorem test_waits_over :
    let h := { tAuth.put F.SEQ_CFG_HOST_S 5 with
      seq := { tAuth.seq with hosts := true }
      now := 1000000000
      marks := [(55, 0), (56, 0), (97, 998000000)] }
    (h.passed 55 (h.get F.SEQ_CFG_HOST_S * oneSecond) = true ∧ h.passed 56 0 = true ∧ h.passed 97 2000000 = true ∧
      becomes .hostWaitExpiry h h.offDrain) ∧
    (tUp.pending = [] ∧ tUp.wear.retrainDue = [] ∧ tUp.seq.hosts = false ∧ tUp.seq.drain = false ∧ tUp.store.bandResetDue = false) := by decide +kernel

theorem test_rest :
    answers (.gpfPhase2 0) tHost (fun t => t.out == [.gpfDone 0 2] && t.rd (R.HP_CNT_LO 0 15) == 1) ∧
    answers (.counterLoRead .cc 0x30000FC) tHost (fun t => t.out == [.regData .cc 0]) ∧
    becomes (.registerWrite .mgmt 0x3000000 5) tHost tHost := by decide +kernel

/-- The state after reset meets the invariant. -/
theorem test_reset_inv : State.reset.Inv := ⟨by simp [State.reset], by decide +kernel⟩

end Sys2Proof.Machine
end

section
/-! Port counters and GPF (R58, R68): the 64-bit counters that pairs of registers hold, and the completion of a GPF phase. -/

namespace Sys2Proof.Machine

/-! ### 64-bit counters (R7, R68) -/

/-- A 64-bit pair read after it is written. -/
theorem State.rd64_wr64_same (s : State) (lo v : Nat) (hv : v < 2 ^ 64) : (s.wr64 lo v).rd64 lo = v := by
  have hlo : (s.wr64 lo v).rd lo = BitVec.ofNat 32 v := by
    rw [State.wr64, State.rd_wr_ne _ _ _ _ (by omega), State.rd_wr_same]
  have hhi : (s.wr64 lo v).rd (lo + 4) = BitVec.ofNat 32 (v / 2 ^ 32) := State.rd_wr_same _ _ _
  rw [State.rd64, hlo, hhi, BitVec.toNat_ofNat, BitVec.toNat_ofNat]
  omega

/-- An advanced counter holds its old value plus the step, modulo 2^64. -/
theorem State.rd64_add64_same (s : State) (lo k : Nat) : (s.add64 lo k).rd64 lo = (s.rd64 lo + k) % 2 ^ 64 :=
  s.rd64_wr64_same lo _ (Nat.mod_lt _ (by positivity))

/-- A field outside both words of a counter can be set without moving the counter. -/
theorem State.rd64_put_ne (s : State) (f : Fld) (lo v : Nat) (hlo : lo ≠ f.off) (hhi : lo + 4 ≠ f.off) :
    (s.put f v).rd64 lo = s.rd64 lo := by
  rw [State.rd64, State.rd64, State.rd_put_ne _ _ _ _ hlo, State.rd_put_ne _ _ _ _ hhi]

/-- An answer to the world outside moves no counter. -/
@[simp] theorem State.rd64_say (s : State) (r : Response) (lo : Nat) : (s.say r).rd64 lo = s.rd64 lo := rfl

/-- A port counter, advanced. -/
theorem State.rd64_hpCount_same (s : State) (n i k : Nat) :
    (s.hpCount n i k).rd64 (R.HP_CNT_LO n i) = (s.rd64 (R.HP_CNT_LO n i) + k) % 2 ^ 64 :=
  s.rd64_add64_same (R.HP_CNT_LO n i) k

/-- Advancing a port counter keeps the data. -/
theorem dataKept_hpCount (s : State) (n i k : Nat) : dataKept s (s.hpCount n i k) := ⟨rfl, rfl, rfl, rfl, rfl⟩

/-! ### GPF (R58) -/

/-- A GPF phase on a port whose link is up sets the phase's status bit, counts the request and answers. -/
theorem State.gpf_linkUp (s : State) (n : Fin 8) (f : Fld) (phase : Nat) (h : (s.port n).linkUp = true) :
    s.gpf n f phase = ((s.put f 1).hpCount n 15 1).say (.gpfDone n phase) := by
  simp [State.gpf, h]

/-- HPn_GPF_STAT lies below the port's counters, so setting it moves none of them. -/
theorem State.hpCounter_put_gpfStat (s : State) (n i : Nat) (f : Fld) (v : Nat) (hf : f.off = R.HP_GPF_STAT n) :
    (s.put f v).rd64 (R.HP_CNT_LO n i) = s.rd64 (R.HP_CNT_LO n i) := by
  have hbelow : f.off < R.HP_CNT_LO n i := by rw [hf]; simp only [R.HP_GPF_STAT, R.HP_CNT_LO]; omega
  exact s.rd64_put_ne f _ v (by omega) (by omega)

/-- What a GPF phase does on a port whose link is up, whichever status bit of HPn_GPF_STAT records it. -/
theorem State.gpf_completes (s : State) (n : Fin 8) (f : Fld) (phase : Nat) (h : (s.port n).linkUp = true)
    (hf : f.off = R.HP_GPF_STAT n) :
    (s.gpf n f phase).out = .gpfDone n phase :: s.out ∧ dataKept s (s.gpf n f phase) ∧
      (s.gpf n f phase).accesses = s.accesses ∧
      (s.gpf n f phase).rd64 (R.HP_CNT_LO n 15) = (s.rd64 (R.HP_CNT_LO n 15) + 1) % 2 ^ 64 := by
  rw [s.gpf_linkUp n f phase h]
  refine ⟨rfl, dataKept_hpCount (s.put f 1) n 15 1, rfl, ?_⟩
  rw [State.rd64_say, State.rd64_hpCount_same, s.hpCounter_put_gpfStat n 15 f 1 hf]

theorem exec_gpfPhase1 (s : State) (n : Fin 8) : exec (.gpfPhase1 n) s = .next (s.gpf n (F.HP_GPF_STAT_P1 n) 1) := rfl

theorem exec_gpfPhase2 (s : State) (n : Fin 8) : exec (.gpfPhase2 n) s = .next (s.gpf n (F.HP_GPF_STAT_P2 n) 2) := rfl

/-- Settles O58: both phases are one completion, `State.gpf_completes`, recorded in different bits of HPn_GPF_STAT (R58). -/
theorem gpfCompletesAtOnce : Obligations.GpfCompletesAtOnce := by
  unfold Obligations.GpfCompletesAtOnce
  intro s n hup c k hc
  simp only [List.mem_cons, List.not_mem_nil, or_false, Prod.mk.injEq] at hc
  obtain ⟨rfl, rfl⟩ | ⟨rfl, rfl⟩ := hc
  · exact ⟨_, exec_gpfPhase1 s n, s.gpf_completes n _ 1 hup rfl⟩
  · exact ⟨_, exec_gpfPhase2 s n, s.gpf_completes n _ 2 hup rfl⟩

end Sys2Proof.Machine
end

section
/-! The counter window (R334): aligned reads and writes of the 64 dwords of the spread counters. -/

namespace Sys2Proof.Machine

/-- The management-space offset of dword c of the counter window (R334). -/
def counterOff (c : Fin 64) : Nat := 0x3000000 + 4 * c.val

/-! ### Where the window lies (R334, R423) -/

/-- The offset fits the 26 bits that a command carries. -/
theorem toNat_counterOff (c : Fin 64) : (BitVec.ofNat 26 (counterOff c)).toNat = counterOff c := by
  rw [BitVec.toNat_ofNat]
  exact Nat.mod_eq_of_lt (by unfold counterOff; omega)

theorem counterOff_mod_four (c : Fin 64) : counterOff c % 4 = 0 := by unfold counterOff; omega

theorem windowOf_counterOff (c : Fin 64) : windowOf (counterOff c) = some (.counter (4 * c.val)) := by
  have hmet : ¬ (counterOff c < 0x1000000 + 0x2000000) := by unfold counterOff; omega
  have hbase : 0x3000000 ≤ counterOff c := by unfold counterOff; omega
  have hend : counterOff c < 0x3000000 + 256 := by unfold counterOff; omega
  have hin : counterOff c - 0x3000000 = 4 * c.val := by unfold counterOff; omega
  simp [windowOf, hmet, hbase, hend, hin]

theorem unassigned_counterOff (c : Fin 64) : unassigned (counterOff c) = false := by
  simp [unassigned, windowOf_counterOff]

/-- The window lies outside the fabric's domain and the key vault, so an access wakes nothing (R357, R426). -/
theorem State.reach_counterOff (s : State) (p : Path) (c : Fin 64) :
    s.reach p (usesFabric (counterOff c)) (usesVault (counterOff c)) = s := by
  simp [State.reach, usesFabric, usesVault, windowOf_counterOff]

theorem State.answersAt_counterOff (s : State) (c : Fin 64) (h : s.seq.por = false) :
    s.answersAt (counterOff c) = true := by
  simp [State.answersAt, windowOf_counterOff, h]

/-! ### Accesses (R6, R334) -/

/-- What dword c of the window shows a path. -/
theorem State.readWindow_counter (s : State) (p : Path) (c : Nat) :
    s.readWindow p (.counter (4 * c)) = if p = .mgmt ∨ p = .cc then BitVec.ofNat 32 (s.spread c) else 0 := by
  rw [State.readWindow, Nat.mul_div_cancel_left c (by decide : 0 < 4)]

/-- A read of the window answers with what the window shows, and has no other effect. -/
theorem State.readSay_counterOff (s : State) (p : Path) (c : Fin 64) (h : s.seq.por = false) :
    s.readSay p (counterOff c) = s.say (.regData p (s.readWindow p (.counter (4 * c.val)))) := by
  have hread : s.readAt p (counterOff c) = (s.readWindow p (.counter (4 * c.val)), s) := by
    simp [State.readAt, h, State.reach_counterOff, unassigned_counterOff, s.answersAt_counterOff c h, windowOf_counterOff]
  simp [State.readSay, counterOff_mod_four, hread]

/-- The window is read-only. -/
theorem State.writeAt_counterOff (s : State) (p : Path) (c : Fin 64) (v : Word) (h : s.seq.por = false) :
    s.writeAt p (counterOff c) v = s := by
  simp [State.writeAt, h, State.reach_counterOff, unassigned_counterOff, s.answersAt_counterOff c h, windowOf_counterOff,
    State.writeWindow]

theorem exec_counterLoRead_window (s : State) (p : Path) (c : Fin 64) (h : s.seq.por = false) :
    exec (.counterLoRead p (BitVec.ofNat 26 (counterOff c))) s =
      .next (s.say (.regData p (if p = .mgmt ∨ p = .cc then BitVec.ofNat 32 (s.spread c.val) else 0))) := by
  rw [exec, execCounterLoRead, toNat_counterOff, s.readSay_counterOff p c h, State.readWindow_counter]

theorem exec_registerWrite_window (s : State) (p : Path) (c : Fin 64) (v : Word) (h : s.seq.por = false) :
    exec (.registerWrite p (BitVec.ofNat 26 (counterOff c)) v) s = .next s := by
  rw [exec, execRegisterWrite, toNat_counterOff, if_pos (counterOff_mod_four c), s.writeAt_counterOff p c v h]

/-- Settles O59: an access at `counterOff c` reaches the window and wakes nothing, a read shows the counter to the management port
and the control cores and 0 to the other paths, and a write is discarded (R334). -/
theorem counterWindow : Obligations.CounterWindow := by
  unfold Obligations.CounterWindow
  intro s c p v hpor
  have hread := exec_counterLoRead_window s p c hpor
  refine ⟨fun hp => ?_, fun hmgmt hcc => ?_, exec_registerWrite_window s p c v hpor⟩
  · rwa [if_pos hp] at hread
  · rwa [if_neg (not_or.mpr ⟨hmgmt, hcc⟩)] at hread

end Sys2Proof.Machine
end

section
/-! SYNC timeouts (R364, R368): the step that a run goes on at, and what a SYNC does that has waited its TMO. -/

namespace Sys2Proof.Machine

/-! ### Moving to a step (R364, R365) -/

theorem State.moveStep_seq (s : State) (i : Nat) :
    (s.moveStep i).1.seq = { s.seq with
      wait := .none
      steps := s.seq.steps + 1 } := rfl

/-- A run that moves to a step shows it in SEQ_STAT.STEP. -/
theorem State.get_step_moveStep (s : State) (i : Nat) : (s.moveStep i).1.get F.SEQ_STAT_STEP = i % 256 := by
  rw [State.moveStep, State.get_put_same _ F.SEQ_STAT_STEP _ (by decide)]
  exact Nat.mod_mod i 256

/-- A run that moves to a step leaves the phase state. -/
theorem State.get_phaseState_moveStep (s : State) (i : Nat) :
    (s.moveStep i).1.get F.SEQ_STAT_PHASE_STATE = s.get F.SEQ_STAT_PHASE_STATE :=
  State.get_put_other _ F.SEQ_STAT_STEP F.SEQ_STAT_PHASE_STATE _ rfl (by decide) (by decide) (by decide)

theorem State.movedTo_moveStep (s : State) (i : Nat) : s.movedTo (s.moveStep i).1 i :=
  ⟨s.get_step_moveStep i, rfl, rfl, rfl⟩

/-- The step that a run moved to is the program's word there. -/
theorem State.stepWord_moveStep (s : State) (i : Nat) : (s.moveStep i).1.stepWord = s.runWord (i % 256) := by
  rw [State.stepWord, s.get_step_moveStep i, State.runWord, s.moveStep_seq i, State.runWord]

/-- A step that the run may go on at is one that `State.moveStep` admits. -/
theorem State.moveStep_admits (s : State) (i : Nat) (h : s.stepOk i) : (s.moveStep i).2 = true := by
  have hok : (s.moveStep i).2 = (decide (4096 ≤ s.seq.steps + 1) ||
      (decide (i < 256) && seqWordOk (s.moveStep i).1.stepWord)) := rfl
  rw [hok, s.stepWord_moveStep i]
  obtain hlast | ⟨hi, hword⟩ := h
  · simp [hlast]
  · simp [hi, Nat.mod_eq_of_lt hi, hword]

/-- A run of either program goes on at a step that it may go on at. -/
theorem State.goStep_of_stepOk (s : State) (i : Nat) (h : s.stepOk i) : s.goStep i = (s.moveStep i).1 := by
  have hok := s.moveStep_admits i h
  by_cases hdown : s.seq.run = some true
  · rw [State.goStep, if_pos hdown, State.enterDown]
    exact if_pos hok
  · rw [State.goStep, if_neg hdown, State.enterUp]
    exact if_pos hok

/-! ### The longest wait (R382) -/

@[simp] theorem State.noteSync_seq (s : State) : s.noteSync.seq = s.seq := rfl

theorem State.get_noteSync (s : State) (f : Fld) (h : f.off ≠ R.SEQ_SYNC_WAIT) : s.noteSync.get f = s.get f :=
  s.get_put_ne F.SEQ_SYNC_WAIT_longest f _ h

/-! ### A SYNC whose TMO is over (R368) -/

theorem exec_seqSyncTimeout (s : State) : exec .seqSyncTimeout s = .next s.syncTimeout := rfl

/-- A fault in a power-up run aborts it (R374, R375). -/
theorem State.runFault_up (s : State) (kind : Nat) (hrun : s.seq.run = some false) :
    s.runFault kind = s.upFault kind noRail (s.get F.SEQ_STAT_STEP) := by
  simp [State.runFault, hrun]

/-- In a power-up run the timeout is a sync fault. -/
theorem State.syncTimeout_up (s : State) (st : Nat) (hwait : s.seq.wait = .sync st)
    (hlate : s.passed 52 (seqLimit s.stepWord * 200000) = true) (hrun : s.seq.run = some false) :
    s.syncTimeout = s.noteSync.runFault faultSync := by
  simp [State.syncTimeout, hlate, hrun, hwait]

/-- In a shutdown run the timeout sets the phase state and the run goes on. -/
theorem State.syncTimeout_down (s : State) (st : Nat) (hwait : s.seq.wait = .sync st)
    (hlate : s.passed 52 (seqLimit s.stepWord * 200000) = true) (hrun : s.seq.run = some true) :
    s.syncTimeout = (s.noteSync.put F.SEQ_STAT_PHASE_STATE st).nextStep := by
  simp [State.syncTimeout, hlate, hrun, hwait]

/-- The phase state and the longest wait are set beside the number of the step. -/
theorem State.get_step_syncPassing (s : State) (st : Nat) :
    (s.noteSync.put F.SEQ_STAT_PHASE_STATE st).get F.SEQ_STAT_STEP = s.get F.SEQ_STAT_STEP := by
  rw [State.get_put_other _ F.SEQ_STAT_PHASE_STATE F.SEQ_STAT_STEP _ rfl (by decide) (by decide) (by decide),
    s.get_noteSync _ (by decide)]

/-- Settles O60: the SYNC's wait is noted either way; then a power-up's fault is `State.upFault`, and a shutdown's run moves to the
next step with the phase state set (R368). -/
theorem syncTimeout : Obligations.SyncTimeout := by
  unfold Obligations.SyncTimeout
  intro s st hwait hst hlate
  refine ⟨fun hrun => ?_, fun hrun hok => ?_⟩
  · rw [exec_seqSyncTimeout, s.syncTimeout_up st hwait hlate hrun, s.noteSync.runFault_up faultSync hrun,
      s.get_noteSync F.SEQ_STAT_STEP (by decide), State.upFault]
  · have hnext := (s.noteSync.put F.SEQ_STAT_PHASE_STATE st).goStep_of_stepOk (s.get F.SEQ_STAT_STEP + 1) hok
    refine ⟨_, exec_seqSyncTimeout s, ?_⟩
    rw [s.syncTimeout_down st hwait hlate hrun, State.nextStep, s.get_step_syncPassing st, hnext]
    refine ⟨?_, State.movedTo_moveStep _ _⟩
    rw [State.get_phaseState_moveStep, State.get_put_same _ F.SEQ_STAT_PHASE_STATE _ (by decide)]
    exact Nat.mod_eq_of_lt hst

end Sys2Proof.Machine
end
